-- ==== Sys2Proof/Word.lean ====
section
/-! DEFINITION. The byte and the text of the IW440's formats (11_formats.md, R187). Numbers, weights and counts are
`Nat` or `Int`: the manual adds and compares them and never treats them as bits. -/

namespace Sys2Proof

/-- One byte of a frame, of a port request or of the configuration memory. -/
abbrev Byte := BitVec 8

/-- A text field without its padding: one byte a character (R187). -/
abbrev Text := List Byte

end Sys2Proof
end

