-- ==== Sys2Proof/Syntax.lean ====
section
/-! DEFINITION. The commands of the block: one constructor of `Instr` for each row of spec/opcode_table.json, over the
field types of R187 and the frame bodies of R188. A body that holds a field which R187 calls not valid is `none`. -/

namespace Sys2Proof

/-- The roles of a station (00_scope.md; the byte of R187). -/
structure Roles where
  blend : Bool
  head  : Bool
  mark  : Bool
  paper : Bool
  deriving DecidableEq, Repr

/-- Invoice states, RETIRED being carried by frames alone (R25, R187). -/
inductive InvState where
  | claimed | opened | ending | marking | closed | retired
  deriving DecidableEq, Repr

/-- End cause of an invoice (R25). -/
inductive EndCause where
  | exhausted | stopped | cancelled | ownerLost
  deriving DecidableEq, Repr

/-- Adoption field of an invoice (R25). -/
inductive Adoption where
  | unadopted | plain | forced
  deriving DecidableEq, Repr

/-- Objection reason (R31). -/
inductive Objection where
  | held | range | full
  deriving DecidableEq, Repr

/-- Refusal reason of CHEST-REFUSED (R128, R187). -/
inductive RefuseReason where
  | ended | shortTaken | unknown | voidFull | listFull
  deriving DecidableEq, Repr

/-- Class of a reported chest (R114). -/
inductive ChestClass where
  | full | short
  deriving DecidableEq, Repr

/-- Stencil state of a chest entry (R26). -/
inductive Stencil where
  | pending | printed | hand | unknown
  deriving DecidableEq, Repr

/-- How a chest was marked (R133). -/
inductive How where
  | printed | hand
  deriving DecidableEq, Repr

/-- Purpose of a lease (R88). -/
inductive Purpose where
  | fill | topup
  deriving DecidableEq, Repr

/-- Slot of a lease (R88). -/
inductive Slot where
  | current | next
  deriving DecidableEq, Repr

/-- Reason of a LEASE-END (R187). -/
inductive LeaseEndReason where
  | exhausted | deferred | stopped | blenderRestart | headAbsent
  deriving DecidableEq, Repr

/-- Result of a NOTED (R187). -/
inductive NotedResult where
  | ok | queued | notHeld | full
  deriving DecidableEq, Repr

/-- Start kind carried by a JOIN (R19). -/
inductive JoinKind where
  | cold | warm
  deriving DecidableEq, Repr

/-- State carried by a PRESENCE (R18). -/
inductive PresState where
  | joining | active
  deriving DecidableEq, Repr

/-- The 24 frame kinds, in the order of their codes 01 to 18 (R188); HOLD and GO are one kind. -/
inductive FrameKind where
  | join | presence | claim | consent | object | withdraw | header | recordBlock | recordAsk | chestDone
  | chestEntered | chestRefused | fillVoid | markDone | markEntered | adopt | sheetTaken | leaseAsk
  | leaseGrant | leaseDone | leaseEnd | leaseCancel | holdGo | noted
  deriving DecidableEq, Repr

/-- The header fields of an invoice (R25). -/
structure Header where
  inv       : Nat
  owner     : Nat
  version   : Nat
  state     : InvState
  batch     : Nat
  order     : Nat
  garden    : Text
  grade     : Nat
  charged   : Nat
  planned   : Nat
  entered   : Nat
  netTotal  : Nat
  voidTotal : Nat
  voidCount : Nat
  residue   : Option Nat
  endCause  : Option EndCause
  adoption  : Adoption
  lostFills : Nat
  deriving DecidableEq, Repr

/-- One chest entry (R26); head, token and weights are absent in a placeholder. -/
structure Chest where
  ordinal    : Nat
  head       : Option Nat
  token      : Option Nat
  gross      : Option Nat
  tare       : Option Nat
  net        : Option Nat
  short      : Bool
  topups     : Nat
  flightLong : Bool
  stencil    : Stencil
  marker     : Option Nat
  deriving DecidableEq, Repr

/-- One void record (R26). -/
structure VoidRec where
  head  : Nat
  token : Nat
  net   : Nat
  deriving DecidableEq, Repr

/-- One item of a RECORD-BLOCK (R188). -/
inductive Item where
  | chest (c : Chest)
  | void (v : VoidRec)
  deriving DecidableEq, Repr

/-- Body of JOIN (R19). -/
structure JoinBody where
  roles   : Roles
  start   : JoinKind
  blender : Option Nat
  lane1   : Option Nat
  lane2   : Option Nat
  deriving DecidableEq, Repr

/-- Body of PRESENCE (R18). -/
structure PresenceBody where
  roles : Roles
  state : PresState
  mark  : Nat
  deriving DecidableEq, Repr

/-- The fields of a JOIN as received, each none where it is not valid (R187); the roles byte is always valid. -/
structure JoinRead where
  roles   : Roles
  start   : Option JoinKind
  blender : Option (Option Nat)
  lane1   : Option (Option Nat)
  lane2   : Option (Option Nat)
  deriving DecidableEq, Repr

/-- The fields of a PRESENCE as received: the state is none where its code is not valid (R187). -/
structure PresenceRead where
  roles : Roles
  state : Option PresState
  mark  : Nat
  deriving DecidableEq, Repr

/-- Body of CLAIM (R29). -/
structure ClaimBody where
  inv    : Nat
  order  : Nat
  grade  : Nat
  garden : Text
  net    : Nat
  deriving DecidableEq, Repr

/-- Body of CONSENT (R31). -/
structure ConsentBody where
  inv      : Nat
  claimant : Nat
  deriving DecidableEq, Repr

/-- Body of OBJECT (R31). -/
structure ObjectBody where
  inv      : Nat
  claimant : Nat
  reason   : Objection
  deriving DecidableEq, Repr

/-- Body of HEADER (R188). -/
structure HeaderBody where
  hdr        : Header
  dump       : Bool
  resumed    : Bool
  newVoid    : Option VoidRec
  entryCount : Nat
  deriving DecidableEq, Repr

/-- Body of RECORD-BLOCK (R38). -/
structure BlockBody where
  inv     : Nat
  version : Nat
  items   : List Item
  deriving DecidableEq, Repr

/-- Body of CHEST-DONE (R117). -/
structure ChestDoneBody where
  inv        : Nat
  token      : Nat
  gross      : Nat
  tare       : Nat
  net        : Nat
  topups     : Nat
  cls        : ChestClass
  flightLong : Bool
  deriving DecidableEq, Repr

/-- Body of CHEST-ENTERED (R129). -/
structure ChestEnteredBody where
  inv        : Nat
  version    : Nat
  ordinal    : Nat
  head       : Nat
  token      : Nat
  gross      : Nat
  tare       : Nat
  net        : Nat
  short      : Bool
  topups     : Nat
  flightLong : Bool
  deriving DecidableEq, Repr

/-- Body of CHEST-REFUSED (R128). -/
structure RefusedBody where
  inv    : Nat
  token  : Nat
  reason : RefuseReason
  deriving DecidableEq, Repr

/-- Body of FILL-VOID (R118). -/
structure VoidBody where
  inv   : Nat
  token : Nat
  net   : Nat
  deriving DecidableEq, Repr

/-- Body of MARK-DONE (R153). -/
structure MarkDoneBody where
  inv     : Nat
  ordinal : Nat
  how     : How
  marker  : Nat
  deriving DecidableEq, Repr

/-- Body of MARK-ENTERED (R133). -/
structure MarkEnteredBody where
  inv     : Nat
  version : Nat
  ordinal : Nat
  how     : How
  marker  : Nat
  deriving DecidableEq, Repr

/-- Body of ADOPT (R43). -/
structure AdoptBody where
  inv      : Nat
  oldOwner : Nat
  version  : Nat
  forced   : Bool
  deriving DecidableEq, Repr

/-- Body of LEASE-ASK (R90); the invoice is 0 for FILL. -/
structure LeaseAskBody where
  purpose : Purpose
  token   : Nat
  inv     : Nat
  deriving DecidableEq, Repr

/-- Body of LEASE-GRANT (R92). -/
structure LeaseGrantBody where
  slot  : Slot
  inv   : Nat
  lease : Nat
  deriving DecidableEq, Repr

/-- Body of LEASE-END (R96). -/
structure LeaseEndBody where
  lease  : Nat
  reason : LeaseEndReason
  deriving DecidableEq, Repr

/-- Body of NOTED (R188). -/
structure NotedBody where
  kind   : FrameKind
  number : Nat
  result : NotedResult
  deriving DecidableEq, Repr

/-- A frame's kind and body. -/
inductive Msg where
  | join (b : JoinBody)
  | presence (b : PresenceBody)
  | claim (b : ClaimBody)
  | consent (b : ConsentBody)
  | object (b : ObjectBody)
  | withdraw (inv : Nat)
  | header (b : HeaderBody)
  | recordBlock (b : BlockBody)
  | recordAsk (inv : Nat)
  | chestDone (b : ChestDoneBody)
  | chestEntered (b : ChestEnteredBody)
  | chestRefused (b : RefusedBody)
  | fillVoid (b : VoidBody)
  | markDone (b : MarkDoneBody)
  | markEntered (b : MarkEnteredBody)
  | adopt (b : AdoptBody)
  | sheetTaken (inv : Nat)
  | leaseAsk (b : LeaseAskBody)
  | leaseGrant (b : LeaseGrantBody)
  | leaseDone (lease : Nat)
  | leaseEnd (b : LeaseEndBody)
  | leaseCancel (token : Nat)
  | hold (lane : Nat)
  | go (lane : Nat)
  | noted (b : NotedBody)
  deriving DecidableEq, Repr

/-- Destination (0 for all stations) and source of a frame (R2). -/
structure Env where
  dst : Nat
  src : Nat
  deriving DecidableEq, Repr

/-- Kind and identity of a confirmed exchange (R13, R15). -/
inductive ExKey where
  | chestDone (inv token : Nat)
  | fillVoid (inv token : Nat)
  | markDone (inv ordinal : Nat)
  | leaseAsk (token : Nat)
  | leaseGrant (lease : Nat)
  | leaseDone (lease : Nat)
  | leaseCancel (token : Nat)
  | sheetTaken (inv : Nat)
  deriving DecidableEq, Repr

/-- A port request as it arrives (R173, R174): its check byte is wrong; its length is not one the kind allows; a code
of its body is not in its list where its row has no operand for it; or it carries operands. -/
inductive Req (α : Type) where
  | badCheck
  | badLength
  | badValue
  | good (a : α)
  deriving DecidableEq, Repr

/-- Operands of READ INVOICE (R175). -/
structure InvoiceRead where
  inv   : Nat
  first : Nat
  count : Nat
  deriving DecidableEq, Repr

/-- Operands of READ CONFIG MEMORY (R183). -/
structure MemoryRead where
  offset : Nat
  count  : Nat
  deriving DecidableEq, Repr

/-- Operands of WRITE CONFIG MEMORY (R183). -/
structure MemoryWrite where
  offset : Nat
  data   : List Byte
  deriving DecidableEq, Repr

/-- Operands of PLACE ORDER (R65); each component is a bin and a target. -/
structure OrderBody where
  order  : Nat
  grade  : Nat
  garden : Option Text
  mix    : Option Nat
  comps  : List (Nat × Nat)
  deriving DecidableEq, Repr

/-- Operands of CARRY-OVER SET (R84). -/
structure CarrySet where
  grade  : Nat
  weight : Nat
  deriving DecidableEq, Repr

/-- Operands of the chest form of HAND (R152). -/
structure ChestName where
  inv     : Nat
  ordinal : Nat
  deriving DecidableEq, Repr

/-- The commands of the block, one constructor for each row of spec/opcode_table.json. -/
inductive Instr where
  | powerOn
  | resetPinLow
  | resetPinRelease (heldMs : Nat)
  | configLoadEnd (answers : Bool)
  | joinRetryDelayExpiry
  | joinPeriodEnd
  | interframeGap
  | backoffSlot
  | collision
  | frameComplete
  | invalidFrame (bytes : List Byte)
  | join (e : Env) (b : JoinRead)
  | presence (e : Env) (b : PresenceRead)
  | claim (e : Env) (b : Option ClaimBody)
  | consent (e : Env) (b : Option ConsentBody)
  | object (e : Env) (b : Option ObjectBody)
  | withdraw (e : Env) (b : Option Nat)
  | header (e : Env) (b : Option HeaderBody)
  | recordBlock (e : Env) (b : Option BlockBody)
  | recordAsk (e : Env) (b : Option Nat)
  | chestDone (e : Env) (b : Option ChestDoneBody)
  | chestEntered (e : Env) (b : Option ChestEnteredBody)
  | chestRefused (e : Env) (b : Option RefusedBody)
  | fillVoid (e : Env) (b : Option VoidBody)
  | markDone (e : Env) (b : Option MarkDoneBody)
  | markEntered (e : Env) (b : Option MarkEnteredBody)
  | adopt (e : Env) (b : Option AdoptBody)
  | sheetTaken (e : Env) (b : Option Nat)
  | leaseAsk (e : Env) (b : Option LeaseAskBody)
  | leaseGrant (e : Env) (b : Option LeaseGrantBody)
  | leaseDone (e : Env) (b : Option Nat)
  | leaseEnd (e : Env) (b : Option LeaseEndBody)
  | leaseCancel (e : Env) (b : Option Nat)
  | hold (e : Env) (b : Option Nat)
  | go (e : Env) (b : Option Nat)
  | noted (e : Env) (b : Option NotedBody)
  | confirmTimerExpiry (k : ExKey)
  | presenceTimerExpiry
  | silenceTimerExpiry (station : Nat)
  | joinWatchExpiry (station : Nat)
  | claimWindowExpiry
  | claimRetryDelayExpiry
  | claimStaleTimerExpiry (inv : Nat)
  | versionedResendDelayExpiry (inv : Nat)
  | askTimerExpiry (inv : Nat)
  | rebuildTimerExpiry (inv : Nat)
  | closedTimerExpiry (inv : Nat)
  | adoptionDelayExpiry (inv : Nat)
  | settleTimerExpiry (inv : Nat)
  | sample (word : BitVec 32) (bits : Nat) (flightMs : Nat)
  | lossTimerExpiry
  | starveTimerExpiry
  | stallTimerExpiry
  | drumTurnPulse
  | chestPresenceChange (present : Bool)
  | holdLapseTimerExpiry
  | headSettleTimerExpiry
  | laneHoldTimerExpiry (lane : Nat)
  | laneEyeArrival (lane : Nat)
  | compositionComplete
  | strokeEnd
  | strokeTimerExpiry
  | portRequestAborted (bytes : List Byte)
  | unknownRequest (kind : Byte) (checkGood : Bool)
  | readStatus (r : Req Unit)
  | readReport (r : Req Unit)
  | readInvoice (r : Req InvoiceRead)
  | readStationTable (r : Req Unit)
  | readTallies (r : Req Unit)
  | restartWarm (r : Req Unit)
  | readConfigMemory (r : Req MemoryRead)
  | configReadTransferEnd
  | writeConfigMemory (r : Req MemoryWrite)
  | configWriteTransferEnd
  | forceAdopt (r : Req Nat)
  | placeOrder (r : Req OrderBody)
  | cancel (r : Req Unit)
  | resume (r : Req Unit)
  | redraw (r : Req Nat)
  | endBatch (r : Req Unit)
  | confirmEmpty (r : Req Unit)
  | carryOverSet (r : Req CarrySet)
  | start (r : Req Unit)
  | stop (r : Req Unit)
  | clearRetry (r : Req Unit)
  | clearVoid (r : Req Unit)
  | resetHead (r : Req Unit)
  | zero (r : Req Unit)
  | clearLane (r : Req Nat)
  | reprint (r : Req Nat)
  | handLane (r : Req Nat)
  | handChest (r : Req ChestName)
  | readPlate (r : Req Nat)
  | openSheet (r : Req (Option Nat))
  | readSheetPart (r : Req Nat)
  | sheetDone (r : Req Unit)
  | noise
  deriving DecidableEq, Repr

end Sys2Proof
end

