-- ==== Sys2Proof/Decode.lean ====
section
/-! DEFINITION. No row of spec/opcode_table.json gives bits ("fields" is empty in all 97), so no word spells a
command. The byte forms of frames and requests are in Machine/Formats.lean. -/

namespace Sys2Proof

/-- The command that a word of `nbits` bits spells by the table's bits: none, the table gives no bits. -/
def decodeTableWord (_nbits _w : Nat) : Option Instr := none

end Sys2Proof
end

