-- ==== Sys2Proof/Config.lean ====
section
/-! DEFINITION. The fixed numbers of the part (times in ms, capacities) and the free values: constants with no body,
which nothing in Lean can evaluate. -/

namespace Sys2Proof.Config

/-- The presence interval, 200 ms (R18). -/
def presenceInterval : Nat := 200
/-- The confirm timer, 80 ms (R13). -/
def confirmTime : Nat := 80
/-- The claim window, 400 ms (R30). -/
def claimWindow : Nat := 400
/-- The delay before a stalled claim is tried again, 2 s (R33). -/
def claimRetry : Nat := 2000
/-- The claim stale timer, 1.2 s (R34). -/
def claimStale : Nat := 1200
/-- The ask timer, 500 ms (R36). -/
def askTime : Nat := 500
/-- The rebuild timer, 500 ms (R39). -/
def rebuildTime : Nat := 500
/-- The closed timer, 10 s (R40). -/
def closedTime : Nat := 10000
/-- The settle timer of an adoption, 500 ms (R43). -/
def adoptSettle : Nat := 500
/-- The loss timer of the weighing front end, 100 ms (R56). -/
def lossTime : Nat := 100
/-- The starve timer, 6 s (R67). -/
def starveTime : Nat := 6000
/-- The stall timer, 10 s (R73). -/
def stallTime : Nat := 10000
/-- The HOLD lapse timer, 600 ms (R107). -/
def holdLapse : Nat := 600
/-- The settle timer of the head, 4 s (R111). -/
def headSettle : Nat := 4000
/-- A flight above this many ms is long (R112). -/
def flightLong : Nat := 1500
/-- The hold timer of a lane, 200 ms (R139). -/
def laneHold : Nat := 200
/-- The stroke timer, 3 s (R149). -/
def strokeTime : Nat := 3000
/-- A reset pin held low at least this many ms gives a cold start (R179). -/
def coldResetMs : Nat := 10

/-- Places of the transmit queue (R11). -/
def txPlaces : Nat := 16
/-- A reply frame is taken while the queue holds fewer than this many frames (R11). -/
def replyPlaces : Nat := 12
/-- Places of the exchange table (R13). -/
def exchangePlaces : Nat := 8
/-- Entries of the invoice table (R24). -/
def tableEntries : Nat := 16
/-- Chests of an invoice (R26). -/
def maxChests : Nat := 120
/-- Void records of an invoice (R26). -/
def maxVoids : Nat := 16
/-- The largest batch weight (R25). -/
def maxBatch : Nat := 500000
/-- The last version (R35). -/
def maxVersion : Nat := 65535
/-- Places of the retired list (R49). -/
def retiredPlaces : Nat := 4
/-- Entries of a lane queue (R139). -/
def lanePlaces : Nat := 6
/-- Numbers of the gap list (R164). -/
def gapPlaces : Nat := 16
/-- Entries of the report queue (R177). -/
def reportPlaces : Nat := 16
/-- Bytes of the configuration memory (R180). -/
def memoryBytes : Nat := 2048

/-- FREE VALUE (log 8): the number drawn for a backoff, for the n-th draw of the run (R8 gives only its range). -/
opaque backoffDraw : Nat → Nat
/-- FREE VALUE (log 9): how many bytes of a write had landed when a start stopped it (R183 gives only the range). -/
opaque bytesWritten : Nat → Nat
/-- FREE VALUE (log 20): the version of the frame that entered the ordinal of the invoice, at an owner that never
held it (R128 asks for it and states no value there). -/
opaque entryVersion : Nat → Nat → Nat
/-- FREE VALUE (log 20): the same for the frame that marked the ordinal (R133). -/
opaque markVersion : Nat → Nat → Nat
/-- FREE VALUE (log 27): the net of a void when no reading ever carried a weight (R118), for the chest's token. -/
opaque voidNet : Nat → Nat
/-- FREE VALUE (log 37): the lines of a plate read while it is being composed (R156), for the n-th free value. -/
opaque composingLines : Nat → List Text
/-- FREE VALUE (log 31): what a flag byte other than 0 and 1 is read as (R187). -/
opaque flagReads : Byte → Bool
/-- FREE VALUE (log 32): the kind carried by the answer to a request aborted before its kind byte (R173). -/
opaque abortedKind : Nat → Byte
/-- FREE VALUE (log 110): the weights and the layout, by their place in the grade record, that a grade index above 11
stands for (R103, R187 and R190 give none). -/
opaque strayGrade : Nat → Nat → Nat
/-- FREE VALUE (log 110): the grade name of such an index (R147). -/
opaque strayName : Nat → Text

end Sys2Proof.Config
end

