-- ==== Sys2Proof/Machine/State.lean ====
section
/-! DEFINITION. Everything the manual gives one IW440, as plain data, and the state right after reset. Each structure
names the rule that gives it. A timer holds the time it was started with; its expiry is a command (log 4). -/

namespace Sys2Proof.Machine

/-- A timer: stopped, or running since it was last started for `ms` milliseconds (log 4). -/
inductive Timer where
  | stopped
  | running (ms : Nat)
  deriving DecidableEq, Repr

/-- The blocks of the part that take events (00_scope.md). The weighing front end and the port act inside commands. -/
inductive Block where
  | start | inv | blend | arb | head | mark | paper
  deriving DecidableEq, Repr

/-! ## Station port: reports and answers (10_station_port_and_start.md) -/

/-- Report kinds (R178), in the order of their codes (R189). -/
inductive ReportKind where
  | start | configFault | duplicateNumber | peerPresent | peerAbsent | claimFirm | claimStalled | shortfall | mixStall
  | batchEnded | leaseLost | chestEntered | headFault | laneStray | laneJam | laneOverflow | markUnconfirmed | adopted
  | sheetReady | tableOverflow | lineCongested | exchangeFailed | overflow
  deriving DecidableEq, Repr

/-- Cause codes of a report, in the order of R189's list. -/
inductive CauseCode where
  | coldPower | coldPin | warmPin | warmRequest
  | signature | check | value | layout
  | tableFull | seasonEnd | noConsent | sendFailed
  | exhausted | stopped | cancelled | ownerLost | restart
  | tareRange | unstable | overLimit | underLimit | overload | scaleLost | chestLost | send | double
  | ended | shortTaken | unknown | voidFull | listFull
  | early | unexpected | jam | noRecord | kept | lost | notHeld | full | offline
  | noConfirm | budget | queueFull
  deriving DecidableEq, Repr

/-- The cause subject of a report (R177, R189). -/
inductive Cause where
  | absent
  | code (c : CauseCode)
  | number (n : Nat)
  deriving DecidableEq, Repr

/-- One report entry (R177). -/
structure Report where
  kind    : ReportKind
  inv     : Option Nat
  ordinal : Option Nat
  station : Option Nat
  cause   : Cause
  deriving DecidableEq, Repr

/-- The answers of the port (R174). -/
inductive PortAnswer where
  | ok | busy | unknown | role | state | range | check
  deriving DecidableEq, Repr

/-- What the answer place holds: the kind answered, the answer and the body (R173, R189). -/
structure Answer where
  kind : Byte
  code : PortAnswer
  body : List Byte
  deriving DecidableEq, Repr

/-- A request whose memory transfer runs (R173, R183). -/
inductive Transfer where
  | read (offset count : Nat)
  | write (offset : Nat) (data : List Byte)
  deriving DecidableEq, Repr

structure Port where
  reports  : List Report
  answer   : Option Answer
  handling : Option Transfer
  deriving DecidableEq, Repr

/-! ## Line unit (01_stations_on_the_shed_line.md) -/

/-- Condition of the line (R1). -/
inductive LineCond where
  | busy | idle
  deriving DecidableEq, Repr

/-- What a queued frame is to the block that queued it, so that the block can be told its fate (R10, R12). -/
inductive Tag where
  | join
  | presence
  | claim (inv : Nat)
  | withdraw
  | versioned (inv version : Nat)
  | repeated (inv version : Nat)
  | adopt (inv : Nat)
  | dump (inv : Nat)
  | ask (inv : Nat)
  | exch (id : Nat)
  | plain
  deriving DecidableEq, Repr

/-- A frame of the transmit queue (R11); `cancel` marks a removal that waits for the attempt to end (R12). -/
structure TxFrame where
  dst    : Nat
  msg    : Msg
  reply  : Bool
  tag    : Tag
  cancel : Bool
  deriving DecidableEq, Repr

/-- A confirmed exchange in flight (R13); `id` tells a replaced exchange's copy from the new one's. -/
structure Exchange where
  id      : Nat
  key     : ExKey
  msg     : Msg
  dst     : Nat
  peer    : Nat
  resends : Nat
  timer   : Timer
  patient : Bool
  deriving DecidableEq, Repr

/-- States of a station-table entry (chapter 1.7). -/
inductive PeerState where
  | unknown | joining | present | absent
  deriving DecidableEq, Repr

/-- One station-table entry (chapter 1.7). -/
structure Peer where
  state   : PeerState
  roles   : Option Roles
  blender : Option Nat
  lane1   : Option Nat
  lane2   : Option Nat
  mark    : Option Nat
  silence : Timer
  watch   : Timer
  deriving DecidableEq, Repr

structure Line where
  cond       : LineCond
  gap        : Bool
  txq        : List TxFrame
  sending    : Bool
  attempts   : Nat
  backoff    : Option Nat
  exchanges  : List Exchange
  nextEx     : Nat
  tallyShort : Nat
  tallyLong  : Nat
  tallyCheck : Nat
  tallyForm  : Nat
  presence   : Timer
  table      : Vector Peer 24
  deriving DecidableEq, Repr

/-! ## Invoice unit (02 and 07) -/

/-- The content of an invoice that frames change: header, chest list, void list (R25, R26). -/
structure Rec where
  hdr    : Header
  chests : List Chest
  voids  : List VoidRec
  deriving DecidableEq, Repr

/-- Copy state (R27). -/
inductive CopyState where
  | complete | stale | rebuilding
  deriving DecidableEq, Repr

/-- One fill list entry (R125). -/
structure Fill where
  head   : Nat
  token  : Nat
  leases : Nat
  lost   : Bool
  deriving DecidableEq, Repr

/-- A short slot that is not EMPTY: HELD, or ENTERING (R125). -/
structure ShortSlot where
  entering   : Bool
  head       : Nat
  token      : Nat
  gross      : Nat
  tare       : Nat
  net        : Nat
  topups     : Nat
  flightLong : Bool
  deriving DecidableEq, Repr

/-- A dump in progress at the owner: its version and the blocks still to be queued (R38). -/
structure Dump where
  version : Nat
  rest    : List (List Item)
  deriving DecidableEq, Repr

/-- What the owner keeps for an invoice it owns (R27, R35, R38, R47, R49, R125). `cancelled` says that its claim was cancelled
when firm, before its opening HEADER completed (R81); `conflicts` are the stations whose frames at the issued version the end
of the join period settles, in order of arrival, each once (R47). -/
structure OwnerRec where
  issued      : Nat
  view        : Rec
  fills       : List Fill
  short       : Option ShortSlot
  entryVer    : List (Nat × Nat)
  markVer     : List (Nat × Nat)
  settle      : Timer
  ahead       : List (Nat × Msg)
  resend      : List TxFrame
  resendDelay : Timer
  dump        : Option Dump
  retiring    : Bool
  cancelled   : Bool
  conflicts   : List Nat
  deriving DecidableEq, Repr

/-- A rebuild from a dump (R39); `wasClosed` for the closure notice of R159. -/
structure Rebuild where
  version   : Nat
  count     : Nat
  got       : Nat
  wasClosed : Bool
  deriving DecidableEq, Repr

/-- One entry of the invoice table (R24 to R27). -/
structure Entry where
  data    : Rec
  copy    : CopyState
  orphan  : Bool
  closedT : Timer
  askT    : Timer
  rebuildT : Timer
  adoptT  : Timer
  staleT  : Timer
  rebuild : Option Rebuild
  own     : Option OwnerRec
  deriving DecidableEq, Repr

/-- One place of the retired list, with the frame that is repeated (R49). -/
structure Retired where
  inv     : Nat
  version : Nat
  frame   : HeaderBody
  deriving DecidableEq, Repr

/-- The blend sequencer's request for a number (R29). -/
structure ClaimReq where
  order   : Nat
  grade   : Nat
  garden  : Text
  charged : Nat
  deriving DecidableEq, Repr

/-- The points of the station's own claim (R29 to R33). `set` is the consent set, `second` the repeated CLAIM. -/
inductive ClaimPhase where
  | idle
  | waitActive
  | waitFree
  | seasonEnd
  | queued (inv : Nat) (second : Bool) (set : List Nat)
  | window (inv : Nat) (second : Bool) (set : List Nat)
  | retry
  | firm (inv : Nat)
  deriving DecidableEq, Repr

structure Inv where
  table        : List Entry
  mark         : Nat
  retired      : List Retired
  askOther     : List Nat
  req          : Option ClaimReq
  phase        : ClaimPhase
  claimWindow  : Timer
  claimRetry   : Timer
  withdrawOwed : List Nat
  deriving DecidableEq, Repr

/-! ## Weighing front end (03) -/

/-- The front end (chapter 3 table). Span, overload count and band are in the configuration in force. -/
structure FrontEnd where
  zero     : Int
  window   : List Int
  avg      : Option Int
  weight   : Option Int
  count    : Nat
  ref      : Option Int
  stable   : Bool
  overload : Bool
  lost     : Bool
  loss     : Timer
  tracking : Bool
  deriving DecidableEq, Repr

/-- A reading handed to the front end's user (R57). -/
structure Reading where
  weight         : Option Int
  stable         : Bool
  becameStable   : Bool
  becameUnstable : Bool
  overload       : Bool
  overloadMark   : Bool
  lost           : Bool
  lostMark       : Bool
  zeroTaken      : Bool
  deriving DecidableEq, Repr

/-! ## Blend sequencer (04) -/

/-- Blender states (section 4.2). -/
inductive BlendState where
  | idle | charging | mixing | waitClaim | discharging | held | blocked
  deriving DecidableEq, Repr

/-- Held cause of the blender (R64). -/
inductive BlendHeld where
  | shortfall | mixStall | restart
  deriving DecidableEq, Repr

/-- Cause of a pending stop (R64). -/
inductive StopCause where
  | stopped | ownerLost
  deriving DecidableEq, Repr

/-- The claim as the order holds it (R64). -/
inductive OrderClaim where
  | none | asked | firm
  deriving DecidableEq, Repr

/-- State of a component (R64). -/
inductive CompState where
  | pending | drawing | done | shortfall
  deriving DecidableEq, Repr

/-- One component (R64). -/
structure Comp where
  bin    : Nat
  target : Nat
  drawn  : Nat
  state  : CompState
  start  : Option Int
  peak   : Int
  settle : Bool
  deriving DecidableEq, Repr

/-- Stage of the present draw: waiting for a start weight, waiting to pour again from a kept start weight, pouring,
paused, settling (R67 to R70). -/
inductive Draw where
  | waitStart | waitAgain | pouring | paused | settling
  deriving DecidableEq, Repr

/-- The blend order (R64). -/
structure Order where
  number  : Nat
  grade   : Nat
  garden  : Text
  mix     : Nat
  comps   : List Comp
  cur     : Option Nat
  charged : Option Nat
  turns   : Nat
  claim   : OrderClaim
  batch   : Option Nat
  draw    : Draw
  deriving DecidableEq, Repr

/-- One carry-over entry (R83). -/
structure Book where
  weight : Nat
  count  : Nat
  deriving DecidableEq, Repr

structure Blend where
  state  : BlendState
  held   : Option BlendHeld
  stop   : Option StopCause
  order  : Option Order
  book   : Vector Book 12
  gate   : Option Nat
  starve : Timer
  stall  : Timer
  last   : Option Reading
  deriving DecidableEq, Repr

/-! ## Lease arbiter (05) -/

/-- A lease in a slot (R88). -/
structure Lease where
  head    : Nat
  token   : Nat
  purpose : Purpose
  inv     : Nat
  number  : Nat
  deriving DecidableEq, Repr

/-- A lease queue entry (R88). -/
structure Ask where
  head    : Nat
  purpose : Purpose
  token   : Nat
  deriving DecidableEq, Repr

structure Arb where
  openFlag : Bool
  batch    : Option Nat
  current  : Option Lease
  next     : Option Lease
  queue    : List Ask
  counter  : Nat
  gate     : Bool
  diverter : Option Nat
  deriving DecidableEq, Repr

/-! ## Head controller (06) -/

/-- The thirteen head states (R102). -/
inductive HeadState where
  | stopped | empty | taring | waiting | fast | dribble | settling | topupWait | reported | releasing | voiding | held
  | locked
  deriving DecidableEq, Repr

/-- Lease state of the head (R102). -/
inductive LeaseState where
  | none | asked | next | current | topupAsked
  deriving DecidableEq, Repr

/-- Fault cause of the head (R120). -/
inductive HeadFault where
  | tareRange | unstable | overLimit | underLimit | overload | scaleLost | chestLost | refused | send | restart
  deriving DecidableEq, Repr

/-- The frame a head in HELD(SEND) waits to send again (R121). -/
inductive SendFrame where
  | askFill | askTopup | done (lease : Nat) | chestDone | fillVoid
  deriving DecidableEq, Repr

/-- The chest in progress (R102); `purpose` is that of its CURRENT lease (R111), `voided` the net of the FILL-VOID opened
for it, which every repeat carries (R119, R121, R123). -/
structure ChestNow where
  token      : Nat
  inv        : Option Nat
  tare       : Nat
  gross      : Option Nat
  net        : Option Nat
  topups     : Nat
  limit      : Nat
  starved    : Bool
  flight     : Option Nat
  flightLong : Bool
  cls        : Option ChestClass
  lease      : Option Nat
  purpose    : Purpose
  voided     : Option Nat
  deriving DecidableEq, Repr

structure Head where
  state       : HeadState
  lease       : LeaseState
  cause       : Option HeadFault
  chest       : Option ChestNow
  hold        : Bool
  lapse       : Timer
  flight      : Timer
  settle      : Timer
  allowance   : Nat
  refGrade    : Nat
  lastToken   : Nat
  sendFrame   : Option SendFrame
  refusedVoid : Bool
  waitOwner   : Bool
  waitBlender : Bool
  waitJoin    : Bool
  voidOk      : Bool
  emptied     : Bool
  owedDone    : List Nat
  last        : Option Reading
  lastWeight  : Option Int
  deriving DecidableEq, Repr

/-! ## Marker (08) -/

/-- State of a lane queue entry (R139). -/
inductive LaneState where
  | queued | printing | printed | fault
  deriving DecidableEq, Repr

/-- Fault cause of a lane entry (R139). -/
inductive LaneFault where
  | jam | noRecord | layout | restart
  deriving DecidableEq, Repr

/-- Mark answer of a lane entry (R139). -/
inductive MarkAnswer where
  | none | notHeld | full
  deriving DecidableEq, Repr

/-- What a report or taking without an exchange waits for (R153, R170): nothing (it stands under MARK_UNCONFIRMED or
has an exchange), an owner, the end of the join period. -/
inductive Waits where
  | nothing | owner | endOfJoin
  deriving DecidableEq, Repr

/-- A lane queue entry (R139); `byMark` says that the entered-elsewhere flag was set by a MARK-ENTERED. -/
structure LaneEntry where
  inv       : Nat
  ordinal   : Nat
  state     : LaneState
  source    : Nat
  cause     : Option LaneFault
  how       : Option How
  answer    : MarkAnswer
  elsewhere : Bool
  byMark    : Bool
  waits     : Waits
  deriving DecidableEq, Repr

/-- The overflow record's chest (R142). -/
structure Overflow where
  inv     : Nat
  ordinal : Nat
  source  : Nat
  deriving DecidableEq, Repr

/-- A lane record (R139). Its head is in the configuration in force; count, JAM and lane stop are computed. -/
structure Lane where
  queue       : List LaneEntry
  overflow    : Option Overflow
  done        : List (Nat × Nat)
  holdFlag    : Bool
  holdT       : Timer
  stray       : Bool
  laneOver    : Bool
  unconfirmed : Bool
  deriving DecidableEq, Repr

/-- A job of the arrival queue or of a plate: lane, invoice, ordinal (R144, R148). -/
structure Job where
  lane    : Nat
  inv     : Nat
  ordinal : Nat
  deriving DecidableEq, Repr

/-- Condition of a plate (R148). -/
inductive PlateCond where
  | empty | composing | ready | inUse | spent
  deriving DecidableEq, Repr

/-- A plate (R148); `building` is the text read at the start of its composition. -/
structure Plate where
  lines    : List Text
  job      : Option Job
  cond     : PlateCond
  building : List Text
  deriving DecidableEq, Repr

/-- The two plates' names (R148). -/
inductive PlateName where
  | a | b
  deriving DecidableEq, Repr

/-- State of the stencil head (R149). -/
inductive StencilHead where
  | idle | stroking | held
  deriving DecidableEq, Repr

/-- A mark report opened with no entry (R152, R154). -/
structure LooseReport where
  inv     : Nat
  ordinal : Nat
  source  : Option Nat
  waits   : Waits
  deriving DecidableEq, Repr

/-- The marker (08). `link` holds the lines last sent over the stencil head link (R149, R151). -/
structure Marker where
  lane1    : Lane
  lane2    : Lane
  arrivals : List Job
  plateA   : Plate
  plateB   : Plate
  compose  : PlateName
  head     : StencilHead
  stroke   : Timer
  link     : List Text
  loose    : List LooseReport
  deriving DecidableEq, Repr

/-! ## Paper unit (09) -/

/-- A paper queue entry or a waiting entry (R161, R162). -/
structure PaperEntry where
  inv : Nat
  seq : Nat
  deriving DecidableEq, Repr

/-- Cause of the window's latest closing (R165). -/
inductive WindowCause where
  | none | done | replaced | changed | takenElsewhere | retired | restart
  deriving DecidableEq, Repr

/-- The sheet window (R165): `shown` holds invoice and version while it is OPEN. -/
structure Window where
  shown : Option (Nat × Nat)
  cause : WindowCause
  deriving DecidableEq, Repr

/-- A taking of the taking set (R169). -/
structure Taking where
  inv   : Nat
  waits : Waits
  deriving DecidableEq, Repr

/-- The paper unit (chapter 9); `found` is the station that the decision in force finds acting (R160, R172). -/
structure Paper where
  acting  : Bool
  found   : Option Nat
  queue   : List PaperEntry
  waiting : List PaperEntry
  nextSeq : Nat
  gaps    : List Nat
  gapOver : Bool
  window  : Window
  taking  : List Taking
  deriving DecidableEq, Repr

/-! ## Start unit and configuration (10, 11) -/

/-- Station state (chapter 10); OFFLINE for a duplicate number keeps which state it left (R20). -/
inductive StationState where
  | loading | joining | active | offlineConfig | offlineDup (wasActive : Bool)
  deriving DecidableEq, Repr

/-- Start kinds (R179). -/
inductive StartKind where
  | coldPower | coldPin | warmPin | warmRequest
  deriving DecidableEq, Repr

/-- Configuration fault (R180). -/
inductive CfgFault where
  | signature | check | value (offset : Nat)
  deriving DecidableEq, Repr

structure Start where
  state      : StationState
  resetLow   : Bool
  kind       : StartKind
  isCold     : Bool
  fault      : Option CfgFault
  rejected   : List Nat
  warmCount  : Nat
  converted  : Bool
  memChanged : Bool
  joinT      : Timer
  retryT     : Timer
  deriving DecidableEq, Repr

/-- Fields of a layout (R146), in the order of their codes (R190). -/
inductive FieldName where
  | garden | grade | invoice | season | batch | chest | net | gross | tare | station
  deriving DecidableEq, Repr

/-- An item of a layout line (R146). -/
inductive LayoutItem where
  | lit (t : Text)
  | field (name : FieldName) (width : Nat) (zeroFill ovr : Bool)
  deriving DecidableEq, Repr

/-- One grade record (R190): weighing values, name and layout number. -/
structure Grade where
  target   : Nat
  underTol : Nat
  overTol  : Nat
  tareNom  : Nat
  tareBand : Nat
  shortMin : Nat
  name     : Text
  layout   : Nat
  deriving DecidableEq, Repr

/-- The configuration in force (R190). -/
structure Cfg where
  number    : Nat
  roles     : Roles
  retryK    : Nat
  scale     : Nat
  first     : Nat
  last      : Nat
  season    : Text
  garden    : Text
  zero      : Int
  span      : Nat
  overload  : Nat
  band      : Nat
  flight    : Nat
  drumEmpty : Nat
  mixTurns  : Nat
  chute     : List (Nat × Nat)
  blender   : Nat
  defGrade  : Nat
  headEmpty : Nat
  dribble   : Nat
  allowance : Nat
  topups    : Nat
  lane1     : Nat
  lane2     : Option Nat
  grades    : List Grade
  layouts   : List (List (List LayoutItem))
  deriving DecidableEq, Repr

/-- The machine. `blockChoice` and `draws` are the model's own (logs 6 and 8); `pending` is the queue of commands. -/
structure State where
  line        : Line
  inv         : Inv
  fe          : FrontEnd
  blend       : Blend
  arb         : Arb
  head        : Head
  mark        : Marker
  paper       : Paper
  port        : Port
  start       : Start
  cfg         : Cfg
  cfgMem      : List Host.Cell
  presence    : Bool
  blockChoice : Nat
  draws       : Nat
  pending     : List Instr
  deriving DecidableEq, Repr

/-- No command stops the machine with a fault: what the manual calls a fault (R120, R181) is state. The type is
closed and empty. -/
inductive Fault where
  deriving DecidableEq, Repr

/-- Why a command has no meaning. -/
inductive Refusal where
  /-- Raised by an arm of `exec` whose command has no meaning yet; safe. No arm raises it. -/
  | notModelled (mnemonic : String)
  deriving DecidableEq, Repr

/-! ## The cleared blocks and the state after reset -/

/-- A station-table entry after cold start (R23). -/
def Peer.cold : Peer :=
  { state := .unknown, roles := none, blender := none, lane1 := none, lane2 := none, mark := none,
    silence := .stopped, watch := .stopped }

/-- The line unit after cold start (R4, R13, R23); the line's condition is DESIGN CHOICE, log 40. -/
def Line.cold : Line :=
  { cond := .busy, gap := false, txq := [], sending := false, attempts := 0, backoff := none, exchanges := [],
    nextEx := 0, tallyShort := 0, tallyLong := 0, tallyCheck := 0, tallyForm := 0, presence := .stopped,
    table := Vector.replicate 24 Peer.cold }

/-- The invoice unit after cold start (R50), before the configuration gives the season mark (log 1). -/
def Inv.cold : Inv :=
  { table := [], mark := 0, retired := [], askOther := [], req := none, phase := .idle, claimWindow := .stopped,
    claimRetry := .stopped, withdrawOwed := [] }

/-- The front end after cold start (R61), before the configuration gives the zero count (log 1). -/
def FrontEnd.cold : FrontEnd :=
  { zero := 0, window := [], avg := none, weight := none, count := 0, ref := none, stable := false,
    overload := false, lost := false, loss := .stopped, tracking := false }

/-- The blend sequencer after cold start (R86). -/
def Blend.cold : Blend :=
  { state := .idle, held := none, stop := none, order := none, book := Vector.replicate 12 { weight := 0, count := 0 },
    gate := none, starve := .stopped, stall := .stopped, last := none }

/-- The lease arbiter after cold start (R88). -/
def Arb.cold : Arb :=
  { openFlag := false, batch := none, current := none, next := none, queue := [], counter := 255, gate := false,
    diverter := none }

/-- The head controller after cold start (R123), before the configuration gives allowance and grade (log 1). -/
def Head.cold : Head :=
  { state := .stopped, lease := .none, cause := none, chest := none, hold := false, lapse := .stopped,
    flight := .stopped, settle := .stopped, allowance := 0, refGrade := 0, lastToken := 255, sendFrame := none,
    refusedVoid := false, waitOwner := false, waitBlender := false, waitJoin := false, voidOk := false,
    emptied := false, owedDone := [], last := none, lastWeight := none }

/-- A lane record after cold start (R139). -/
def Lane.cold : Lane :=
  { queue := [], overflow := none, done := [], holdFlag := false, holdT := .stopped, stray := false,
    laneOver := false, unconfirmed := false }

/-- An EMPTY plate (R148). -/
def Plate.cold : Plate := { lines := [], job := none, cond := .empty, building := [] }

/-- The marker after cold start (R139, R149); nothing has been sent over the stencil head link (log 40). -/
def Marker.cold : Marker :=
  { lane1 := Lane.cold, lane2 := Lane.cold, arrivals := [], plateA := Plate.cold, plateB := Plate.cold, compose := .a,
    head := .idle, stroke := .stopped, link := [], loose := [] }

/-- The paper unit after cold start (R171). -/
def Paper.cold : Paper :=
  { acting := false, found := none, queue := [], waiting := [], nextSeq := 1, gaps := [], gapOver := false,
    window := { shown := none, cause := .none }, taking := [] }

/-- The port after cold start (R186). -/
def Port.cold : Port := { reports := [], answer := none, handling := none }

/-- The start unit as a cold start of the given kind leaves it in LOADING (R179, R182). -/
def Start.cold (k : StartKind) (resetLow : Bool) : Start :=
  { state := .loading, resetLow := resetLow, kind := k, isCold := true, fault := none, rejected := [], warmCount := 0,
    converted := false, memChanged := false, joinT := .stopped, retryT := .stopped }

/-- No role. -/
def Roles.none : Roles := { blend := false, head := false, mark := false, paper := false }

/-- The configuration of a station that has loaded none: number 0, no role (R174, log 1). -/
def Cfg.none : Cfg :=
  { number := 0, roles := Roles.none, retryK := 0, scale := 0, first := 0, last := 0, season := [], garden := [],
    zero := 0, span := 0, overload := 0, band := 0, flight := 0, drumEmpty := 0, mixTurns := 0, chute := [],
    blender := 0, defGrade := 0, headEmpty := 0, dribble := 0, allowance := 0, topups := 0, lane1 := 0,
    lane2 := Option.none, grades := [], layouts := [] }

/-- The machine right after reset: what power reaching the part leaves (R179, log 1). -/
def State.reset : State :=
  { line := Line.cold, inv := Inv.cold, fe := FrontEnd.cold, blend := Blend.cold, arb := Arb.cold, head := Head.cold,
    mark := Marker.cold, paper := Paper.cold, port := Port.cold, start := Start.cold .coldPower false,
    cfg := Cfg.none, cfgMem := [], presence := false, blockChoice := 0, draws := 0, pending := [] }

end Sys2Proof.Machine
end

