-- ==== Sys2Proof/Machine/Events.lean ====
section
/-! DEFINITION. What the blocks tell one another inside one command: the events a block takes, the actions its handler
answers with. A handler is a function of the machine's state and of the event; it gives its block's new state and its
actions, so what it leaves alone is seen from its type. -/

namespace Sys2Proof

/-- The body of a JOIN whose every field is valid. -/
def JoinRead.body (b : JoinRead) : Option JoinBody :=
  match b.start, b.blender, b.lane1, b.lane2 with
  | some st, some d, some k, some l => some { roles := b.roles, start := st, blender := d, lane1 := k, lane2 := l }
  | _, _, _, _ => none

/-- The body of a PRESENCE whose every field is valid. -/
def PresenceRead.body (b : PresenceRead) : Option PresenceBody :=
  b.state.map (fun st => { roles := b.roles, state := st, mark := b.mark })

/-- A JOIN with every field valid, as received. -/
def JoinBody.read (b : JoinBody) : JoinRead :=
  { roles := b.roles, start := some b.start, blender := some b.blender, lane1 := some b.lane1, lane2 := some b.lane2 }

/-- A PRESENCE with every field valid, as received. -/
def PresenceBody.read (b : PresenceBody) : PresenceRead := { roles := b.roles, state := some b.state, mark := b.mark }

end Sys2Proof

namespace Sys2Proof.Machine

/-- How an entry of the station table came to change (R22): by a JOIN, its start kind none where that code is not valid,
and whether every field of it is valid. -/
inductive Via where
  | joinFrame (kind : Option JoinKind) (whole : Bool)
  | presenceFrame
  | other
  deriving DecidableEq, Repr

/-- How a confirmed exchange ended (R6, R13 to R16). -/
inductive ExEnd where
  | confirmed | noConfirm | sendFailed | offline | destinationAbsent | replaced
  deriving DecidableEq, Repr

/-- An event inside a command. -/
inductive Ev where
  /-- A station-table entry changed (R22). -/
  | peer (n : Nat) (old new : PeerState) (via : Via)
  /-- An accepted frame, or an own frame at its completion (R5, R10). -/
  | frame (src dst : Nat) (m : Msg) (own : Bool)
  /-- COMPLETE (R10). -/
  | complete (f : TxFrame)
  /-- SEND_FAILED (R6, R9, R11); `atOpen` says that the frame was never in the queue. -/
  | sendFailed (f : TxFrame) (atOpen : Bool)
  /-- A confirmed exchange ended; `confirm` is the confirming frame, `atOpen` says that it was never in flight. -/
  | exEnded (x : Exchange) (how : ExEnd) (confirm : Option Msg) (atOpen : Bool)
  /-- A reading, with the time since the flight timer started (R57, R112). -/
  | reading (r : Reading) (flightMs : Nat)
  | claimAsk (q : ClaimReq)
  | claimCancel
  | endInvoice (inv : Nat) (cause : EndCause) (residue : Option Nat)
  | claimFirm (inv : Nat)
  | ownerChanged (inv : Nat)
  | entryFreed (inv : Nat)
  | voidsBooked (grade total : Nat)
  | gapNumber (inv : Nat)
  | entryMade (inv : Nat)
  | closure (inv : Nat)
  | copyChanged (inv : Nat)
  | askFor (inv : Nat)
  | dischargeBegun (inv : Nat)
  | batchEnded (cause : LeaseEndReason)
  | grantNotice (l : Lease)
  | joinDone
  | endOfJoin
  | wentOffline
  /-- The chest presence input changed (R105). -/
  | presenceChanged
  /-- The configuration load of a warm start ended good: each block continues (R87, R123, R155). -/
  | loaded
  deriving DecidableEq, Repr

/-- Frames a block asks the line unit to remove (R12). -/
inductive Unsend where
  | claim (inv : Nat)
  | versionedAbove (inv version : Nat)
  | versionedAll (inv : Nat)
  | adopt (inv : Nat)
  deriving DecidableEq, Repr

/-- What a block does beside changing its own state. -/
inductive Act where
  | send (f : TxFrame)
  | unsend (u : Unsend)
  | openEx (key : ExKey) (msg : Msg) (dst peer : Nat) (patient : Bool)
  | report (r : Report)
  | post (b : Block) (e : Ev)
  | tell (e : Ev)
  | track (on : Bool)
  deriving DecidableEq, Repr

/-- A block's new state and its actions, in order. -/
structure Eff (σ : Type) where
  st   : σ
  acts : List Act

namespace Eff

/-- No action. -/
def pure {σ : Type} (x : σ) : Eff σ := { st := x, acts := [] }

/-- New state with actions. -/
def mk' {σ : Type} (x : σ) (a : List Act) : Eff σ := { st := x, acts := a }

/-- One action more. -/
def act {σ : Type} (e : Eff σ) (a : Act) : Eff σ := { e with acts := e.acts ++ [a] }

/-- Actions more. -/
def adds {σ : Type} (e : Eff σ) (a : List Act) : Eff σ := { e with acts := e.acts ++ a }

/-- What follows in the same event. -/
def andThen {σ : Type} (e : Eff σ) (f : σ → Eff σ) : Eff σ :=
  let r := f e.st
  { st := r.st, acts := e.acts ++ r.acts }

/-- `f` over each element in turn. -/
def each {σ α : Type} (f : α → σ → Eff σ) : List α → σ → Eff σ
  | [], x => pure x
  | a :: l, x => (f a x).andThen (each f l)

end Eff

/-- A job: an event waiting for its block. -/
abbrev Jobs := List (Block × Ev)

/-- The envelope a station writes round a queued frame: the block's destination and its own number as the source (R2). -/
def TxFrame.env (own : Nat) (f : TxFrame) : Env := { dst := f.dst, src := own }

/-- A job frame (R2, R11). -/
def jobFrame (dst : Nat) (m : Msg) (tag : Tag) : TxFrame :=
  { dst := dst, msg := m, reply := false, tag := tag, cancel := false }

/-- A reply frame (R2, R11). -/
def replyFrame (dst : Nat) (m : Msg) (tag : Tag) : TxFrame :=
  { dst := dst, msg := m, reply := true, tag := tag, cancel := false }

/-- A report with only the subjects named (R177). -/
def Report.of (k : ReportKind) (inv ordinal station : Option Nat) (c : Cause) : Report :=
  { kind := k, inv := inv, ordinal := ordinal, station := station, cause := c }

/-- The kind of a frame (R188). -/
def msgKind : Msg → FrameKind
  | .join _ => .join
  | .presence _ => .presence
  | .claim _ => .claim
  | .consent _ => .consent
  | .object _ => .object
  | .withdraw _ => .withdraw
  | .header _ => .header
  | .recordBlock _ => .recordBlock
  | .recordAsk _ => .recordAsk
  | .chestDone _ => .chestDone
  | .chestEntered _ => .chestEntered
  | .chestRefused _ => .chestRefused
  | .fillVoid _ => .fillVoid
  | .markDone _ => .markDone
  | .markEntered _ => .markEntered
  | .adopt _ => .adopt
  | .sheetTaken _ => .sheetTaken
  | .leaseAsk _ => .leaseAsk
  | .leaseGrant _ => .leaseGrant
  | .leaseDone _ => .leaseDone
  | .leaseEnd _ => .leaseEnd
  | .leaseCancel _ => .leaseCancel
  | .hold _ => .holdGo
  | .go _ => .holdGo
  | .noted _ => .noted

/-- A received frame as it acts on the station table (R20). -/
inductive Heard where
  | join (b : JoinRead)
  | presence (b : PresenceRead)
  | other
  deriving DecidableEq, Repr

/-- NOTED(result) for a frame of kind `k` (R188). -/
def notedMsg (k : FrameKind) (n : Nat) (r : NotedResult) : Msg := .noted { kind := k, number := n, result := r }

end Sys2Proof.Machine
end

