-- ==== Sys2Proof/Machine/Ops.lean ====
section
/-! DEFINITION. The operations the commands share: the configuration memory, the station's condition, the station
table read, the report queue, the transmit queue, the exchange table and the hand-over between blocks. -/

namespace Sys2Proof.Machine

/-! ## Configuration memory -/

namespace Memory

/-- What an unlisted byte reads as: FF, as a blank memory does (R190, log 2). -/
def blank : Byte := 255#8

/-- The byte at an address. -/
def read : List Host.Cell → Nat → Byte
  | [], _ => blank
  | (a, b) :: m, n => if a = n then b else read m n

/-- The memory with one byte written, in canonical form. -/
def write : List Host.Cell → Nat → Byte → List Host.Cell
  | [], n, v => if v = blank then [] else [(n, v)]
  | (a, b) :: m, n, v =>
      if n < a then (if v = blank then (a, b) :: m else (n, v) :: (a, b) :: m)
      else if n = a then (if v = blank then m else (n, v) :: m)
      else (a, b) :: write m n v

/-- Addresses strictly rising from `lo` on, and no entry equal to what an unlisted address reads as. -/
def wfFrom : Nat → List Host.Cell → Bool
  | _, [] => true
  | lo, (a, b) :: m => decide (lo ≤ a) && decide (b ≠ blank) && wfFrom (a + 1) m

/-- The canonical form. -/
def wf (m : List Host.Cell) : Bool := wfFrom 0 m

/-- `count` bytes from an address on. -/
def readMany (m : List Host.Cell) (a : Nat) : Nat → List Byte
  | 0 => []
  | n + 1 => read m a :: readMany m (a + 1) n

/-- Bytes written in ascending address (R183). -/
def writeMany (m : List Host.Cell) (a : Nat) : List Byte → List Host.Cell
  | [] => m
  | b :: l => writeMany (write m a b) (a + 1) l

end Memory

/-! ## The station's condition -/

/-- The blocks take events: JOINING, ACTIVE or OFFLINE for a duplicate number, and the reset pin high (R179, R181). -/
def State.working (s : State) : Bool :=
  !s.start.resetLow && match s.start.state with
    | .joining | .active | .offlineDup _ => true
    | .loading | .offlineConfig => false

/-- The station is OFFLINE for a duplicate number (R6). -/
def State.dupOffline (s : State) : Bool :=
  match s.start.state with
  | .offlineDup _ => true
  | _ => false

/-- The station may transmit (chapter 10 table). -/
def State.canSend (s : State) : Bool := s.working && !s.dupOffline

/-- ACTIVE. -/
def State.isActive (s : State) : Bool := s.start.state == .active

/-- JOINING. -/
def State.isJoining (s : State) : Bool := s.start.state == .joining

/-- The station's own number (R2). -/
def State.self (s : State) : Nat := s.cfg.number

/-- The peer timeout in ms (R20). -/
def State.peerTimeout (s : State) : Nat := Config.presenceInterval * s.cfg.scale

/-- A block is active with the station's roles (00_scope.md). -/
def State.blockActive (s : State) : Block → Bool
  | .start | .inv => true
  | .blend | .arb => s.cfg.roles.blend
  | .head => s.cfg.roles.head
  | .mark => s.cfg.roles.mark
  | .paper => s.cfg.roles.paper

/-- The timer runs. -/
def Timer.on : Timer → Bool
  | .stopped => false
  | .running _ => true

/-! ## The station table read -/

/-- The entry for the station's own number, which follows the station's own state (R20). Its moves at the end of a load and of the
join period raise their events there; at a start the blocks take the start itself (log 42). -/
def State.ownPeer (s : State) : Peer :=
  { state := match s.start.state with
      | .loading | .offlineConfig => .unknown
      | .joining | .offlineDup false => .joining
      | .active | .offlineDup true => .present,
    roles := if s.cfg.number = 0 then none else some s.cfg.roles,
    blender := if s.cfg.roles.head then some s.cfg.blender else none,
    lane1 := if s.cfg.roles.mark then some s.cfg.lane1 else none,
    lane2 := if s.cfg.roles.mark then s.cfg.lane2 else none,
    mark := none, silence := .stopped, watch := .stopped }

/-- The stored entry of another station. -/
def Line.peer (l : Line) (n : Nat) : Peer :=
  match n with
  | 0 => Peer.cold
  | k + 1 => (l.table[k]?).getD Peer.cold

/-- The entry for station `n` (R20). -/
def State.peer (s : State) (n : Nat) : Peer := if n = s.self then s.ownPeer else s.line.peer n

/-- Station `n` is PRESENT. -/
def State.present (s : State) (n : Nat) : Bool := (s.peer n).state == .present

/-- Station `n` is ABSENT. -/
def State.absent (s : State) (n : Nat) : Bool := (s.peer n).state == .absent

/-- The stations 1 to 24. -/
def stations : List Nat := (List.range 24).map (· + 1)

/-- An entry of the station table changed. -/
def Line.setPeer (l : Line) (n : Nat) (p : Peer) : Line :=
  match n with
  | 0 => l
  | k + 1 => { l with table := l.table.setIfInBounds k p }

/-! ## Reports -/

/-- The OVERFLOW entry with one more report discarded (R178). -/
def Report.bumped (r : Report) : Report :=
  match r.cause with
  | .number n => { r with cause := .number (min (n + 1) 255) }
  | _ => r

/-- A report joins the queue, or is counted in the OVERFLOW entry (R177, R178). -/
def addReport (q : List Report) (r : Report) : List Report :=
  if q.any (fun e => e.kind == .overflow) then q.map (fun e => if e.kind == .overflow then e.bumped else e)
  else if q.length + 1 ≥ Config.reportPlaces then q ++ [Report.of .overflow none none none (.number 1)]
  else q ++ [r]

/-- A block queues a report. -/
def State.report (s : State) (r : Report) : State :=
  { s with port := { s.port with reports := addReport s.port.reports r } }

/-- Reports in turn. -/
def State.reportAll (s : State) : List Report → State
  | [] => s
  | r :: l => (s.report r).reportAll l

/-! ## The transmit queue -/

/-- The block told what became of a frame (R10, R12); an exchange's frame is the line unit's own. -/
def Tag.block : Tag → Option Block
  | .join => some .start
  | .claim _ | .withdraw | .versioned _ _ | .repeated _ _ | .adopt _ | .dump _ | .ask _ => some .inv
  | .presence | .exch _ | .plain => none

/-- The block that opened an exchange (R13). -/
def exBlock : ExKey → Block
  | .chestDone _ _ | .fillVoid _ _ | .leaseAsk _ | .leaseDone _ | .leaseCancel _ => .head
  | .markDone _ _ => .mark
  | .leaseGrant _ => .arb
  | .sheetTaken _ => .paper

/-- The exchange's invoice, where it has one (R14). -/
def Exchange.invoice (x : Exchange) : Option Nat :=
  match x.msg with
  | .chestDone b => some b.inv
  | .fillVoid b => some b.inv
  | .markDone b => some b.inv
  | .leaseAsk b => if b.inv = 0 then none else some b.inv
  | .leaseGrant b => some b.inv
  | .sheetTaken n => some n
  | _ => none

/-- The report EXCHANGE_FAILED (R14). -/
def Exchange.failReport (x : Exchange) (c : CauseCode) : Report :=
  Report.of .exchangeFailed x.invoice none (some x.peer) (.code c)

/-- The frame belongs to the exchange of this number. -/
def TxFrame.ofExch (id : Nat) (f : TxFrame) : Bool := f.tag == .exch id

/-- The frame is one that the request to remove names (R12). A HEADER repeated at the failed frame's own version is later
than it and goes too (R35, log 48). -/
def Unsend.hits (u : Unsend) (f : TxFrame) : Bool :=
  match u, f.tag with
  | .claim n, .claim m => n == m
  | .versionedAbove n v, .versioned m w => n == m && decide (v < w)
  | .versionedAbove n v, .repeated m w => n == m && decide (v ≤ w)
  | .versionedAll n, .versioned m _ => n == m
  | .versionedAll n, .repeated m _ => n == m
  | .adopt n, .adopt m => n == m
  | _, _ => false

/-- Frames that fit `p` are removed; one whose transmission is in progress waits for the attempt to end (R12). A
backoff goes with the front frame (R8). -/
def Line.removeWhere (l : Line) (p : TxFrame → Bool) : Line :=
  match l.txq with
  | [] => l
  | f :: q =>
      let q' := q.filter (fun g => !p g)
      if p f then
        if l.sending then { l with txq := { f with cancel := true } :: q' }
        else { l with txq := q', attempts := 0, backoff := none }
      else { l with txq := f :: q' }

/-- How many frames the queue may hold for one more to be taken (R11). -/
def TxFrame.places (f : TxFrame) : Nat := if f.reply then Config.replyPlaces else Config.txPlaces

/-- The exchange of this number ends and its record goes (R14, R15). -/
def Line.dropEx (l : Line) (id : Nat) : Line :=
  { l with exchanges := l.exchanges.filter (fun x => x.id != id) }

/-- A frame failed to send: its block is told SEND_FAILED, or its exchange fails (R6, R14). -/
def State.tellFailed (s : State) (f : TxFrame) (atOpen : Bool) : State × Jobs :=
  match f.tag with
  | .exch id =>
      match s.line.exchanges.find? (fun x => x.id == id) with
      | none => (s, [])
      | some x =>
          let s1 := { s with line := s.line.dropEx id }
          if s.dupOffline then (s1, [(exBlock x.key, .exEnded x .offline none atOpen)])
          else (s1.report (x.failReport .sendFailed), [(exBlock x.key, .exEnded x .sendFailed none atOpen)])
  | t =>
      match t.block with
      | none => (s, [])
      | some b => (s, [(b, .sendFailed f atOpen)])

/-- A block queues a frame (R6, R11). -/
def State.sendFrame (s : State) (f : TxFrame) : State × Jobs :=
  if s.dupOffline then s.tellFailed f true
  else if s.line.txq.length ≥ f.places then
    (s.report (Report.of .lineCongested none none none (.code .queueFull))).tellFailed f true
  else ({ s with line := { s.line with txq := s.line.txq ++ [f] } }, [])

/-- A block opens a confirmed exchange (R6, R13, R16). -/
def State.openExchange (s : State) (key : ExKey) (msg : Msg) (dst peer : Nat) (patient : Bool) : State × Jobs :=
  let x : Exchange := { id := s.line.nextEx, key := key, msg := msg, dst := dst, peer := peer, resends := 0,
                        timer := .stopped, patient := patient }
  if s.dupOffline then (s, [(exBlock key, .exEnded x .offline none true)])
  else
    let old := s.line.exchanges.find? (fun y => y.key == key)
    let l1 := match old with
      | none => s.line
      | some y => (s.line.dropEx y.id).removeWhere (TxFrame.ofExch y.id)
    let j1 : Jobs := match old with
      | none => []
      | some y => [(exBlock key, .exEnded y .replaced none false)]
    if l1.exchanges.length ≥ Config.exchangePlaces then
      (({ s with line := l1 }).report (Report.of .lineCongested none none none (.code .queueFull)),
        j1 ++ [(exBlock key, .exEnded x .sendFailed none true)])
    else
      let s2 := { s with line := { l1 with exchanges := l1.exchanges ++ [x], nextEx := l1.nextEx + 1 } }
      let (s3, j3) := s2.sendFrame (jobFrame dst msg (.exch x.id))
      (s3, j1 ++ j3)

/-! ## Order among the blocks -/

/-- The element at place `n` and the rest. -/
def pick {α : Type} : Nat → List α → Option (α × List α)
  | _, [] => none
  | 0, a :: l => some (a, l)
  | n + 1, a :: l =>
      match pick n l with
      | none => none
      | some (b, r) => some (b, a :: r)

/-- The list in the order numbered `n` (its Lehmer code); fuel is its length. -/
def arrange {α : Type} : Nat → Nat → List α → List α
  | 0, _, _ => []
  | k + 1, n, l =>
      match pick (n % l.length) l with
      | none => []
      | some (a, r) => a :: arrange k (n / l.length) r

/-- The blocks that one event reaches, in the order that blockChoice gives (R5, R22, R185, log 6). -/
def State.blockOrder (s : State) : List Block := arrange 6 s.blockChoice [.inv, .blend, .arb, .head, .mark, .paper]

/-- The order used up. -/
def State.usedChoice (s : State) : State := { s with blockChoice := s.blockChoice / 720 }

/-- Every block is told (R22, R185). -/
def State.tellAll (s : State) (e : Ev) : State × Jobs := (s.usedChoice, s.blockOrder.map (fun b => (b, e)))

/-! ## Actions -/

/-- One action of a block. -/
def State.perform1 (s : State) : Act → State × Jobs
  | .send f => s.sendFrame f
  | .unsend u => ({ s with line := s.line.removeWhere u.hits }, [])
  | .openEx key msg dst peer patient => s.openExchange key msg dst peer patient
  | .report r => (s.report r, [])
  | .post b e => (s, [(b, e)])
  | .tell e => s.tellAll e
  | .track on => ({ s with fe := { s.fe with tracking := on } }, [])

/-- Actions in order; what they raise is taken afterwards. -/
def State.perform (s : State) : List Act → State × Jobs
  | [] => (s, [])
  | a :: l =>
      let r := s.perform1 a
      let q := r.1.perform l
      (q.1, r.2 ++ q.2)

end Sys2Proof.Machine
end

