-- ==== Sys2Proof/Machine/Line.lean ====
section
/-! DEFINITION. The line unit (01_stations_on_the_shed_line.md): contention, completion, reception, confirmed
exchanges, PRESENCE and the station table. -/

namespace Sys2Proof.Machine

/-! ## Sending -/

/-- Activity on the line: BUSY, the IDLE time starts again (R1). -/
def Line.busy (l : Line) : Line := { l with cond := .busy, gap := false }

/-- The end of a frame heard: the line became IDLE and the gap is not yet reached (R1). While the station transmits,
its own transmission keeps the line BUSY (log 3). -/
def Line.frameEnd (l : Line) : Line := if l.sending then l else { l with cond := .idle, gap := false }

/-- R7: a transmission begins when the queue is not empty, no backoff runs, the station may transmit and the line has
been idle for the interframe gap. -/
def State.tryTransmit (s : State) : State :=
  if s.canSend && !s.line.txq.isEmpty && s.line.backoff.isNone && s.line.gap && !s.line.sending then
    { s with line := { s.line.busy with sending := true, attempts := s.line.attempts + 1 } }
  else s

/-- INTERFRAME_GAP: the IDLE time has reached 24 bit times (R1, R7). Not an event while the station transmits. -/
def State.gapReached (s : State) : State :=
  if s.working && !s.line.sending then { s with line := { s.line with cond := .idle, gap := true } } else s

/-- BACKOFF_SLOT: one slot of idle line has passed after the gap (R8). -/
def State.slotPassed (s : State) : State :=
  if s.canSend && !s.line.sending && s.line.gap then
    match s.line.backoff with
    | some (n + 1) => { s with line := { s.line with backoff := if n = 0 then none else some n } }
    | _ => s
  else s

/-- The retry budget, 12 × (1 + k) (R9). -/
def State.budget (s : State) : Nat := 12 * (1 + s.cfg.retryK)

/-- How many values a backoff is drawn from after a collision on attempt `a` (R8). -/
def backoffRange (a : Nat) : Nat := 2 ^ min a 6

/-- COLLISION: the sender stops; the frame is removed if that was asked (R12), dropped at the end of the budget (R9),
or backs off (R8). -/
def State.collide (s : State) : State × Jobs :=
  if s.canSend && s.line.sending then
    match s.line.txq with
    | [] => (s, [])
    | f :: q =>
        let l0 := { s.line.busy with sending := false }
        if f.cancel then ({ s with line := { l0 with txq := q, attempts := 0, backoff := none } }, [])
        else if s.line.attempts ≥ s.budget then
          let s1 := { s with line := { l0 with txq := q, attempts := 0, backoff := none } }
          (s1.report (Report.of .lineCongested none none none (.code .budget))).tellFailed f false
        else
          let d := Config.backoffDraw s.draws % backoffRange s.line.attempts
          ({ s with line := { l0 with backoff := if d = 0 then none else some d }, draws := s.draws + 1 }, [])
  else (s, [])

/-! ## Handing frames to the blocks -/

/-- The blocks that take frames of a kind (R5, 00_scope.md). JOIN acts through the station table's event; a NOTED not
matched is discarded unless it notes a RECORD-ASK or a MARK-DONE (R15). -/
def takers : Msg → List Block
  | .join _ => []
  | .presence _ | .claim _ | .consent _ | .object _ | .withdraw _ | .header _ | .recordBlock _ | .recordAsk _ => [.inv]
  | .chestDone _ | .fillVoid _ | .markDone _ | .adopt _ => [.inv]
  | .chestEntered _ => [.inv, .head, .mark]
  | .chestRefused _ => [.head]
  | .markEntered _ => [.inv, .mark]
  | .sheetTaken _ => [.inv, .paper]
  | .leaseAsk _ | .leaseDone _ | .leaseCancel _ => [.arb]
  | .leaseGrant _ | .leaseEnd _ | .hold _ | .go _ => [.head]
  | .noted b => if b.kind == .recordAsk then [.inv] else if b.kind == .markDone then [.mark] else []

/-- R15: the frame confirms the exchange. -/
def confirms (own src dst : Nat) (m : Msg) (x : Exchange) : Bool :=
  src == x.peer &&
  match x.key, m with
  | .chestDone i t, .chestEntered b => b.inv == i && b.head == own && b.token == t
  | .chestDone i t, .chestRefused b => b.inv == i && b.token == t
  | .fillVoid _ t, .noted b => b.kind == .fillVoid && b.number == t
  | .fillVoid i t, .chestRefused b => b.inv == i && b.token == t
  | .markDone i o, .markEntered b => b.inv == i && b.ordinal == o
  | .leaseAsk t, .noted b => b.kind == .leaseAsk && b.number == t
  | .leaseAsk _, .leaseGrant _ => dst == own
  | .leaseAsk _, .leaseEnd _ => dst == own
  | .leaseGrant n, .noted b => b.kind == .leaseGrant && b.number == n
  | .leaseDone n, .noted b => b.kind == .leaseDone && b.number == n
  | .leaseCancel t, .noted b => b.kind == .leaseCancel && b.number == t
  | .sheetTaken i, .header b => b.hdr.state == .retired && b.hdr.inv == i
  | _, _ => false

/-- The records go and with them any queued copy of their frames (R12, R15, R16). -/
def Line.endAll (l : Line) : List Exchange → Line
  | [] => l
  | x :: r => ((l.dropEx x.id).removeWhere (TxFrame.ofExch x.id)).endAll r

/-- A frame is handed to the station's blocks: first the exchanges it confirms end (R5, R10, R15). -/
def State.hand (s : State) (src dst : Nat) (m : Msg) (own : Bool) : State × Jobs :=
  let done := s.line.exchanges.filter (confirms s.self src dst m)
  let s1 := { s with line := s.line.endAll done }
  let j1 : Jobs := done.map (fun x => (exBlock x.key, .exEnded x .confirmed (some m) false))
  let bs := (takers m)
  if bs.length ≤ 1 then (s1, j1 ++ bs.map (fun b => (b, .frame src dst m own)))
  else (s1.usedChoice, j1 ++ (s1.blockOrder.filter (fun b => bs.contains b)).map (fun b => (b, .frame src dst m own)))

/-! ## The station table -/

/-- The entry's state after a frame that names none (R20). -/
def Peer.appeared (p : Peer) : Peer :=
  if p.state == .unknown || p.state == .absent then { p with state := .present } else p

/-- The entry after a frame from its station was accepted (R20). A field that is not valid keeps its value, and a
PRESENCE whose state is not valid acts on the state as any other frame (log 31). -/
def Peer.heard (p : Peer) (timeout : Nat) (h : Heard) : Peer :=
  let q := { p with silence := .running timeout }
  match h with
  | .join b =>
      { q with state := .joining, roles := some b.roles, blender := b.blender.getD p.blender,
               lane1 := b.lane1.getD p.lane1, lane2 := b.lane2.getD p.lane2, watch := .running timeout }
  | .presence b =>
      let r := { q with roles := some b.roles, mark := some b.mark }
      match b.state with
      | some .joining => if p.state == .joining then r else { r with state := .joining, watch := .running timeout }
      | some .active => { r with state := .present, watch := .stopped }
      | none => r.appeared
  | .other => q.appeared

/-- How the frame changes the entry. -/
def viaOf : Heard → Via
  | .join b => .joinFrame b.start b.body.isSome
  | .presence b => if b.state.isSome then .presenceFrame else .other
  | .other => .other

/-- The entry of station `n`, the own one too, has moved from `old` to `new`: a change of state, or a JOIN, raises the event
of R22, and the move from ABSENT or JOINING to PRESENT the report (R20, log 42). -/
def State.entryMoved (s : State) (n : Nat) (old new : PeerState) (via : Via) : State × Jobs :=
  let s1 := if new == .present && (old == .absent || old == .joining) then
      s.report (Report.of .peerPresent none none (some n) .absent) else s
  let isJoin := match via with
    | .joinFrame _ _ => true
    | _ => false
  if old == new && !isJoin then (s1, []) else s1.tellAll (.peer n old new via)

/-- The stored entry of another station becomes `p` (R20). -/
def State.entryBecomes (s : State) (n : Nat) (p : Peer) (via : Via) : State × Jobs :=
  State.entryMoved { s with line := s.line.setPeer n p } n (s.line.peer n).state p.state via

/-- A PRESENCE of the station stands in the transmit queue (R18). -/
def Line.presenceQueued (l : Line) : Bool :=
  l.txq.any fun f => match f.msg with
    | .presence _ => true
    | _ => false

/-- The station's PRESENCE (R18). -/
def State.presenceMsg (s : State) : Msg :=
  .presence { roles := s.cfg.roles, state := if s.isJoining then .joining else .active, mark := s.inv.mark }

/-- R18: the answer to a JOIN. -/
def State.answerJoin (s : State) : State × Jobs :=
  if s.line.presenceQueued then (s, []) else s.sendFrame (replyFrame 0 s.presenceMsg .presence)

/-! ## Duplicate number -/

/-- R6: the station goes OFFLINE with cause DUPLICATE_NUMBER. -/
def State.goOffline (s : State) : State × Jobs :=
  let failed : Jobs := s.line.txq.filterMap fun f => f.tag.block.map fun b => (b, .sendFailed f false)
  let ended : Jobs := s.line.exchanges.map fun x => (exBlock x.key, .exEnded x .offline none false)
  let s1 := { s with
    line := { s.line with txq := [], sending := false, attempts := 0, backoff := none, exchanges := [] },
    start := { s.start with state := .offlineDup s.isActive, joinT := .stopped, retryT := .stopped } }
  let s2 := s1.report (Report.of .duplicateNumber none none (some s.self) .absent)
  let r := s2.tellAll .wentOffline
  (r.1, failed ++ ended ++ r.2)

/-! ## Reception -/

/-- A frame of class valid (R3): the duplicate test (R6), acceptance and the effect on the station table (R5, R20), the
answer to a JOIN, and the hand-over to the blocks. `h` is what the station table reads, `m` none where a field of the
body is not valid (R187). While OFFLINE for a duplicate number an accepted frame goes to no block, but the blocks take the
event it raises in the station table (R22), that of a JOIN from JOINING too (log 85). -/
def State.receive (s : State) (h : Heard) (e : Env) (m : Option Msg) : State × Jobs :=
  if !s.working then (s, [])
  else
    let s0 := { s with line := s.line.frameEnd }
    if e.src = s.self then (if s.dupOffline then (s0, []) else s0.goOffline)
    else if e.dst ≠ 0 ∧ e.dst ≠ s.self then (s0, [])
    else
      let (s1, j1) := s0.entryBecomes e.src ((s0.line.peer e.src).heard s.peerTimeout h) (viaOf h)
      if s.dupOffline then (s1, j1)
      else
        match m with
        | none => (s1, j1)
        | some msg =>
            let (s2, j2) := match h with
              | .join _ => s1.answerJoin
              | _ => (s1, [])
            let (s3, j3) := s2.hand e.src e.dst msg false
            (s3, j1 ++ j2 ++ j3)

/-- One more in a tally (R4). -/
def bump (n : Nat) : Nat := min (n + 1) 255

/-! ## Completion -/

/-- FRAME_COMPLETE (R10, R14, R18). Every frame of the station with destination 0 starts the presence timer anew, the
first of them too, be it JOIN or not (log 66). -/
def State.frameComplete (s : State) : State × Jobs :=
  if s.canSend && s.line.sending then
    match s.line.txq with
    | [] => (s, [])
    | f :: q =>
        let l0 := { s.line.busy with sending := false, attempts := 0, backoff := none, txq := q }
        let l1 := if f.dst = 0 then { l0 with presence := .running Config.presenceInterval } else l0
        let l2 := { l1 with exchanges := l1.exchanges.map fun (x : Exchange) =>
            if f.tag == .exch x.id then { x with timer := .running Config.confirmTime } else x }
        let s1 := { s with line := l2 }
        let j1 : Jobs := match f.tag.block with
          | none => []
          | some b => [(b, .complete f)]
        if f.dst = 0 ∨ f.dst = s.self then
          let (s2, j2) := s1.hand s.self f.dst f.msg true
          (s2, j1 ++ j2)
        else (s1, j1)
  else (s, [])

/-! ## Timers of the line unit -/

/-- The record of exchange `n` after one re-send more or none, its confirm timer stopped (R14, R16). -/
def Line.restEx (l : Line) (n more : Nat) : Line :=
  { l with exchanges := l.exchanges.map fun (y : Exchange) =>
      if y.id == n then { y with resends := y.resends + more, timer := .stopped } else y }

/-- CONFIRM_TIMER_EXPIRY (R14, R16). -/
def State.confirmExpired (s : State) (k : ExKey) : State × Jobs :=
  match s.line.exchanges.find? (fun x => x.key == k && x.timer.on) with
  | none => (s, [])
  | some x =>
      if x.resends < 3 then
        let s1 := { s with line := s.line.restEx x.id 1 }
        s1.sendFrame (jobFrame x.dst x.msg (.exch x.id))
      else if x.patient then
        ({ s with line := s.line.restEx x.id 0 }, [])
      else
        let s1 := { s with line := s.line.dropEx x.id }
        (s1.report (x.failReport .noConfirm), [(exBlock x.key, .exEnded x .noConfirm none false)])

/-- PRESENCE_TIMER_EXPIRY (R18). -/
def State.presenceExpired (s : State) : State × Jobs :=
  if s.line.presence.on then
    let s1 := { s with line := { s.line with presence := .running Config.presenceInterval } }
    if s1.line.presenceQueued then (s1, []) else s1.sendFrame (jobFrame 0 s1.presenceMsg .presence)
  else (s, [])

/-- SILENCE_TIMER_EXPIRY: the entry moves to ABSENT, its exchanges end (R16, R21). -/
def State.silenceExpired (s : State) (n : Nat) : State × Jobs :=
  let p := s.line.peer n
  if p.silence.on && n != s.self then
    let gone := s.line.exchanges.filter (fun x => x.peer == n)
    let s1 := { s with line := s.line.endAll gone }
    let j1 : Jobs := gone.map fun x => (exBlock x.key, .exEnded x .destinationAbsent none false)
    let s2 := s1.report (Report.of .peerAbsent none none (some n) .absent)
    let (s3, j3) := s2.entryBecomes n { p with state := .absent, silence := .stopped, watch := .stopped } .other
    (s3, j1 ++ j3)
  else (s, [])

/-- JOIN_WATCH_EXPIRY (R20). -/
def State.watchExpired (s : State) (n : Nat) : State × Jobs :=
  let p := s.line.peer n
  if p.watch.on && n != s.self then
    if p.state == .joining then s.entryBecomes n { p with state := .present, watch := .stopped } .other
    else ({ s with line := s.line.setPeer n { p with watch := .stopped } }, [])
  else (s, [])

end Sys2Proof.Machine
end

