-- ==== Sys2Proof/Machine/InvoiceTable.lean ====
section
/-! DEFINITION. The invoice table and the owner's way of changing an invoice: entries made, freed and applied, issued
changes, asks and owner changes (02_the_invoice_table_and_season_numbering.md, sections 2.1, 2.2, 2.4). -/

namespace Sys2Proof.Machine

/-- The invoice number of an entry. -/
def Entry.num (e : Entry) : Nat := e.data.hdr.inv

/-- The entry of an invoice. -/
def Inv.find (i : Inv) (n : Nat) : Option Entry := i.table.find? (fun e => e.num == n)

/-- The entry of invoice `n` changed. -/
def Inv.upd (i : Inv) (n : Nat) (f : Entry → Entry) : Inv :=
  { i with table := i.table.map (fun e => if e.num == n then f e else e) }

/-- No entry is free (R24). -/
def Inv.full (i : Inv) : Bool := decide (i.table.length ≥ Config.tableEntries)

/-- The number lies within the configured first and last (R24, R28). -/
def State.inSeason (s : State) (n : Nat) : Bool := decide (s.cfg.first ≤ n) && decide (n ≤ s.cfg.last)

/-- The season mark raised by a number (R28). -/
def Inv.raise (i : Inv) (n : Nat) : Inv := { i with mark := max i.mark n }

/-- What a grade index above 11 stands for: a free value within the ranges of chapter 6 and R190 (log 110). -/
def strayGrade (g : Nat) : Grade :=
  let v := Config.strayGrade g
  let target := v 0 % 65535 + 1
  { target := target, underTol := v 1 % 5001, overTol := v 2 % 5001, tareNom := v 3 % 65536, tareBand := v 4 % 5001,
    shortMin := v 5 % (target + 1), name := (Config.strayName g).take 6, layout := v 6 % 4 + 1 }

/-- The record of a grade index (R103, R190): that of the grade table, and a free value above 11, where the manual names no
grade and yet lets frames carry the index (R25, R187; the model's choice, log 110). -/
def State.gradeOf (s : State) (g : Nat) : Option Grade := if g ≤ 11 then s.cfg.grades[g]? else some (strayGrade g)

/-- The target net of a grade, 0 where the grade has none. -/
def State.targetOf (s : State) (g : Nat) : Nat :=
  match s.gradeOf g with
  | none => 0
  | some r => r.target

/-- The planned count: charged net over target net, held at 120 (R25). -/
def State.planned (s : State) (charged grade : Nat) : Nat := min (charged / s.targetOf grade) Config.maxChests

/-- A new entry of the table (R24, R27). -/
def Entry.made (h : Header) (copy : CopyState) : Entry :=
  { data := { hdr := h, chests := [], voids := [] }, copy := copy, orphan := false, closedT := .stopped,
    askT := .stopped, rebuildT := .stopped, adoptT := .stopped, staleT := .stopped, rebuild := none, own := none }

/-- The versions an adopter keeps for the chests of `r` that fit `p`: the frames were another owner's, so each is a free
value at most the record's version, which stays as it is from then on (R125, log 20). -/
def Rec.versionsFrom (r : Rec) (free : Nat → Nat → Nat) (p : Chest → Bool) : List (Nat × Nat) :=
  (r.chests.filter p).map fun c => (c.ordinal, free r.hdr.inv c.ordinal % (r.hdr.version + 1))

/-- The entry has been marked. -/
def Chest.marked (c : Chest) : Bool := c.stencil == .printed || c.stencil == .hand

/-- The owner's records as they start (R43, R125). A new invoice has no chests; an adopted one has its entries' versions as
free values, none for a placeholder or an entry not marked (log 20). -/
def OwnerRec.start (r : Rec) : OwnerRec :=
  { issued := r.hdr.version, view := r, fills := [], short := none,
    entryVer := r.versionsFrom Config.entryVersion (fun c => c.head.isSome),
    markVer := r.versionsFrom Config.markVersion Chest.marked, settle := .stopped,
    ahead := [], resend := [], resendDelay := .stopped, dump := none, retiring := false,
    cancelled := false, conflicts := [] }

/-- The header a claim gives its entry (R25, R29, R31). -/
def State.claimHeader (s : State) (n owner order grade charged : Nat) (garden : Text) : Header :=
  { inv := n, owner := owner, version := 0, state := .claimed, batch := owner, order := order, garden := garden,
    grade := grade, charged := charged, planned := s.planned charged grade, entered := 0, netTotal := 0,
    voidTotal := 0, voidCount := 0, residue := none, endCause := none, adoption := .unadopted, lostFills := 0 }

/-- OPEN or later (R34, R42). -/
def isLate : InvState → Bool
  | .claimed => false
  | _ => true

/-- The copy had been handed on as CLOSED: during a rebuild and after one that did not finish, the state from before it
counts (R159). -/
def Entry.wasClosed (e : Entry) : Bool :=
  match e.rebuild with
  | some r => r.wasClosed
  | none => e.data.hdr.state == .closed

/-- The state is OPEN or later. -/
def Entry.late (e : Entry) : Bool := isLate e.data.hdr.state

/-- A station is eligible to adopt with this copy (R42). -/
def State.eligible (s : State) (e : Entry) : Bool :=
  (s.cfg.roles.blend || s.cfg.roles.paper) && s.isActive && e.copy == .complete

/-- The adoption delay, 100 ms times the station's own number (R42). -/
def State.adoptDelay (s : State) : Timer := .running (100 * s.self)

/-- The adoption delay starts if the station is eligible (R42). -/
def State.startDelay (s : State) (e : Entry) : Entry := if s.eligible e then { e with adoptT := s.adoptDelay } else e

/-- The orphan flag is set, which starts the delay; a delay that runs goes on (R38, R42, log 54). -/
def State.orphaned (s : State) (e : Entry) : Entry :=
  let e1 := { e with orphan := true }
  if e.adoptT.on then e1 else s.startDelay e1

/-- The orphan flag clears and the delay stops (R42). -/
def Entry.unorphaned (e : Entry) : Entry := { e with orphan := false, adoptT := .stopped }

/-- One event to several blocks. -/
def posts (bs : List Block) (e : Ev) : List Act := bs.map (fun b => .post b e)

/-- The notice of an owner change (R44, R80, R154, R170). -/
def ownerNotice (n : Nat) : List Act := posts [.blend, .head, .mark, .paper] (.ownerChanged n)

/-- The notice that a copy changed (R148, R162). -/
def copyNotice (n : Nat) : List Act := posts [.mark, .paper] (.copyChanged n)

/-- The report TABLE_OVERFLOW (R24, R31, R35). -/
def overflowReport (n : Nat) : Act := .report (Report.of .tableOverflow (some n) none none .absent)

/-- The entry is freed. `gap` says that its claim is given up: the number becomes a gap (R24, R164), and the marker looks
again at a job that waits for the copy (R148). Otherwise the invoice is retired or held nowhere, and its chests leave the
marker's lanes (R141). -/
def Inv.free (i : Inv) (n : Nat) (gap : Bool) : Eff Inv :=
  { st := { i with table := i.table.filter (fun e => e.num != n) },
    acts := if gap then posts [.blend, .paper] (.entryFreed n) ++ [.post .mark (.copyChanged n), .post .paper (.gapNumber n)]
            else posts [.blend, .mark, .paper] (.entryFreed n) }

/-- RECORD-ASK for an entry, which starts its ask timer (R36). -/
def Inv.askTo (i : Inv) (n dst : Nat) : Eff Inv :=
  { st := i.upd n (fun e => { e with askT := .running Config.askTime }),
    acts := [.send (jobFrame dst (.recordAsk n) (.ask n))] }

/-- RECORD-ASK to `dst` unless the ask timer runs, or the entry is an orphan whose owner is ABSENT (R36, R42). -/
def Inv.ask (i : Inv) (s : State) (n dst : Nat) : Eff Inv :=
  match i.find n with
  | none => Eff.pure i
  | some e =>
      if e.askT.on || (e.orphan && s.absent e.data.hdr.owner) then Eff.pure i else i.askTo n dst

/-- RECORD-ASK to the owner the copy records (R36). -/
def Inv.askOwner (i : Inv) (s : State) (n : Nat) : Eff Inv :=
  match i.find n with
  | none => Eff.pure i
  | some e => i.ask s n e.data.hdr.owner

/-- RECORD-ASK for an invoice the table does not hold, spaced by its own timer (R37). -/
def Inv.askUnheld (i : Inv) (n dst : Nat) : Eff Inv :=
  if i.askOther.contains n then Eff.pure i
  else { st := { i with askOther := i.askOther ++ [n] }, acts := [.send (jobFrame dst (.recordAsk n) (.ask n))] }

/-- The copy has met a version gap: STALE, and it asks `dst` (R26, R36). -/
def Inv.stale (i : Inv) (s : State) (n dst : Nat) : Eff Inv :=
  ((i.upd n (fun e => { e with copy := .stale })).ask s n dst).adds (copyNotice n)

/-! ## What the owner issues (R35) -/

/-- The message of a HEADER (R188). -/
def headerMsg (h : Header) (resumed : Bool) (v : Option VoidRec) : Msg :=
  .header { hdr := h, dump := false, resumed := resumed, newVoid := v, entryCount := 0 }

/-- The version of a frame by its tag. -/
def TxFrame.version (f : TxFrame) : Nat :=
  match f.tag with
  | .versioned _ v => v
  | .repeated _ v => v
  | _ => 0

/-- A frame of an owned invoice goes to the queue, or behind the frames held for the versioned re-send (R35). -/
def Inv.sendOwned (i : Inv) (n : Nat) (f : TxFrame) : Eff Inv :=
  match i.find n with
  | some e =>
      match e.own with
      | some o =>
          if o.resendDelay.on then
            Eff.pure (i.upd n (fun e => { e with own := some { o with resend := o.resend ++ [f] } }))
          else { st := i, acts := [.send f] }
      | none => { st := i, acts := [.send f] }
  | none => { st := i, acts := [.send f] }

/-- The owner's records of an entry changed. -/
def Inv.updOwn (i : Inv) (n : Nat) (f : OwnerRec → OwnerRec) : Inv :=
  i.upd n (fun e => { e with own := e.own.map f })

/-- The owner's records of an invoice that this station owns. -/
def Inv.owned (i : Inv) (n : Nat) : Option OwnerRec :=
  match i.find n with
  | none => none
  | some e => e.own

/-- One change at version `v`: the issued view becomes `r`, the frame is queued (R35). -/
def Inv.issueAt (i : Inv) (n v : Nat) (r : Rec) (m : Msg) : Eff Inv :=
  (i.updOwn n (fun o => { o with issued := v, view := r })).sendOwned n (jobFrame 0 m (.versioned n v))

/-- One change at the next version: the frame is made from the view as the change leaves it. At 65535 nothing changes
and TABLE_OVERFLOW is queued (R35). -/
def Inv.issue (i : Inv) (n : Nat) (chg : Rec → Rec) (msg : Rec → Msg) : Eff Inv :=
  match i.owned n with
  | none => Eff.pure i
  | some o =>
      if o.issued ≥ Config.maxVersion then { st := i, acts := [overflowReport n] }
      else
        let v := o.issued + 1
        let r := chg o.view
        let r' := { r with hdr := { r.hdr with version := v } }
        i.issueAt n v r' (msg r')

/-- A change of header fields alone, sent as HEADER (R35, R48). -/
def Inv.issueHdr (i : Inv) (n : Nat) (chg : Header → Header) : Eff Inv :=
  i.issue n (fun r => { r with hdr := chg r.hdr }) (fun r => headerMsg r.hdr false none)

/-- HEADER repeating the issued view, as sent in answer to a JOIN (R35, R41). -/
def Inv.repeatHeader (i : Inv) (n : Nat) : Eff Inv :=
  match i.owned n with
  | none => Eff.pure i
  | some o => i.sendOwned n (jobFrame 0 (headerMsg o.view.hdr false none) (.repeated n o.issued))

/-! ## Dumps at the owner (R38) -/

/-- Items three by three. -/
def blocksOf : List Item → List (List Item)
  | a :: b :: c :: r => [a, b, c] :: blocksOf r
  | [] => []
  | l => [l]

/-- The items of a dump (R38). -/
def Rec.items (r : Rec) : List Item := r.chests.map .chest ++ r.voids.map .void

/-- The dump opens with HEADER(DUMP) (R38). -/
def Inv.startDump (i : Inv) (n : Nat) : Eff Inv :=
  match i.owned n with
  | none => Eff.pure i
  | some o =>
      let b : HeaderBody :=
        { hdr := { o.view.hdr with version := o.issued }, dump := true, resumed := false, newVoid := none,
          entryCount := o.view.chests.length + o.view.voids.length }
      { st := i.updOwn n (fun o => { o with dump := some { version := o.issued, rest := blocksOf o.view.items } }),
        acts := [.send (replyFrame 0 (.header b) (.dump n))] }

/-- The next block, told COMPLETE for the frame before (R38). -/
def Inv.nextBlock (i : Inv) (n : Nat) : Eff Inv :=
  match i.owned n with
  | none => Eff.pure i
  | some o =>
      match o.dump with
      | none => Eff.pure i
      | some d =>
          match d.rest with
          | [] => Eff.pure (i.updOwn n (fun o => { o with dump := none }))
          | b :: r =>
              { st := i.updOwn n (fun o => { o with dump := some { d with rest := r } }),
                acts := [.send (replyFrame 0 (.recordBlock { inv := n, version := d.version, items := b }) (.dump n))] }

/-- RECORD-ASK taken: a dump, absorbed into one in progress, or NOT_HELD (R38). -/
def Inv.takeAsk (i : Inv) (src n : Nat) : Eff Inv :=
  match i.owned n with
  | none => { st := i, acts := [.send (replyFrame src (notedMsg .recordAsk n .notHeld) .plain)] }
  | some o => if o.dump.isSome then Eff.pure i else i.startDump n

/-! ## The content of a copy changed by a frame (R26) -/

/-- The chest entry of a CHEST-ENTERED (R26). -/
def enteredChest (b : ChestEnteredBody) : Chest :=
  { ordinal := b.ordinal, head := some b.head, token := some b.token, gross := some b.gross, tare := some b.tare,
    net := some b.net, short := b.short, topups := b.topups, flightLong := b.flightLong, stencil := .pending,
    marker := none }

/-- A total held at 500000 (R129, R132). -/
def capBatch (n : Nat) : Nat := min n Config.maxBatch

/-- A chest appended, with the count and the total (R26, R129). -/
def Rec.addChest (r : Rec) (c : Chest) : Rec :=
  { r with chests := r.chests ++ [c],
           hdr := { r.hdr with entered := c.ordinal, netTotal := capBatch (r.hdr.netTotal + c.net.getD 0) } }

/-- The stencil state of a mark (R26). -/
def howStencil : How → Stencil
  | .printed => .printed
  | .hand => .hand

/-- A mark set on the entry with the ordinal (R26, R133). -/
def Rec.setMark (r : Rec) (ordinal : Nat) (how : How) (marker : Nat) : Rec :=
  { r with chests := r.chests.map fun c =>
      if c.ordinal == ordinal then { c with stencil := howStencil how, marker := some marker } else c }

/-- The list holds the ordinal. -/
def Rec.hasOrdinal (r : Rec) (o : Nat) : Bool := r.chests.any (fun c => c.ordinal == o)

/-- The version taken. -/
def Rec.atVersion (r : Rec) (v : Nat) : Rec := { r with hdr := { r.hdr with version := v } }

/-- The void list after a HEADER, or none where its void count is a gap (R26). A count one above the list without the
record counts as a gap (log 68). -/
def Rec.voidsAfter (r : Rec) (b : HeaderBody) : Option (List VoidRec) :=
  if b.hdr.voidCount = r.voids.length then some r.voids
  else if b.hdr.voidCount = r.voids.length + 1 then
    match b.newVoid with
    | none => none
    | some v => some (r.voids ++ [v])
  else none

end Sys2Proof.Machine
end

