-- ==== Sys2Proof/WellFormed.lean ====
section
/-! DEFINITION. Which commands can occur: every operand lies in the range its field type has on the line, on the port
or at a pin (R2, R51, R187, R189). `exec` does not consult it; statements and the byte formats do. -/

namespace Sys2Proof

/-- A byte of a text: A to Z, 0 to 9, space, hyphen, slash, full stop and colon (R187). -/
def textByte (b : Byte) : Bool :=
  let n := b.toNat
  (65 ≤ n && n ≤ 90) || (48 ≤ n && n ≤ 57) || n = 32 || n = 45 || n = 46 || n = 47 || n = 58

/-- A text of 1 to `n` characters of the text set (R187). -/
def textOk (n : Nat) (t : Text) : Bool := decide (1 ≤ t.length) && decide (t.length ≤ n) && t.all textByte

/-- A one-byte number. -/
def u8 (n : Nat) : Bool := decide (n < 256)
/-- A two-byte number. -/
def u16 (n : Nat) : Bool := decide (n < 65536)
/-- A three-byte number. -/
def u24 (n : Nat) : Bool := decide (n < 16777216)
/-- A station number or 0 (R187). -/
def stationOk (n : Nat) : Bool := decide (n ≤ 24)
/-- A station number, or absent. -/
def stationOpt : Option Nat → Bool
  | none => true
  | some n => decide (1 ≤ n) && decide (n ≤ 24)
/-- A batch weight (R187). -/
def batchOk (n : Nat) : Bool := decide (n ≤ 500000)

/-- Destination 0 to 24 and source 1 to 24 (R2). -/
def Env.wf (e : Env) : Bool := stationOk e.dst && decide (1 ≤ e.src) && stationOk e.src

def Header.wf (h : Header) : Bool :=
  decide (1 ≤ h.inv) && u16 h.inv && stationOk h.owner && u16 h.version && stationOk h.batch && u16 h.order &&
    textOk 8 h.garden && u8 h.grade && batchOk h.charged && u8 h.planned && u8 h.entered && batchOk h.netTotal &&
    batchOk h.voidTotal && u8 h.voidCount && (h.residue.all batchOk) && u8 h.lostFills

def VoidRec.wf (v : VoidRec) : Bool := stationOk v.head && u8 v.token && u16 v.net

/-- A chest item as it stands on the line: a placeholder has no head, token and weights, any other chest has all of
them (R187). -/
def Chest.wf (c : Chest) : Bool :=
  decide (1 ≤ c.ordinal) && u8 c.ordinal && decide (c.topups < 4) && stationOpt c.marker &&
    (match c.head, c.token, c.gross, c.tare, c.net with
     | none, none, none, none, none => true
     | some h, some t, some g, some r, some n => decide (1 ≤ h) && stationOk h && u8 t && u16 g && u16 r && u16 n
     | _, _, _, _, _ => false)

def Item.wf : Item → Bool
  | .chest c => c.wf
  | .void v => v.wf

/-- The ranges of a frame's body (R188). -/
def Msg.wf : Msg → Bool
  | .join b => stationOpt b.blender && stationOpt b.lane1 && stationOpt b.lane2
  | .presence b => u16 b.mark
  | .claim b => decide (1 ≤ b.inv) && u16 b.inv && u16 b.order && u8 b.grade && textOk 8 b.garden && batchOk b.net
  | .consent b => u16 b.inv && stationOk b.claimant
  | .object b => u16 b.inv && stationOk b.claimant
  | .withdraw n => u16 n
  | .header b => b.hdr.wf && (b.newVoid.all VoidRec.wf) && u8 b.entryCount
  | .recordBlock b =>
      u16 b.inv && u16 b.version && decide (1 ≤ b.items.length) && decide (b.items.length ≤ 3) && b.items.all Item.wf
  | .recordAsk n => u16 n
  | .chestDone b => u16 b.inv && u8 b.token && u16 b.gross && u16 b.tare && u16 b.net && u8 b.topups
  | .chestEntered b =>
      u16 b.inv && u16 b.version && u8 b.ordinal && stationOk b.head && u8 b.token && u16 b.gross && u16 b.tare &&
        u16 b.net && decide (b.topups < 4)
  | .chestRefused b => u16 b.inv && u8 b.token
  | .fillVoid b => u16 b.inv && u8 b.token && u16 b.net
  | .markDone b => u16 b.inv && u8 b.ordinal && stationOk b.marker
  | .markEntered b => u16 b.inv && u16 b.version && u8 b.ordinal && stationOk b.marker
  | .adopt b => u16 b.inv && stationOk b.oldOwner && u16 b.version
  | .sheetTaken n => u16 n
  | .leaseAsk b => u8 b.token && u16 b.inv
  | .leaseGrant b => u16 b.inv && u8 b.lease
  | .leaseDone n => u8 n
  | .leaseEnd b => u8 b.lease
  | .leaseCancel n => u8 n
  | .hold n => u8 n
  | .go n => u8 n
  | .noted b => u16 b.number

/-- A JOIN as received: the fields that are valid lie in their ranges. -/
def JoinRead.wf (b : JoinRead) : Bool := b.blender.all stationOpt && b.lane1.all stationOpt && b.lane2.all stationOpt

/-- A frame as heard: its envelope, and its body where every field is valid. -/
def frameWf (e : Env) : Option Msg → Bool
  | none => e.wf
  | some m => e.wf && m.wf

def Req.wf {α : Type} (p : α → Bool) : Req α → Bool
  | .good a => p a
  | _ => true

/-- A component of an order as a bin byte and a three-byte target (R189). -/
def compWf (c : Nat × Nat) : Bool := u8 c.1 && u24 c.2

def OrderBody.wf (b : OrderBody) : Bool :=
  u16 b.order && u8 b.grade && (b.garden.all fun t => decide (1 ≤ t.length) && decide (t.length ≤ 8)) &&
    (b.mix.all fun m => decide (1 ≤ m) && u8 m) && decide (1 ≤ b.comps.length) && decide (b.comps.length ≤ 8) &&
    b.comps.all compWf

/-- The commands that can occur. -/
def Instr.wf : Instr → Bool
  | .join e b => e.wf && b.wf
  | .presence e b => e.wf && u16 b.mark
  | .claim e b => frameWf e (b.map .claim)
  | .consent e b => frameWf e (b.map .consent)
  | .object e b => frameWf e (b.map .object)
  | .withdraw e b => frameWf e (b.map .withdraw)
  | .header e b => frameWf e (b.map .header)
  | .recordBlock e b => frameWf e (b.map .recordBlock)
  | .recordAsk e b => frameWf e (b.map .recordAsk)
  | .chestDone e b => frameWf e (b.map .chestDone)
  | .chestEntered e b => frameWf e (b.map .chestEntered)
  | .chestRefused e b => frameWf e (b.map .chestRefused)
  | .fillVoid e b => frameWf e (b.map .fillVoid)
  | .markDone e b => frameWf e (b.map .markDone)
  | .markEntered e b => frameWf e (b.map .markEntered)
  | .adopt e b => frameWf e (b.map .adopt)
  | .sheetTaken e b => frameWf e (b.map .sheetTaken)
  | .leaseAsk e b => frameWf e (b.map .leaseAsk)
  | .leaseGrant e b => frameWf e (b.map .leaseGrant)
  | .leaseDone e b => frameWf e (b.map .leaseDone)
  | .leaseEnd e b => frameWf e (b.map .leaseEnd)
  | .leaseCancel e b => frameWf e (b.map .leaseCancel)
  | .hold e b => frameWf e (b.map .hold)
  | .go e b => frameWf e (b.map .go)
  | .noted e b => frameWf e (b.map .noted)
  | .silenceTimerExpiry n => decide (1 ≤ n) && stationOk n
  | .joinWatchExpiry n => decide (1 ≤ n) && stationOk n
  | .claimStaleTimerExpiry n => u16 n
  | .versionedResendDelayExpiry n => u16 n
  | .askTimerExpiry n => u16 n
  | .rebuildTimerExpiry n => u16 n
  | .closedTimerExpiry n => u16 n
  | .adoptionDelayExpiry n => u16 n
  | .settleTimerExpiry n => u16 n
  | .sample _ bits _ => decide (bits ≤ 32)
  | .laneHoldTimerExpiry l => l = 1 || l = 2
  | .laneEyeArrival l => l = 1 || l = 2
  | .portRequestAborted bytes => decide (bytes.length ≤ 47)
  | .readInvoice r => r.wf fun b => u16 b.inv && u8 b.first && u8 b.count
  | .readConfigMemory r => r.wf fun b => u16 b.offset && u8 b.count
  | .writeConfigMemory r => r.wf fun b =>
      u16 b.offset && decide (1 ≤ b.data.length) && decide (b.data.length ≤ 32)
  | .forceAdopt r => r.wf u16
  | .placeOrder r => r.wf OrderBody.wf
  | .redraw r => r.wf u8
  | .carryOverSet r => r.wf fun b => u8 b.grade && u24 b.weight
  | .clearLane r => r.wf u8
  | .reprint r => r.wf u8
  | .handLane r => r.wf u8
  | .handChest r => r.wf fun b => u16 b.inv && u8 b.ordinal
  | .readPlate r => r.wf u8
  | .openSheet r => r.wf fun o => o.all u16
  | .readSheetPart r => r.wf u8
  | .powerOn | .resetPinLow | .resetPinRelease _ | .configLoadEnd _ | .joinRetryDelayExpiry | .joinPeriodEnd
  | .interframeGap | .backoffSlot | .collision | .frameComplete | .invalidFrame _ | .confirmTimerExpiry _
  | .presenceTimerExpiry | .claimWindowExpiry | .claimRetryDelayExpiry | .lossTimerExpiry | .starveTimerExpiry
  | .stallTimerExpiry | .drumTurnPulse | .chestPresenceChange _ | .holdLapseTimerExpiry | .headSettleTimerExpiry
  | .compositionComplete | .strokeEnd | .strokeTimerExpiry | .unknownRequest _ _ | .readStatus _ | .readReport _
  | .readStationTable _ | .readTallies _ | .restartWarm _ | .configReadTransferEnd | .configWriteTransferEnd
  | .cancel _ | .resume _ | .endBatch _ | .confirmEmpty _ | .start _ | .stop _ | .clearRetry _ | .clearVoid _
  | .resetHead _ | .zero _ | .sheetDone _ | .noise => true

end Sys2Proof
end

