-- ==== Sys2Proof/Machine/Operands.lean ====
section
/-! DEFINITION. The field types of R187: how each is written and how each is read. A reader takes the bytes and answers
the value with the bytes that follow, or none where the field is not valid. -/

namespace Sys2Proof.Machine

/-! ## Writing -/

/-- The low byte of a number. -/
def byte (n : Nat) : Byte := BitVec.ofNat 8 n
/-- One byte. -/
def put1 (n : Nat) : List Byte := [byte n]
/-- Two bytes, most significant first. -/
def put2 (n : Nat) : List Byte := [byte (n / 256), byte n]
/-- Three bytes, most significant first. -/
def put3 (n : Nat) : List Byte := [byte (n / 65536), byte (n / 256), byte n]
/-- A signed weight or a raw count: two's complement in three bytes. -/
def putInt (x : Int) : List Byte := put3 ((x % 16777216).toNat)
/-- A flag. -/
def putFlag (b : Bool) : List Byte := put1 (if b then 1 else 0)
/-- A text of `w` positions. -/
def putText (w : Nat) (t : Text) : List Byte := t ++ List.replicate (w - t.length) 0#8
/-- A station, 0 where absent. -/
def putStation (o : Option Nat) : List Byte := put1 (o.getD 0)
/-- An invoice, 0 where absent. -/
def putInvoice (o : Option Nat) : List Byte := put2 (o.getD 0)
/-- A batch weight, FFFFFF where absent. -/
def putBatch (o : Option Nat) : List Byte := put3 (o.getD 16777215)
/-- A field with no absent value in its type: a presence flag before it (R189). -/
def putOpt {α : Type} (f : α → List Byte) : Option α → List Byte
  | none => putFlag false
  | some a => putFlag true ++ f a
/-- A list: a count byte and the items (R189). -/
def putList {α : Type} (f : α → List Byte) (l : List α) : List Byte := put1 l.length ++ l.flatMap f
/-- A timer: 1 while it runs (R189). -/
def putTimer (t : Timer) : List Byte := putFlag t.on
/-- The code of a value: its position in its list, counting from 1. -/
def codeOf {α : Type} [BEq α] (l : List α) (a : α) : Nat := l.idxOf a + 1
/-- A code. -/
def putCode {α : Type} [BEq α] (l : List α) (a : α) : List Byte := put1 (codeOf l a)
/-- A code, 0 where absent. -/
def putCodeOpt {α : Type} [BEq α] (l : List α) : Option α → List Byte
  | none => put1 0
  | some a => putCode l a

/-! ## Reading -/

/-- A reader. -/
abbrev Rd (α : Type) := List Byte → Option (α × List Byte)

/-- One byte. -/
def get1 : Rd Nat
  | a :: l => some (a.toNat, l)
  | [] => none
/-- Two bytes. -/
def get2 : Rd Nat
  | a :: b :: l => some (a.toNat * 256 + b.toNat, l)
  | _ => none
/-- Three bytes. -/
def get3 : Rd Nat
  | a :: b :: c :: l => some (a.toNat * 65536 + b.toNat * 256 + c.toNat, l)
  | _ => none
/-- A station, 0 to 24; in a field that must have a value 0 is read as the number 0 (the model's choice, log 115). -/
def getStation : Rd Nat := fun l => (get1 l).bind fun p => if p.1 ≤ 24 then some p else none
/-- A station, 0 read as absent. -/
def getStationOpt : Rd (Option Nat) := fun l =>
  (getStation l).bind fun p => some (if p.1 = 0 then none else some p.1, p.2)
/-- A batch weight that must be there. -/
def getBatch : Rd Nat := fun l => (get3 l).bind fun p => if p.1 ≤ 500000 then some p else none
/-- A batch weight, FFFFFF read as absent. -/
def getBatchOpt : Rd (Option Nat) := fun l => (get3 l).bind fun p =>
  if p.1 = 16777215 then some (none, p.2) else if p.1 ≤ 500000 then some (some p.1, p.2) else none
/-- A flag: 0 or 1; any other byte is a free value (log 31). -/
def getFlag : Rd Bool := fun l => (get1 l).bind fun p =>
  some (if p.1 = 0 then false else if p.1 = 1 then true else Config.flagReads (byte p.1), p.2)
/-- A code that must be there. -/
def getCode {α : Type} (codes : List α) : Rd α := fun l => (get1 l).bind fun p =>
  match p.1 with
  | 0 => none
  | k + 1 => (codes[k]?).bind fun a => some (a, p.2)
/-- A code, 0 read as absent. -/
def getCodeOpt {α : Type} (codes : List α) : Rd (Option α) := fun l => (get1 l).bind fun p =>
  match p.1 with
  | 0 => some (none, p.2)
  | k + 1 => (codes[k]?).bind fun a => some (some a, p.2)
/-- The code at a place of a list, none for 0 and past its end. -/
def codeAt {α : Type} (codes : List α) : Nat → Option α
  | 0 => none
  | k + 1 => codes[k]?
/-- A station byte as a field that may be absent; none above 24. -/
def stationAt (n : Nat) : Option (Option Nat) := if n = 0 then some none else if n ≤ 24 then some (some n) else none
/-- The characters before the padding. -/
def textOf (l : List Byte) : Text := l.takeWhile (fun b => b != 0#8)
/-- Padding holds 00 alone and every character is of the text set. -/
def textValid (l : List Byte) : Bool :=
  (textOf l).all textByte && (l.dropWhile (fun b => b != 0#8)).all (fun b => b == 0#8)
/-- A text of `w` with at least one character. -/
def getText (w : Nat) : Rd Text := fun l =>
  let t := l.take w
  if t.length = w ∧ textValid t = true ∧ textOf t ≠ [] then some (textOf t, l.drop w) else none

/-! ## Roles and chest flags (R187) -/

/-- The roles byte. -/
def rolesByte (r : Roles) : Nat :=
  (if r.blend then 1 else 0) + (if r.head then 2 else 0) + (if r.mark then 4 else 0) + (if r.paper then 8 else 0)
/-- The roles of a byte; its other bits are not read. -/
def rolesOf (n : Nat) : Roles :=
  { blend := n % 2 = 1, head := n / 2 % 2 = 1, mark := n / 4 % 2 = 1, paper := n / 8 % 2 = 1 }
/-- The chest flags byte; the top-up count has two bits (log 82). -/
def chestFlags (short : Bool) (topups : Nat) (long placeholder : Bool) : Nat :=
  (if short then 1 else 0) + topups % 4 * 2 + (if long then 8 else 0) + (if placeholder then 16 else 0)

/-! ## The code lists (R187) -/

def invStates : List InvState := [.claimed, .opened, .ending, .marking, .closed, .retired]
def endCauses : List EndCause := [.exhausted, .stopped, .cancelled, .ownerLost]
def adoptions : List Adoption := [.unadopted, .plain, .forced]
def objections : List Objection := [.held, .range, .full]
def refuseReasons : List RefuseReason := [.ended, .shortTaken, .unknown, .voidFull, .listFull]
def chestClasses : List ChestClass := [.full, .short]
def stencils : List Stencil := [.pending, .printed, .hand, .unknown]
def hows : List How := [.printed, .hand]
def purposes : List Purpose := [.fill, .topup]
def slots : List Slot := [.current, .next]
def leaseEndReasons : List LeaseEndReason := [.exhausted, .deferred, .stopped, .blenderRestart, .headAbsent]
def notedResults : List NotedResult := [.ok, .queued, .notHeld, .full]
def joinKinds : List JoinKind := [.cold, .warm]
def presStates : List PresState := [.joining, .active]
def portAnswers : List PortAnswer := [.ok, .busy, .unknown, .role, .state, .range, .check]
def peerStates : List PeerState := [.unknown, .joining, .present, .absent]
def copyStates : List CopyState := [.complete, .stale, .rebuilding]
def startKinds : List StartKind := [.coldPower, .coldPin, .warmPin, .warmRequest]
def blendStates : List BlendState := [.idle, .charging, .mixing, .waitClaim, .discharging, .held, .blocked]
def blendHelds : List BlendHeld := [.shortfall, .mixStall, .restart]
def stopCauses : List StopCause := [.stopped, .ownerLost]
def orderClaims : List OrderClaim := [.none, .asked, .firm]
def compStates : List CompState := [.pending, .drawing, .done, .shortfall]
def headStates : List HeadState :=
  [.stopped, .empty, .taring, .waiting, .fast, .dribble, .settling, .topupWait, .reported, .releasing, .voiding, .held,
   .locked]
def headFaults : List HeadFault :=
  [.tareRange, .unstable, .overLimit, .underLimit, .overload, .scaleLost, .chestLost, .refused, .send, .restart]
def leaseStates : List LeaseState := [.none, .asked, .next, .current, .topupAsked]
def laneStates : List LaneState := [.queued, .printing, .printed, .fault]
def laneFaults : List LaneFault := [.jam, .noRecord, .layout, .restart]
def markAnswers : List MarkAnswer := [.none, .notHeld, .full]
def plateNames : List PlateName := [.a, .b]
def plateConds : List PlateCond := [.empty, .composing, .ready, .inUse, .spent]
def stencilHeads : List StencilHead := [.idle, .stroking, .held]
def windowCauses : List WindowCause := [.none, .done, .replaced, .changed, .takenElsewhere, .retired, .restart]
/-- The frame kinds by their codes 01 to 18 (R188). -/
def frameKinds : List FrameKind :=
  [.join, .presence, .claim, .consent, .object, .withdraw, .header, .recordBlock, .recordAsk, .chestDone, .chestEntered,
   .chestRefused, .fillVoid, .markDone, .markEntered, .adopt, .sheetTaken, .leaseAsk, .leaseGrant, .leaseDone, .leaseEnd,
   .leaseCancel, .holdGo, .noted]
/-- The report kinds by their codes (R189). -/
def reportKinds : List ReportKind :=
  [.start, .configFault, .duplicateNumber, .peerPresent, .peerAbsent, .claimFirm, .claimStalled, .shortfall, .mixStall,
   .batchEnded, .leaseLost, .chestEntered, .headFault, .laneStray, .laneJam, .laneOverflow, .markUnconfirmed, .adopted,
   .sheetReady, .tableOverflow, .lineCongested, .exchangeFailed, .overflow]
/-- The cause codes (R189). -/
def causeCodes : List CauseCode :=
  [.coldPower, .coldPin, .warmPin, .warmRequest, .signature, .check, .value, .layout, .tableFull, .seasonEnd, .noConsent,
   .sendFailed] ++
  [.exhausted, .stopped, .cancelled, .ownerLost, .restart, .tareRange, .unstable, .overLimit, .underLimit, .overload,
   .scaleLost, .chestLost, .send, .double] ++
  [.ended, .shortTaken, .unknown, .voidFull, .listFull, .early, .unexpected, .jam, .noRecord, .kept, .lost, .notHeld,
   .full, .offline, .noConfirm, .budget, .queueFull]
/-- The layout fields by their codes (R190). -/
def fieldNames : List FieldName := [.garden, .grade, .invoice, .season, .batch, .chest, .net, .gross, .tare, .station]

end Sys2Proof.Machine
end

