-- ==== Sys2Proof/Machine/Formats.lean ====
section
/-! DEFINITION. The frames of the shed line as bytes (R188) and the classing of a received frame (R3). -/

namespace Sys2Proof.Machine

/-! ## The 16-bit cyclic check -/

/-- One bit of the check: generator x^16 + x^12 + x^5 + 1 (R188). -/
def crcBit (c : Nat) : Nat := if c ≥ 32768 then (c * 2 % 65536) ^^^ 4129 else c * 2

/-- One byte of the check, most significant bit first. -/
def crcByte (c : Nat) (b : Byte) : Nat :=
  crcBit (crcBit (crcBit (crcBit (crcBit (crcBit (crcBit (crcBit (c ^^^ (b.toNat * 256)))))))))

/-- The check over bytes, the register preset to FFFF. -/
def crc16 (l : List Byte) : Nat := l.foldl crcByte 65535

/-! ## Bodies (R188) -/

/-- The body lengths allowed for a kind. -/
def bodyLengths : FrameKind → List Nat
  | .join => [5]
  | .presence => [4]
  | .claim => [16]
  | .consent => [3]
  | .object => [4]
  | .withdraw => [2]
  | .header => [43]
  | .recordBlock => [17, 29, 41]
  | .recordAsk => [2]
  | .chestDone => [12]
  | .chestEntered => [14]
  | .chestRefused => [4]
  | .fillVoid => [5]
  | .markDone => [5]
  | .markEntered => [7]
  | .adopt => [6]
  | .sheetTaken => [2]
  | .leaseAsk => [4]
  | .leaseGrant => [4]
  | .leaseDone => [1]
  | .leaseEnd => [2]
  | .leaseCancel => [1]
  | .holdGo => [2]
  | .noted => [4]

/-- A chest item of 12 bytes; PLACEHOLDER is set where the entry has no weights (R187, R188). -/
def putChest (c : Chest) : List Byte :=
  put1 c.ordinal ++ putStation c.head ++ put1 (c.token.getD 0) ++ put2 (c.gross.getD 0) ++ put2 (c.tare.getD 0) ++
    put2 (c.net.getD 0) ++ put1 (chestFlags c.short c.topups c.flightLong c.net.isNone) ++ putCode stencils c.stencil ++
    putStation c.marker

/-- A void item of 12 bytes (R188). -/
def putVoidItem (v : VoidRec) : List Byte :=
  put1 0 ++ put1 v.head ++ put1 v.token ++ put2 0 ++ put2 0 ++ put2 v.net ++ [0#8, 0#8, 0#8]

/-- An item of a RECORD-BLOCK. -/
def putItem : Item → List Byte
  | .chest c => putChest c
  | .void v => putVoidItem v

/-- The header fields in the order of the HEADER body up to the version and the state, and from the batch blender to
the lost-fill count (R188). -/
def putHeadFields (h : Header) : List Byte :=
  put1 h.batch ++ put2 h.order ++ putText 8 h.garden ++ put1 h.grade ++ put3 h.charged ++ put1 h.planned ++
    put1 h.entered ++ put3 h.netTotal ++ put3 h.voidTotal ++ put1 h.voidCount ++ putBatch h.residue ++
    putCodeOpt endCauses h.endCause ++ putCode adoptions h.adoption ++ put1 h.lostFills

/-- The fields before the flags byte. -/
def putHeadOpening (h : Header) : List Byte :=
  put2 h.inv ++ put1 h.owner ++ put2 h.version ++ putCode invStates h.state

/-- The newest void record, zeros where there is none. -/
def putNewVoid : Option VoidRec → List Byte
  | none => [0#8, 0#8, 0#8, 0#8]
  | some v => put1 v.head ++ put1 v.token ++ put2 v.net

/-- The flags byte of a HEADER. -/
def headerFlags (b : HeaderBody) : Nat :=
  (if b.dump then 1 else 0) + (if b.resumed then 2 else 0) + (if b.newVoid.isSome then 4 else 0)

/-- The body of a frame (R188). -/
def putBody : Msg → List Byte
  | .join b => put1 (rolesByte b.roles) ++ putCode joinKinds b.start ++ putStation b.blender ++ putStation b.lane1 ++
      putStation b.lane2
  | .presence b => put1 (rolesByte b.roles) ++ putCode presStates b.state ++ put2 b.mark
  | .claim b => put2 b.inv ++ put2 b.order ++ put1 b.grade ++ putText 8 b.garden ++ put3 b.net
  | .consent b => put2 b.inv ++ put1 b.claimant
  | .object b => put2 b.inv ++ put1 b.claimant ++ putCode objections b.reason
  | .withdraw n => put2 n
  | .header b => putHeadOpening b.hdr ++ put1 (headerFlags b) ++ putHeadFields b.hdr ++ put1 b.entryCount ++
      putNewVoid b.newVoid ++ [0#8]
  | .recordBlock b => put2 b.inv ++ put2 b.version ++ put1 b.items.length ++ b.items.flatMap putItem
  | .recordAsk n => put2 n
  | .chestDone b => put2 b.inv ++ put1 b.token ++ put2 b.gross ++ put2 b.tare ++ put2 b.net ++ put1 b.topups ++
      putCode chestClasses b.cls ++ putFlag b.flightLong
  | .chestEntered b => put2 b.inv ++ put2 b.version ++ put1 b.ordinal ++ put1 b.head ++ put1 b.token ++ put2 b.gross ++
      put2 b.tare ++ put2 b.net ++ put1 (chestFlags b.short b.topups b.flightLong false)
  | .chestRefused b => put2 b.inv ++ put1 b.token ++ putCode refuseReasons b.reason
  | .fillVoid b => put2 b.inv ++ put1 b.token ++ put2 b.net
  | .markDone b => put2 b.inv ++ put1 b.ordinal ++ putCode hows b.how ++ put1 b.marker
  | .markEntered b => put2 b.inv ++ put2 b.version ++ put1 b.ordinal ++ putCode hows b.how ++ put1 b.marker
  | .adopt b => put2 b.inv ++ put1 b.oldOwner ++ put2 b.version ++ putFlag b.forced
  | .sheetTaken n => put2 n
  | .leaseAsk b => putCode purposes b.purpose ++ put1 b.token ++ put2 b.inv
  | .leaseGrant b => putCode slots b.slot ++ put2 b.inv ++ put1 b.lease
  | .leaseDone n => put1 n
  | .leaseEnd b => put1 b.lease ++ putCode leaseEndReasons b.reason
  | .leaseCancel n => put1 n
  | .hold n => put1 1 ++ put1 n
  | .go n => put1 2 ++ put1 n
  | .noted b => putCode frameKinds b.kind ++ put2 b.number ++ putCode notedResults b.result

/-! ## Reading bodies -/

/-- An item of 12 bytes: a void item where the ordinal is 0 (R188). -/
def getItem : Rd Item := fun l => do
  let (o, l) ← get1 l
  let (h, l) ← getStation l
  let (t, l) ← get1 l
  let (g, l) ← get2 l
  let (r, l) ← get2 l
  let (n, l) ← get2 l
  let (f, l) ← get1 l
  if o = 0 then some (.void { head := h, token := t, net := n }, l.drop 2)
  else do
    let (st, l) ← getCode stencils l
    let (m, l) ← getStationOpt l
    let ph : Bool := f / 16 % 2 = 1
    let keep := fun (x : Nat) => if ph then none else some x
    some (.chest { ordinal := o, head := if ph || h == 0 then none else some h, token := keep t, gross := keep g,
                   tare := keep r, net := keep n, short := f % 2 = 1, topups := f / 2 % 4,
                   flightLong := f / 8 % 2 = 1, stencil := st, marker := m }, l)

/-- Items while both the count and the bytes last (log 31). -/
def getItems : Nat → List Byte → Option (List Item)
  | 0, _ => some []
  | _ + 1, [] => some []
  | k + 1, l => do
      let (i, l) ← getItem l
      let r ← getItems k l
      some (i :: r)

/-- The header's opening fields. -/
def getHeadOpening : Rd (Nat × Nat × Nat × InvState) := fun l => do
  let (inv, l) ← get2 l
  let (owner, l) ← getStation l
  let (version, l) ← get2 l
  let (state, l) ← getCode invStates l
  some ((inv, owner, version, state), l)

/-- The body of a HEADER. -/
def getHeader (l : List Byte) : Option Msg := do
  let ((inv, owner, version, state), l) ← getHeadOpening l
  let (flags, l) ← get1 l
  let (batch, l) ← getStation l
  let (order, l) ← get2 l
  let (garden, l) ← getText 8 l
  let (grade, l) ← get1 l
  let (charged, l) ← getBatch l
  let (planned, l) ← get1 l
  let (entered, l) ← get1 l
  let (netTotal, l) ← getBatch l
  let (voidTotal, l) ← getBatch l
  let (voidCount, l) ← get1 l
  let (residue, l) ← getBatchOpt l
  let (endCause, l) ← getCodeOpt endCauses l
  let (adoption, l) ← getCode adoptions l
  let (lostFills, l) ← get1 l
  let (count, l) ← get1 l
  let (vh, l) ← getStation l
  let (vt, l) ← get1 l
  let (vn, _) ← get2 l
  some (.header {
    hdr := { inv := inv, owner := owner, version := version, state := state, batch := batch, order := order,
             garden := garden, grade := grade, charged := charged, planned := planned, entered := entered,
             netTotal := netTotal, voidTotal := voidTotal, voidCount := voidCount, residue := residue,
             endCause := endCause, adoption := adoption, lostFills := lostFills },
    dump := flags % 2 = 1, resumed := flags / 2 % 2 = 1,
    newVoid := if flags / 4 % 2 = 1 then some { head := vh, token := vt, net := vn } else none,
    entryCount := count })

/-- The body of a CHEST-ENTERED. The PLACEHOLDER bit of its chest flags, which no sender sets there, is passed over (R187; the
model's choice, log 122). -/
def getEntered (l : List Byte) : Option Msg := do
  let (inv, l) ← get2 l
  let (version, l) ← get2 l
  let (ordinal, l) ← get1 l
  let (head, l) ← getStation l
  let (token, l) ← get1 l
  let (gross, l) ← get2 l
  let (tare, l) ← get2 l
  let (net, l) ← get2 l
  let (f, _) ← get1 l
  some (.chestEntered { inv := inv, version := version, ordinal := ordinal, head := head, token := token,
                        gross := gross, tare := tare, net := net, short := f % 2 = 1, topups := f / 2 % 4,
                        flightLong := f / 8 % 2 = 1 })

/-- The body of a CHEST-DONE. -/
def getDone (l : List Byte) : Option Msg := do
  let (inv, l) ← get2 l
  let (token, l) ← get1 l
  let (gross, l) ← get2 l
  let (tare, l) ← get2 l
  let (net, l) ← get2 l
  let (topups, l) ← get1 l
  let (cls, l) ← getCode chestClasses l
  let (long, _) ← getFlag l
  some (.chestDone { inv := inv, token := token, gross := gross, tare := tare, net := net, topups := topups,
                     cls := cls, flightLong := long })

/-- The fields of a JOIN, valid or not. -/
def readJoin : List Byte → Option JoinRead
  | r :: st :: b :: k :: l :: _ =>
      some { roles := rolesOf r.toNat, start := codeAt joinKinds st.toNat, blender := stationAt b.toNat,
             lane1 := stationAt k.toNat, lane2 := stationAt l.toNat }
  | _ => none

/-- The fields of a PRESENCE, valid or not. -/
def readPresence : List Byte → Option PresenceRead
  | r :: st :: a :: b :: _ =>
      some { roles := rolesOf r.toNat, state := codeAt presStates st.toNat, mark := a.toNat * 256 + b.toNat }
  | _ => none

/-- What the station table reads of a body (R20, R187). -/
def heardAs (k : FrameKind) (l : List Byte) : Heard :=
  match k with
  | .join => (readJoin l).elim .other .join
  | .presence => (readPresence l).elim .other .presence
  | _ => .other

/-- The body of a frame of a kind: none where a field is not valid (R187). -/
def getBody (k : FrameKind) (l : List Byte) : Option Msg :=
  match k with
  | .join => (readJoin l).bind (fun r => r.body.map .join)
  | .presence => (readPresence l).bind (fun r => r.body.map .presence)
  | .claim => do
      let (inv, l) ← get2 l
      let (order, l) ← get2 l
      let (grade, l) ← get1 l
      let (garden, l) ← getText 8 l
      let (net, _) ← getBatch l
      some (.claim { inv := inv, order := order, grade := grade, garden := garden, net := net })
  | .consent => do
      let (inv, l) ← get2 l
      let (c, _) ← getStation l
      some (.consent { inv := inv, claimant := c })
  | .object => do
      let (inv, l) ← get2 l
      let (c, l) ← getStation l
      let (r, _) ← getCode objections l
      some (.object { inv := inv, claimant := c, reason := r })
  | .withdraw => (get2 l).map (fun p => .withdraw p.1)
  | .header => getHeader l
  | .recordBlock => do
      let (inv, l) ← get2 l
      let (v, l) ← get2 l
      let (n, l) ← get1 l
      let items ← getItems n l
      some (.recordBlock { inv := inv, version := v, items := items })
  | .recordAsk => (get2 l).map (fun p => .recordAsk p.1)
  | .chestDone => getDone l
  | .chestEntered => getEntered l
  | .chestRefused => do
      let (inv, l) ← get2 l
      let (t, l) ← get1 l
      let (r, _) ← getCode refuseReasons l
      some (.chestRefused { inv := inv, token := t, reason := r })
  | .fillVoid => do
      let (inv, l) ← get2 l
      let (t, l) ← get1 l
      let (n, _) ← get2 l
      some (.fillVoid { inv := inv, token := t, net := n })
  | .markDone => do
      let (inv, l) ← get2 l
      let (o, l) ← get1 l
      let (h, l) ← getCode hows l
      let (m, _) ← getStation l
      some (.markDone { inv := inv, ordinal := o, how := h, marker := m })
  | .markEntered => do
      let (inv, l) ← get2 l
      let (v, l) ← get2 l
      let (o, l) ← get1 l
      let (h, l) ← getCode hows l
      let (m, _) ← getStation l
      some (.markEntered { inv := inv, version := v, ordinal := o, how := h, marker := m })
  | .adopt => do
      let (inv, l) ← get2 l
      let (o, l) ← getStation l
      let (v, l) ← get2 l
      let (f, _) ← getFlag l
      some (.adopt { inv := inv, oldOwner := o, version := v, forced := f })
  | .sheetTaken => (get2 l).map (fun p => .sheetTaken p.1)
  | .leaseAsk => do
      let (p, l) ← getCode purposes l
      let (t, l) ← get1 l
      let (inv, _) ← get2 l
      some (.leaseAsk { purpose := p, token := t, inv := inv })
  | .leaseGrant => do
      let (sl, l) ← getCode slots l
      let (inv, l) ← get2 l
      let (n, _) ← get1 l
      some (.leaseGrant { slot := sl, inv := inv, lease := n })
  | .leaseDone => (get1 l).map (fun p => .leaseDone p.1)
  | .leaseEnd => do
      let (n, l) ← get1 l
      let (r, _) ← getCode leaseEndReasons l
      some (.leaseEnd { lease := n, reason := r })
  | .leaseCancel => (get1 l).map (fun p => .leaseCancel p.1)
  | .holdGo => do
      let (c, l) ← get1 l
      let (n, _) ← get1 l
      if c = 1 then some (.hold n) else if c = 2 then some (.go n) else none
  | .noted => do
      let (k, l) ← getCode frameKinds l
      let (n, l) ← get2 l
      let (r, _) ← getCode notedResults l
      some (.noted { kind := k, number := n, result := r })

/-! ## Frames -/

/-- The bytes under the check: destination to the last body byte (R188). -/
def frameContent (e : Env) (m : Msg) : List Byte :=
  put1 e.dst ++ put1 e.src ++ putCode frameKinds (msgKind m) ++ put1 (putBody m).length ++ putBody m

/-- The bytes of a frame after its sync pattern. -/
def frameBytes (e : Env) (m : Msg) : List Byte := frameContent e m ++ put2 (crc16 (frameContent e m))

/-- A whole frame: sync D4 2B, then the rest. -/
def wholeFrame (e : Env) (m : Msg) : List Byte := [0xD4#8, 0x2B#8] ++ frameBytes e m

/-- The class of a received frame (R3). -/
inductive FrameClass where
  | short | long | check | form
  | valid (k : FrameKind) (e : Env) (m : Option Msg)
  deriving DecidableEq, Repr

/-- The last two bytes hold the check over the others. -/
def checkGood (l : List Byte) : Bool :=
  let n := l.length - 2
  put2 (crc16 (l.take n)) == l.drop n

/-- The body bytes of a frame as received after sync. -/
def bodyBytes (l : List Byte) : List Byte := (l.drop 4).take (l.length - 6)

/-- R3: the class of the bytes received after sync. -/
def classify (l : List Byte) : FrameClass :=
  if l.length < 6 then .short
  else if l.length + 2 > 56 then .long
  else if !checkGood l then .check
  else
    match l with
    | d :: sr :: k :: n :: rest =>
        let body := rest.take (rest.length - 2)
        match getCode frameKinds [k] with
        | none => .form
        | some (kind, _) =>
            if n.toNat ≠ body.length ∨ !(bodyLengths kind).contains body.length ∨ d.toNat > 24 ∨ sr.toNat = 0 ∨
                sr.toNat > 24 then .form
            else .valid kind { dst := d.toNat, src := sr.toNat } (getBody kind body)
    | _ => .form

end Sys2Proof.Machine
end

