-- ==== Sys2Proof/Machine/FrontEnd.lean ====
section
/-! DEFINITION. The weighing front end (03_the_weighing_front_end.md): samples, calibration, average, stability,
OVERLOAD, SCALE_LOST and the zero. -/

namespace Sys2Proof.Machine

/-- A two's complement number of 24 bits (R187). -/
def signed24 (n : Nat) : Int := if n < 8388608 then (n : Int) else (n : Int) - 16777216

/-- The count of a whole sample word whose check is right (R51, R188). -/
def sampleCount (word : BitVec 32) (bits : Nat) : Option Int :=
  let w := word.toNat
  let b1 := w / 16777216 % 256
  let b2 := w / 65536 % 256
  let b3 := w / 256 % 256
  if bits ≥ 32 ∧ w % 256 = 165 ^^^ b1 ^^^ b2 ^^^ b3 then some (signed24 (w / 256)) else none

/-- A value held within two limits. -/
def clampInt (lo hi x : Int) : Int := max lo (min hi x)

/-- R52: the calibration. -/
def calibrate (zero : Int) (span : Nat) (avg : Int) : Int :=
  clampInt (-500000) 500000 (((avg - zero) * (span : Int)).tdiv 65536)

/-- R53: the average of a full window. -/
def average (w : List Int) : Int := (w.foldl (fun a b => a + b) 0).tdiv 4

/-- The window emptied, and with it average, weight and stability (R53, R54). -/
def FrontEnd.emptied (f : FrontEnd) : FrontEnd :=
  { f with window := [], avg := none, weight := none, count := 0, ref := none, stable := false }

/-- The weight lies within the band of the reference (R54). -/
def inBand (band : Nat) (ref : Option Int) (v : Int) : Bool :=
  match ref with
  | none => false
  | some r => decide ((v - r).natAbs ≤ band)

/-- R54: the stability test. -/
def FrontEnd.stability (f : FrontEnd) (band : Nat) (v : Int) : FrontEnd :=
  let f1 := if inBand band f.ref v then { f with count := min (f.count + 1) 12 } else { f with count := 1, ref := some v }
  { f1 with stable := decide (f1.count ≥ 12) }

/-- The zero re-taken at the averaged count: the weight becomes 0, the reference moves with it (R59, R60). -/
def FrontEnd.zeroed (f : FrontEnd) (avg weight : Int) : FrontEnd :=
  { f with zero := avg, weight := some 0, ref := f.ref.map (fun r => r - weight) }

/-- The zero tracking test (R59). -/
def FrontEnd.tracks (f : FrontEnd) (atHead : Bool) (weight : Int) : Bool :=
  atHead && f.tracking && f.stable && !f.overload && !f.lost && decide (-50 ≤ weight) && decide (weight ≤ 50)

/-- A sample within limits joins the window (R52, R53, R54, R59); the flag says that the zero was re-taken. -/
def FrontEnd.join (f : FrontEnd) (span band : Nat) (atHead : Bool) (c : Int) : FrontEnd × Bool :=
  let w := f.window ++ [c]
  let w4 := w.drop (w.length - 4)
  if w4.length < 4 then ({ f with window := w4 }, false)
  else
    let a := average w4
    let v := calibrate f.zero span a
    let f1 := { f with window := w4, avg := some a, weight := some v }.stability band v
    if f1.tracks atHead v then (f1.zeroed a v, true) else (f1, false)

/-- An accepted sample (R51, R55, R56). -/
def FrontEnd.accept (f : FrontEnd) (cfg : Cfg) (atHead : Bool) (c : Int) : FrontEnd × Bool :=
  let f0 := { f with lost := false, loss := .running Config.lossTime }
  if c > (cfg.overload : Int) ∨ c < -(cfg.overload : Int) then
    (if f0.overload then f0 else { f0.emptied with overload := true }, false)
  else ({ f0 with overload := false }.join cfg.span cfg.band atHead c)

/-- The reading that the event left (R57). -/
def readingOf (old new : FrontEnd) (zeroTaken : Bool) : Reading :=
  { weight := new.weight, stable := new.stable, becameStable := new.stable && !old.stable,
    becameUnstable := old.stable && !new.stable, overload := new.overload,
    overloadMark := new.overload != old.overload, lost := new.lost, lostMark := new.lost != old.lost,
    zeroTaken := zeroTaken }

/-- The loss timer expired (R56). -/
def FrontEnd.silent (f : FrontEnd) : FrontEnd := { f.emptied with lost := true, loss := .stopped }

/-- The front end is active (chapter 3). -/
def State.weighs (s : State) : Bool := s.working && (s.cfg.roles.blend || s.cfg.roles.head)

/-- The user of the readings (R57). -/
def State.scaleUser (s : State) : Block := if s.cfg.roles.head then .head else .blend

/-- The front end changed; its user is handed the reading. -/
def State.handReading (s : State) (f : FrontEnd) (zeroTaken : Bool) (flightMs : Nat) : State × Jobs :=
  ({ s with fe := f }, [(s.scaleUser, .reading (readingOf s.fe f zeroTaken) flightMs)])

/-- SAMPLE (R51). -/
def State.sample (s : State) (word : BitVec 32) (bits flightMs : Nat) : State × Jobs :=
  if s.weighs then
    match sampleCount word bits with
    | none => (s, [])
    | some c =>
        let r := s.fe.accept s.cfg s.cfg.roles.head c
        s.handReading r.1 r.2 flightMs
  else (s, [])

/-- LOSS_TIMER_EXPIRY (R56). -/
def State.lossExpired (s : State) : State × Jobs :=
  if s.weighs && s.fe.loss.on then s.handReading s.fe.silent false 0 else (s, [])

/-- R60: ZERO; the new front end where it is answered OK. -/
def State.zeroAnswer (s : State) : PortAnswer × Option FrontEnd :=
  let idle := s.head.state == .stopped || s.head.state == .empty || s.head.state == .held
  if s.presence || !idle then (.state, none)
  else if s.fe.overload || s.fe.lost || !s.fe.stable then (.state, none)
  else
    match s.fe.avg, s.fe.weight with
    | some a, some w => if w < -2000 ∨ w > 2000 then (.range, none) else (.ok, some (s.fe.zeroed a w))
    | _, _ => (.state, none)

end Sys2Proof.Machine
end

