-- ==== Sys2Proof/Machine/ConfigLoad.lean ====
section
/-! DEFINITION. The configuration memory read at a load: its tests, the configuration it holds and the width checks
of layouts (R146, R180, R190). `g` is the byte at an offset. -/

namespace Sys2Proof.Machine

/-- A memory image: the byte at an offset. -/
abbrev Image := Nat → Byte

/-- One byte as a number. -/
def at1 (g : Image) (o : Nat) : Nat := (g o).toNat
/-- Two bytes. -/
def at2 (g : Image) (o : Nat) : Nat := at1 g o * 256 + at1 g (o + 1)
/-- Three bytes. -/
def at3 (g : Image) (o : Nat) : Nat := at1 g o * 65536 + at1 g (o + 1) * 256 + at1 g (o + 2)
/-- The bytes of a field. -/
def atBytes (g : Image) (o w : Nat) : List Byte := (List.range w).map (fun k => g (o + k))
/-- A text with at least one character. -/
def goodText (l : List Byte) : Bool := textValid l && !(textOf l).isEmpty
/-- A number within limits. -/
def within (lo hi n : Nat) : Bool := decide (lo ≤ n) && decide (n ≤ hi)

/-! ## Values out of range (R180, R190) -/

/-- One item tested: its offset and whether it is good. -/
abbrev Test := Nat × Bool

/-- Tested at every station, before the role blocks. The first number above the last is a fault of the first (log
35). -/
def commonTests (g : Image) : List Test :=
  let r := rolesOf (at1 g 3)
  [(2, within 1 24 (at1 g 2)),
   (3, (r.blend || r.head || r.mark || r.paper) && !(r.blend && r.head)),
   (4, within 0 3 (at1 g 4)),
   (5, [4, 8, 16, 32].contains (at1 g 5)),
   (6, within 1 60000 (at2 g 6) && (!within 1 60000 (at2 g 8) || decide (at2 g 6 ≤ at2 g 8))),
   (8, within 1 60000 (at2 g 8)),
   (0xA, goodText (atBytes g 0xA 4))]

/-- The front end's values, at BLEND or HEAD. -/
def scaleTests (g : Image) : List Test :=
  [(0x16, true), (0x19, within 1 65535 (at2 g 0x19)), (0x1B, within 1 8388607 (at3 g 0x1B)),
   (0x1E, within 1 100 (at1 g 0x1E))]

/-- The entries of the chute table up to the first with head 0; fuel is the entries left. -/
def chuteFrom (g : Image) : Nat → Nat → List (Nat × Nat)
  | 0, _ => []
  | k + 1, o => if at1 g o = 0 then [] else (at1 g o, at1 g (o + 1)) :: chuteFrom g k (o + 2)

/-- Each entry of the chute table against those before it (R88). -/
def chuteTests (self : Nat) : Nat → List (Nat × Nat) → List (Nat × Nat) → List Test
  | _, _, [] => []
  | o, before, e :: l =>
      (o, within 1 24 e.1 && e.1 != self && within 1 6 e.2 &&
        before.all (fun b => b.1 != e.1 && b.2 != e.2)) :: chuteTests self (o + 2) (before ++ [e]) l

/-- The values of the blender before the chute table. -/
def blendTests (g : Image) : List Test :=
  let chute := chuteFrom g 6 0x24
  [(0x1F, within 0 5000 (at2 g 0x1F)), (0x21, within 1 50000 (at2 g 0x21)), (0x23, within 4 60 (at1 g 0x23)),
   (0x24, !chute.isEmpty)] ++ chuteTests (at1 g 2) 0x24 [] chute

/-- The values of the head. -/
def headTests (g : Image) : List Test :=
  [(0x30, within 1 24 (at1 g 0x30) && at1 g 0x30 != at1 g 2), (0x31, within 0 11 (at1 g 0x31)),
   (0x32, within 1 5000 (at2 g 0x32)), (0x34, within 1 5000 (at2 g 0x34)), (0x36, within 0 (at2 g 0x34) (at2 g 0x36)),
   (0x38, within 0 3 (at1 g 0x38))]

/-- The values of the marker. -/
def markTests (g : Image) : List Test :=
  [(0x39, within 1 24 (at1 g 0x39) && at1 g 0x39 != at1 g 2),
   (0x3A, within 0 24 (at1 g 0x3A) && at1 g 0x3A != at1 g 2 && at1 g 0x3A != at1 g 0x39)]

/-- One grade record. -/
def gradeTests (g : Image) (k : Nat) : List Test :=
  let o := 0x40 + 20 * k
  [(o, within 1 65535 (at2 g o)), (o + 2, within 0 5000 (at2 g (o + 2))), (o + 4, within 0 5000 (at2 g (o + 4))),
   (o + 8, within 0 5000 (at2 g (o + 8))), (o + 10, within 0 (at2 g o) (at2 g (o + 10))),
   (o + 12, goodText (atBytes g (o + 12) 6)), (o + 18, within 1 4 (at1 g (o + 18)))]

/-- The field of a code. -/
def fieldOf (n : Nat) : Option FieldName := if n = 0 then none else fieldNames[n - 1]?

/-- A slot of type 2 is good. -/
def goodField (g : Image) (o : Nat) : Bool :=
  match fieldOf (at1 g (o + 1)) with
  | none => false
  | some f => within 0 12 (at1 g (o + 2)) &&
      (at1 g (o + 3) / 2 % 2 = 0 || f == .net || f == .station)

/-- The slots of a line up to its end; fuel is the slots left. -/
def lineTests (g : Image) : Nat → Nat → List Test
  | 0, _ => []
  | k + 1, o =>
      match at1 g o with
      | 0 => []
      | 1 => (o, goodText (atBytes g (o + 1) 8)) :: lineTests g k (o + 10)
      | 2 => (o, goodField g o) :: lineTests g k (o + 10)
      | _ => [(o, false)]

/-- One layout: its line count, then its lines. -/
def layoutTests (g : Image) (k : Nat) : List Test :=
  let o := 0x130 + 241 * k
  let n := at1 g o
  (o, within 1 4 n) :: (List.range (min n 4)).flatMap (fun j => lineTests g 6 (o + 1 + 60 * j))

/-- Every test of order 3, in ascending offset (R190). -/
def valueTests (g : Image) : List Test :=
  let r := rolesOf (at1 g 3)
  commonTests g ++ (if r.blend then [(0xE, goodText (atBytes g 0xE 8))] else []) ++
    (if r.blend || r.head then scaleTests g else []) ++ (if r.blend then blendTests g else []) ++
    (if r.head then headTests g else []) ++ (if r.mark then markTests g else []) ++
    (List.range 12).flatMap (gradeTests g) ++ (List.range 4).flatMap (layoutTests g)

/-- The fault of a memory that answers, or none (R180). -/
def memoryFault (m : List Host.Cell) : Option CfgFault :=
  let g : Image := Memory.read m
  if at2 g 0 ≠ 0x4C53 then some .signature
  else if crc16 (Memory.readMany m 2 2044) ≠ at2 g 0x7FE then some .check
  else match (valueTests g).find? (fun t => !t.2) with
    | none => none
    | some t => some (.value t.1)

/-! ## The configuration of a good image -/

/-- One grade record (R190). -/
def gradeAt (g : Image) (k : Nat) : Grade :=
  let o := 0x40 + 20 * k
  { target := at2 g o, underTol := at2 g (o + 2), overTol := at2 g (o + 4), tareNom := at2 g (o + 6),
    tareBand := at2 g (o + 8), shortMin := at2 g (o + 10), name := textOf (atBytes g (o + 12) 6),
    layout := at1 g (o + 18) }

/-- The items of a line (R190). -/
def itemsAt (g : Image) : Nat → Nat → List LayoutItem
  | 0, _ => []
  | k + 1, o =>
      match at1 g o with
      | 1 => .lit (textOf (atBytes g (o + 1) 8)) :: itemsAt g k (o + 10)
      | 2 =>
          match fieldOf (at1 g (o + 1)) with
          | none => []
          | some f =>
              .field f (at1 g (o + 2)) (at1 g (o + 3) % 2 = 1) (at1 g (o + 3) / 2 % 2 = 1) :: itemsAt g k (o + 10)
      | _ => []

/-- One layout (R190). -/
def layoutAt (g : Image) (k : Nat) : List (List LayoutItem) :=
  let o := 0x130 + 241 * k
  (List.range (min (at1 g o) 4)).map (fun j => itemsAt g 6 (o + 1 + 60 * j))

/-- The configuration an image holds (R190). Values of a role the station does not hold are not used. -/
def cfgAt (g : Image) : Cfg :=
  { number := at1 g 2, roles := rolesOf (at1 g 3), retryK := at1 g 4, scale := at1 g 5, first := at2 g 6,
    last := at2 g 8, season := textOf (atBytes g 0xA 4), garden := textOf (atBytes g 0xE 8),
    zero := signed24 (at3 g 0x16), span := at2 g 0x19, overload := at3 g 0x1B, band := at1 g 0x1E, flight := at2 g 0x1F,
    drumEmpty := at2 g 0x21, mixTurns := at1 g 0x23, chute := chuteFrom g 6 0x24, blender := at1 g 0x30,
    defGrade := at1 g 0x31, headEmpty := at2 g 0x32, dribble := at2 g 0x34, allowance := at2 g 0x36, topups := at1 g 0x38,
    lane1 := at1 g 0x39, lane2 := if at1 g 0x3A = 0 then none else some (at1 g 0x3A),
    grades := (List.range 12).map (gradeAt g), layouts := (List.range 4).map (layoutAt g) }

/-! ## Width checks (R146) -/

/-- The greatest natural width of a field. -/
def naturalWidth : FieldName → Nat
  | .garden => 8
  | .grade => 6
  | .invoice => 5
  | .season => 4
  | .batch => 5
  | .chest => 3
  | .net => 6
  | .gross => 6
  | .tare => 6
  | .station => 2

/-- A field's width is not 0 and less than its greatest natural width. -/
def tooNarrow : LayoutItem → Bool
  | .lit _ => false
  | .field f w _ _ => decide (w ≠ 0) && decide (w < naturalWidth f)

/-- The worst-case width of an item. -/
def worstWidth : LayoutItem → Nat
  | .lit t => t.length
  | .field f w _ _ => if w = 0 then naturalWidth f else w

/-- A layout is rejected. -/
def layoutRejected (l : List (List LayoutItem)) : Bool :=
  l.any (fun line => line.any tooNarrow || decide ((line.map worstWidth).foldl (fun a b => a + b) 0 > 20))

/-- The grades whose layout is rejected, in ascending index. -/
def Cfg.rejected (c : Cfg) : List Nat :=
  (List.range c.grades.length).filter (fun k =>
    match c.grades[k]? with
    | Option.none => false
    | some r => layoutRejected ((c.layouts[r.layout - 1]?).getD []))

/-- The load's result: the fault, or the configuration (R180). A memory that does not answer reads as a wrong
signature. -/
def loadMemory (m : List Host.Cell) (answers : Bool) : CfgFault ⊕ Cfg :=
  if answers then
    match memoryFault m with
    | some f => .inl f
    | none => .inr (cfgAt (Memory.read m))
  else .inl .signature

end Sys2Proof.Machine
end

