-- ==== Sys2Proof/Machine/Arbiter.lean ====
section
/-! DEFINITION. The lease arbiter (05_chute_leases.md). -/

namespace Sys2Proof.Machine

/-- The lease number after the counter's (R88). -/
def nextLease (c : Nat) : Nat := if c ≥ 255 then 1 else c + 1

/-- The diverter position of a head (R88). -/
def Cfg.position (c : Cfg) (head : Nat) : Option Nat := (c.chute.find? (fun p => p.1 == head)).map (fun p => p.2)

/-- The head stands in the chute table (R89). -/
def Cfg.inChute (c : Cfg) (head : Nat) : Bool := c.chute.any (fun p => p.1 == head)

/-- LEASE-GRANT for a slot, a confirmed exchange (R92). -/
def grantAct (slot : Slot) (l : Lease) : Act :=
  .openEx (.leaseGrant l.number) (.leaseGrant { slot := slot, inv := l.inv, lease := l.number }) l.head l.head false

/-- LEASE-END, a job frame without an exchange (R96). -/
def endAct (head lease : Nat) (r : LeaseEndReason) : Act :=
  .send (jobFrame head (.leaseEnd { lease := lease, reason := r }) .plain)

/-- NOTED to a head (R90, R94, R95). -/
def noteHead (head : Nat) (k : FrameKind) (n : Nat) (r : NotedResult) : Act :=
  .send (replyFrame head (notedMsg k n r) .plain)

/-- A lease enters CURRENT: diverter, gate, grant and notice (R92, R93). -/
def Arb.enterCurrent (a : Arb) (cfg : Cfg) (l : Lease) : Eff Arb :=
  Eff.mk' { a with current := some l, counter := l.number, gate := a.openFlag,
                   diverter := match cfg.position l.head with
                     | none => a.diverter
                     | some p => some p }
    [grantAct .current l, .post .inv (.grantNotice l)]

/-- CURRENT filled from the queue front while the flag is OPEN (R92). -/
def Arb.fillCurrent (a : Arb) (cfg : Cfg) : Eff Arb :=
  match a.openFlag, a.current, a.queue with
  | true, none, q :: r =>
      ({ a with queue := r } : Arb).enterCurrent cfg
        { head := q.head, token := q.token, purpose := q.purpose, inv := a.batch.getD 0, number := nextLease a.counter }
  | _, _, _ => Eff.pure a

/-- NEXT filled from the queue front while the flag is OPEN and CURRENT held (R92). -/
def Arb.fillNext (a : Arb) : Eff Arb :=
  match a.openFlag, a.current, a.next, a.queue with
  | true, some _, none, q :: r =>
      let l : Lease := { head := q.head, token := q.token, purpose := q.purpose, inv := a.batch.getD 0,
                         number := nextLease a.counter }
      Eff.mk' { a with queue := r, next := some l, counter := l.number } [grantAct .next l]
  | _, _, _, _ => Eff.pure a

/-- The slots are filled, CURRENT before NEXT (R92). -/
def Arb.fill (a : Arb) (cfg : Cfg) : Eff Arb := (a.fillCurrent cfg).andThen (fun a => a.fillNext)

/-- CURRENT is released: NEXT is promoted under a new number, or the gate closes; then the slots are filled (R94). -/
def Arb.release (a : Arb) (cfg : Cfg) : Eff Arb :=
  match a.next with
  | some l =>
      (({ a with current := none, next := none } : Arb).enterCurrent cfg { l with number := nextLease a.counter }).andThen
        (fun a => a.fill cfg)
  | none => ({ a with current := none, gate := false } : Arb).fill cfg

/-- NEXT is freed and filled again (R95). -/
def Arb.freeNext (a : Arb) (cfg : Cfg) : Eff Arb := ({ a with next := none } : Arb).fill cfg

/-- What a head holds of the chute: CURRENT, NEXT, or a place in the queue. -/
def Arb.holdsCurrent (a : Arb) (head : Nat) : Bool := match a.current with
  | none => false
  | some l => l.head == head
/-- The head holds NEXT. -/
def Arb.holdsNext (a : Arb) (head : Nat) : Bool := match a.next with
  | none => false
  | some l => l.head == head

/-- The queue with an ask in its place (R91): a TOPUP stands before every FILL, a deferred one too, against R96's closing
words (log 71). -/
def placeAsk (q : List Ask) (k : Ask) : List Ask :=
  match k.purpose with
  | .fill => q ++ [k]
  | .topup => q.takeWhile (fun e => e.purpose == .topup) ++ [k] ++ q.dropWhile (fun e => e.purpose == .topup)

/-- The ask is placed and the slots filled; a grant to the head in the same event is the answer (R90). -/
def Arb.queueAsk (a : Arb) (cfg : Cfg) (k : Ask) : Eff Arb :=
  let e := ({ a with queue := placeAsk a.queue k } : Arb).fill cfg
  if e.st.holdsCurrent k.head || e.st.holdsNext k.head then e
  else e.act (noteHead k.head .leaseAsk k.token .queued)

/-- A TOPUP is for the blend sequencer's batch invoice, the claim FIRM and stop pending clear (R90). -/
def Blend.serves (b : Blend) (inv : Nat) : Bool :=
  b.stop.isNone && match b.order with
    | none => false
    | some o => o.claim == .firm && o.batch == some inv

/-- The lease that a head holds in a slot, if any, with the slot's name. -/
def Arb.slotOf (a : Arb) (head : Nat) : Option (Slot × Lease) :=
  if a.holdsCurrent head then a.current.map (fun l => (.current, l))
  else if a.holdsNext head then a.next.map (fun l => (.next, l))
  else none

/-- The slot is freed: CURRENT as by LEASE-DONE, NEXT as by LEASE-CANCEL (R94, R95). -/
def Arb.freeSlot (a : Arb) (cfg : Cfg) : Slot → Eff Arb
  | .current => a.release cfg
  | .next => a.freeNext cfg

/-- R89, R90: LEASE-ASK. -/
def Arb.takeAsk (a : Arb) (s : State) (src : Nat) (b : LeaseAskBody) : Eff Arb :=
  let k : Ask := { head := src, purpose := b.purpose, token := b.token }
  if !s.cfg.inChute src then Eff.mk' a [noteHead src .leaseAsk b.token .notHeld]
  else if b.purpose == .topup && !s.blend.serves b.inv then Eff.mk' a [endAct src 0 .exhausted]
  else
    match a.slotOf src with
    | some (slot, l) =>
        if l.token = b.token ∧ l.purpose = b.purpose then Eff.mk' a [grantAct slot l]
        else (a.freeSlot s.cfg slot).andThen (fun a => a.queueAsk s.cfg k)
    | none =>
        if a.queue.contains k then Eff.mk' a [noteHead src .leaseAsk b.token .queued]
        else ({ a with queue := a.queue.filter (fun e => e.head != src) } : Arb).queueAsk s.cfg k

/-- The slot in which a head's lease fits `p`. -/
def Arb.slotWhere (a : Arb) (head : Nat) (p : Lease → Bool) : Option Slot :=
  match a.slotOf head with
  | none => none
  | some (slot, l) => if p l then some slot else none

/-- R89, R94: LEASE-DONE. -/
def Arb.takeDone (a : Arb) (s : State) (src n : Nat) : Eff Arb :=
  if !s.cfg.inChute src then Eff.mk' a [noteHead src .leaseDone n .notHeld]
  else
    let e := match a.slotWhere src (fun l => l.number == n) with
      | some slot => a.freeSlot s.cfg slot
      | none => Eff.pure a
    e.act (noteHead src .leaseDone n .ok)

/-- R89, R95: LEASE-CANCEL. -/
def Arb.takeCancel (a : Arb) (s : State) (src t : Nat) : Eff Arb :=
  if !s.cfg.inChute src then Eff.mk' a [noteHead src .leaseCancel t .notHeld]
  else
    let e := match a.slotWhere src (fun l => l.token == t) with
      | some slot => a.freeSlot s.cfg slot
      | none => Eff.pure { a with queue := a.queue.filter (fun k => !(k.head == src && k.token == t)) }
    e.act (noteHead src .leaseCancel t .ok)

/-- R92: discharge has begun. -/
def Arb.begun (a : Arb) (s : State) (inv : Nat) : Eff Arb :=
  ({ a with openFlag := true, batch := some inv } : Arb).fill s.cfg

/-- R96: the batch has ended. -/
def Arb.ended (a : Arb) (cause : LeaseEndReason) : Eff Arb :=
  if !a.openFlag then Eff.pure a
  else
    let cur : List Act := match a.current with
      | none => []
      | some l => [endAct l.head l.number cause]
    let front : List Ask := match a.next with
      | some l => if l.purpose == .fill then [{ head := l.head, purpose := .fill, token := l.token }] else []
      | none => []
    let nxt : List Act := match a.next with
      | none => []
      | some l => [endAct l.head l.number (if l.purpose == .fill then .deferred else cause)]
    let tops := (a.queue.filter (fun k => k.purpose == .topup)).map (fun k => endAct k.head 0 cause)
    Eff.mk' { a with current := none, next := none, gate := false, openFlag := false, batch := none,
                     queue := front ++ a.queue.filter (fun k => k.purpose == .fill) } (cur ++ nxt ++ tops)

/-- The slot and lease of a lease number. -/
def Arb.slotNumbered (a : Arb) (n : Nat) : Option (Slot × Lease) :=
  match a.current.filter (fun l => l.number == n) with
  | some l => some (.current, l)
  | none => (a.next.filter (fun l => l.number == n)).map (fun l => (.next, l))

/-- The slot of a lease number is freed as by LEASE-CANCEL (R97); what is queued first stands before the grants (log 74). -/
def Arb.freeNumber (a : Arb) (s : State) (n : Nat) (before : Lease → List Act) : Eff Arb :=
  match a.slotNumbered n with
  | none => Eff.pure a
  | some (slot, l) => (Eff.mk' a (before l)).andThen (fun a => a.freeSlot s.cfg slot)

/-- R97: the outcome of a grant. NOTED with QUEUED or FULL confirms it and lets the lease stand (log 72). -/
def Arb.takeExEnd (a : Arb) (s : State) (x : Exchange) (how : ExEnd) (confirm : Option Msg) : Eff Arb :=
  match x.key with
  | .leaseGrant n =>
      match how with
      | .confirmed =>
          match confirm with
          | some (.noted b) => if b.result == .notHeld then a.freeNumber s n (fun _ => []) else Eff.pure a
          | _ => Eff.pure a
      | .noConfirm | .sendFailed =>
          a.freeNumber s n (fun l =>
            [.report (Report.of .leaseLost (some l.inv) none (some l.head) .absent), endAct l.head l.number .headAbsent])
      | _ => Eff.pure a
  | _ => Eff.pure a

/-- The head's lease or queue entry is removed (R98); with `notify` a LEASE-END(HEAD_ABSENT) goes to it, before the grants
of the slot it frees (log 74). -/
def Arb.removeHead (a : Arb) (s : State) (head : Nat) (notify : Bool) : Eff Arb :=
  let note := fun (n : Nat) => if notify then [endAct head n .headAbsent] else []
  match a.slotOf head with
  | some (slot, l) => (Eff.mk' a (note l.number)).andThen (fun a => a.freeSlot s.cfg slot)
  | none =>
      if a.queue.any (fun k => k.head == head) then
        Eff.mk' { a with queue := a.queue.filter (fun k => k.head != head) } (note 0)
      else Eff.pure a

/-- R98: a station-table event. -/
def Arb.takePeer (a : Arb) (s : State) (n : Nat) (old new : PeerState) (via : Via) : Eff Arb :=
  if !s.cfg.inChute n then Eff.pure a
  else
    match new with
    | .absent => a.removeHead s n true
    | .joining =>
        match via with
        | .joinFrame _ _ => a.removeHead s n false
        | .presenceFrame => if old == .present then a.removeHead s n false else Eff.pure a
        | .other => Eff.pure a
    | _ => Eff.pure a

/-- Slots and queue emptied, gate closed, flag SHUT (R99, R100). -/
def Arb.cleared (a : Arb) : Arb :=
  { a with openFlag := false, batch := none, current := none, next := none, queue := [], gate := false }

/-- The arbiter's part in an event. -/
def takeArb (s : State) (e : Ev) : Eff Arb :=
  let a := s.arb
  match e with
  | .frame src _ m _ =>
      match m with
      | .leaseAsk b => a.takeAsk s src b
      | .leaseDone n => a.takeDone s src n
      | .leaseCancel t => a.takeCancel s src t
      | _ => Eff.pure a
  | .dischargeBegun n => a.begun s n
  | .batchEnded c => a.ended c
  | .exEnded x how confirm _ => a.takeExEnd s x how confirm
  | .peer n old new via => a.takePeer s n old new via
  | .joinDone => Eff.mk' a [endAct 0 0 .blenderRestart]
  | .wentOffline => Eff.pure a.cleared
  | _ => Eff.pure a

end Sys2Proof.Machine
end

