-- ==== Sys2Proof/Machine/Entering.lean ====
section
/-! DEFINITION. What the owner of an invoice does with grant notices, chest reports, voids and marks, and how the
invoice ends (07_entering_chests_at_the_owner.md; closure R158). All decisions read the issued view (R35). -/

namespace Sys2Proof.Machine

/-! ## The fill list -/

/-- The lost-fill count risen by `k`, saturating (R25). -/
def lostUp (k n : Nat) : Nat := min (n + k) 255

/-- The lost-fill count fallen by one; a count that has reached 255 is not lowered again (R25). One that a warm start left
at 0 beside a LOST entry stays 0 (log 80). -/
def lostDown (n : Nat) : Nat := if n ≥ 255 then n else n - 1

/-- HEADER with the lost-fill count changed by an event; none is an event that does not change it (R125). Where an event
changes it and the count cannot move, kept at 255 or at 0, the HEADER is queued all the same (log 94). -/
def Inv.lostHeader (i : Inv) (n : Nat) : Option (Nat → Nat) → Eff Inv
  | none => Eff.pure i
  | some f => i.issueHdr n (fun h => { h with lostFills := f h.lostFills })

/-- The fill is that head's and token's. -/
def Fill.is (f : Fill) (head token : Nat) : Bool := f.head == head && f.token == token

/-- A LOST entry of that head and token stands in the list. -/
def OwnerRec.holdsLost (o : OwnerRec) (head token : Nat) : Bool := o.fills.any (fun f => f.is head token && f.lost)

/-- The fill of a head and token leaves the list (R125). -/
def Inv.dropFill (i : Inv) (n head token : Nat) : Inv :=
  i.updOwn n (fun o => { o with fills := o.fills.filter (fun f => !f.is head token) })

/-- How the lost-fill count changes when the fill of a head and token is resolved or found again (R125, R130). -/
def OwnerRec.found (o : OwnerRec) (head token : Nat) : Option (Nat → Nat) :=
  if o.holdsLost head token then some lostDown else none

/-- The short slot is that head's and token's. -/
def OwnerRec.slotIs (o : OwnerRec) (head token : Nat) : Bool :=
  match o.short with
  | none => false
  | some k => k.head == head && k.token == token

/-- No fill is OUTSTANDING but perhaps the short slot's (R131). -/
def OwnerRec.noOther (o : OwnerRec) : Bool := o.fills.all (fun f => f.lost || o.slotIs f.head f.token)

/-- No fill is OUTSTANDING (R134). -/
def OwnerRec.noOutstanding (o : OwnerRec) : Bool := o.fills.all (fun f => f.lost)

/-! ## The tests -/

/-- The CHEST-ENTERED of a chest entry (R129). -/
def chestMsg (n v : Nat) (c : Chest) : Msg :=
  .chestEntered { inv := n, version := v, ordinal := c.ordinal, head := c.head.getD 0, token := c.token.getD 0,
                  gross := c.gross.getD 0, tare := c.tare.getD 0, net := c.net.getD 0, short := c.short,
                  topups := c.topups, flightLong := c.flightLong }

/-- The chest is entered: appended to the view, CHEST-ENTERED at the next version, its entry version kept (R129). -/
def Inv.enter (i : Inv) (n : Nat) (c : Chest) : Eff Inv :=
  let e := i.issue n (fun r => r.addChest c) (fun r => chestMsg n r.hdr.version c)
  { e with st := e.st.updOwn n (fun o => { o with entryVer := o.entryVer ++ [(c.ordinal, o.issued)] }) }

/-- R131: the short-entry test. At the last version the entry is refused with TABLE_OVERFLOW (R35, log 21). -/
def Inv.shortTest (i : Inv) (n : Nat) : Eff Inv :=
  match i.owned n with
  | none => Eff.pure i
  | some o =>
      match o.short with
      | none => Eff.pure i
      | some k =>
          if !k.entering && o.view.hdr.state == .ending && o.noOther && !o.settle.on then
            if o.issued ≥ Config.maxVersion then Eff.mk' i [overflowReport n]
            else
            let c : Chest :=
              { ordinal := o.view.hdr.entered + 1, head := some k.head, token := some k.token, gross := some k.gross,
                tare := some k.tare, net := some k.net, short := true, topups := k.topups, flightLong := k.flightLong,
                stencil := .pending, marker := none }
            let e := (i.dropFill n k.head k.token).enter n c
            { e with st := e.st.updOwn n (fun o => { o with short := some { k with entering := true } }) }
          else Eff.pure i

/-- R158: the closure test; the issue refuses it at the last version (R35, log 21). -/
def Inv.closeTest (i : Inv) (n : Nat) : Eff Inv :=
  match i.owned n with
  | none => Eff.pure i
  | some o =>
      if o.view.hdr.state == .marking && o.view.chests.all (fun c => c.stencil != .pending) then
        i.issueHdr n (fun h => { h with state := .closed })
      else Eff.pure i

/-- R134: the end test, followed by the closure test where the invoice moves (R158); the issue refuses it at the last
version (R35, log 21). -/
def Inv.endTest (i : Inv) (n : Nat) : Eff Inv :=
  match i.owned n with
  | none => Eff.pure i
  | some o =>
      if o.view.hdr.state == .ending && o.noOutstanding && o.short.isNone && !o.settle.on then
        (i.issueHdr n (fun h => { h with state := .marking })).andThen (fun i => i.closeTest n)
      else Eff.pure i

/-- How the owner ends an event: the short-entry test, the HEADER of a changed lost-fill count, which comes after any
CHEST-ENTERED of the event, and the end test (R125, R131, R134). -/
def Inv.conclude (i : Inv) (n : Nat) (lost : Option (Nat → Nat)) : Eff Inv :=
  ((i.shortTest n).andThen (fun i => i.lostHeader n lost)).andThen (fun i => i.endTest n)

/-- The short-entry test and the end test (R131, R134). -/
def Inv.tests (i : Inv) (n : Nat) : Eff Inv := i.conclude n none

/-! ## Grant notices and lost fills -/

/-- The new fill list and the change of the lost-fill count, +1, 0 or −1 (R126). The list keeps the order in which its entries
were made, a replaced entry its place (the model's choice, log 118). -/
def grantFill (fills : List Fill) (head token : Nat) : List Fill × Int :=
  let fresh : Fill := { head := head, token := token, leases := 1, lost := false }
  match fills.find? (fun f => f.head == head) with
  | none => (fills ++ [fresh], 0)
  | some f =>
      if f.token = token then
        (fills.map (fun g => if g.head == head then { g with leases := min (g.leases + 1) 255, lost := false } else g),
          if f.lost then -1 else 0)
      else (fills.map (fun g => if g.head == head then fresh else g), if f.lost then 0 else 1)

/-- A grant notice (R126). -/
def Inv.takeGrant (i : Inv) (l : Lease) : Eff Inv :=
  match i.owned l.inv with
  | none => Eff.pure i
  | some o =>
      if o.view.hdr.state == .opened then
        let r := grantFill o.fills l.head l.token
        let i' := i.updOwn l.inv (fun o => { o with fills := r.1 })
        i'.lostHeader l.inv (if r.2 = 1 then some (lostUp 1) else if r.2 = -1 then some lostDown else none)
      else Eff.pure i

/-- The OUTSTANDING entries that fit `p` become LOST, but not the short slot's; the count rises by one for each, and
the tests are made (R127). -/
def Inv.loseFills (i : Inv) (n : Nat) (p : Fill → Bool) : Eff Inv :=
  match i.owned n with
  | none => Eff.pure i
  | some o =>
      let hit := fun (f : Fill) => p f && !f.lost && !o.slotIs f.head f.token
      let k := (o.fills.filter hit).length
      (i.updOwn n (fun o => { o with fills := o.fills.map (fun f => if hit f then { f with lost := true } else f) })
        ).conclude n (if k = 0 then none else some (lostUp k))

/-- The owned invoices. -/
def Inv.ownedNums (i : Inv) : List Nat := (i.table.filter (fun e => e.own.isSome)).map Entry.num

/-- R127: a head went ABSENT or restarted; the owned invoices follow in the order of the table (log 98). -/
def Inv.headGone (i : Inv) (head : Nat) : Eff Inv :=
  Eff.each (fun n (i : Inv) =>
    match i.owned n with
    | none => Eff.pure i
    | some o =>
        if o.fills.any (fun f => f.head == head && !f.lost && !o.slotIs f.head f.token) then
          i.loseFills n (fun f => f.head == head)
        else Eff.pure i) i.ownedNums i

/-! ## Chest reports -/

/-- CHEST-REFUSED, a job frame to the source (R128). -/
def refuse (dst n token : Nat) (r : RefuseReason) : Act :=
  .send (jobFrame dst (.chestRefused { inv := n, token := token, reason := r }) .plain)

/-- A refusal by the owner resolves the fill; the tests follow the resolution (R128, R131). It does so for the void of a
held short too, whose slot stays HELD (log 81). The model's choices: the tests follow a refusal that finds no fill too
(log 109), and a LOST fill refused while the closing HEADER is still outstanding lowers the lost-fill count (log 108). -/
def Inv.refuseFill (i : Inv) (n src token : Nat) (r : RefuseReason) : Eff Inv :=
  match i.owned n with
  | none => Eff.mk' i [refuse src n token r]
  | some o => (Eff.mk' (i.dropFill n src token) [refuse src n token r]).andThen (fun i => i.conclude n (o.found src token))

/-- The chest entry of a head and token. -/
def Rec.chestOf (r : Rec) (head token : Nat) : Option Chest :=
  r.chests.find? (fun c => c.head == some head && c.token == some token)

/-- The void record of a head and token. -/
def Rec.voidOf (r : Rec) (head token : Nat) : Option VoidRec :=
  r.voids.find? (fun v => v.head == head && v.token == token)

/-- A version kept for an ordinal. -/
def verOf (l : List (Nat × Nat)) (o : Nat) : Option Nat := (l.find? (fun p => p.1 == o)).map (fun p => p.2)

/-- The frame of invoice `n` at version `v` is still queued, or held for the versioned re-send. -/
def stillQueued (s : State) (o : OwnerRec) (n : Nat) (m : Msg) : Bool :=
  (s.line.txq ++ o.resend).any (fun f => f.msg == m && !f.cancel &&
    match f.tag with
    | .versioned k _ => k == n
    | .repeated k _ => k == n
    | _ => false)

/-- A frame of the owner sent once more, absorbed into one still queued (R128, R133). -/
def Inv.again (i : Inv) (s : State) (n v : Nat) (m : Msg) : Eff Inv :=
  match i.owned n with
  | none => Eff.pure i
  | some o => if stillQueued s o n m then Eff.pure i else i.sendOwned n (jobFrame 0 m (.repeated n v))

/-- The entry version of an ordinal (R125). Every entry with a head has one; in a state that no run reaches, where it is
missing, it is the free value of log 20. -/
def OwnerRec.entryVersion (o : OwnerRec) (n ordinal : Nat) : Nat :=
  (verOf o.entryVer ordinal).getD (Config.entryVersion n ordinal % (Config.maxVersion + 1))

/-- The mark version of an ordinal that is marked, as `entryVersion` (R125, log 20). -/
def OwnerRec.markVersion (o : OwnerRec) (n ordinal : Nat) : Nat :=
  (verOf o.markVer ordinal).getD (Config.markVersion n ordinal % (Config.maxVersion + 1))

/-- The chest of a CHEST-DONE at an ordinal; a top-up count above 3 is kept whole (R129, log 82). -/
def doneChest (b : ChestDoneBody) (src ordinal : Nat) : Chest :=
  { ordinal := ordinal, head := some src, token := some b.token, gross := some b.gross, tare := some b.tare,
    net := some b.net, short := false, topups := b.topups, flightLong := b.flightLong, stencil := .pending,
    marker := none }

/-- R129: class FULL. -/
def Inv.takeFull (i : Inv) (o : OwnerRec) (src : Nat) (b : ChestDoneBody) : Eff Inv :=
  let held := match o.short with
    | some k => !k.entering
    | none => false
  let entering := match o.short with
    | some k => k.entering
    | none => false
  if o.view.chests.any (fun c => c.short) || entering then i.refuseFill b.inv src b.token .ended
  else if o.view.hdr.entered ≥ Config.maxChests ∨ (o.view.hdr.entered = Config.maxChests - 1 ∧ held = true) then
    i.refuseFill b.inv src b.token .listFull
  else
    ((i.dropFill b.inv src b.token).enter b.inv (doneChest b src (o.view.hdr.entered + 1))).andThen
      (fun i => i.conclude b.inv (o.found src b.token))

/-- R130: class SHORT. -/
def Inv.takeShort (i : Inv) (o : OwnerRec) (src : Nat) (b : ChestDoneBody) : Eff Inv :=
  if o.view.chests.any (fun c => c.short) || o.short.isSome then i.refuseFill b.inv src b.token .shortTaken
  else if o.view.hdr.entered ≥ Config.maxChests then i.refuseFill b.inv src b.token .listFull
  else
    let k : ShortSlot := { entering := false, head := src, token := b.token, gross := b.gross, tare := b.tare,
                           net := b.net, topups := b.topups, flightLong := b.flightLong }
    let found := fun (f : Fill) => if f.is src b.token then { f with lost := false } else f
    (i.updOwn b.inv (fun o => { o with short := some k, fills := o.fills.map found })).conclude b.inv
      (o.found src b.token)

/-- MARKING, CLOSED or retired: no chest is taken (R128). -/
def pastEnding : InvState → Bool
  | .marking | .closed | .retired => true
  | _ => false

/-- A change is refused for the last version: TABLE_OVERFLOW (R35, log 21). -/
def OwnerRec.overflow (o : OwnerRec) (n : Nat) : List Act := if o.issued ≥ Config.maxVersion then [overflowReport n] else []

/-- R128: CHEST-DONE. -/
def Inv.takeChestDone (i : Inv) (s : State) (src : Nat) (b : ChestDoneBody) : Eff Inv :=
  match i.owned b.inv with
  | none => Eff.mk' i [refuse src b.inv b.token .unknown]
  | some o =>
      if o.view.hdr.state == .claimed then Eff.mk' i [refuse src b.inv b.token .unknown]
      else
        match o.view.chestOf src b.token with
        | some c =>
            let v := o.entryVersion b.inv c.ordinal
            i.again s b.inv v (chestMsg b.inv v c)
        | none =>
            if o.slotIs src b.token then Eff.pure i
            else if (o.view.voidOf src b.token).isSome then i.refuseFill b.inv src b.token .ended
            else if o.issued ≥ Config.maxVersion then
              (Eff.mk' i (o.overflow b.inv)).andThen (fun i => i.refuseFill b.inv src b.token .listFull)
            else if pastEnding o.view.hdr.state then i.refuseFill b.inv src b.token .ended
            else match b.cls with
              | .full => i.takeFull o src b
              | .short => i.takeShort o src b

/-! ## Voids and marks -/

/-- A void recorded (R26, R132). -/
def Rec.addVoid (r : Rec) (v : VoidRec) : Rec :=
  { r with voids := r.voids ++ [v],
           hdr := { r.hdr with voidTotal := capBatch (r.hdr.voidTotal + v.net), voidCount := r.hdr.voidCount + 1 } }

/-- CLOSED or retired. -/
def pastMarking : InvState → Bool
  | .closed | .retired => true
  | _ => false

/-- R132: FILL-VOID. The void has a HEADER of its own; the HEADER of a lost-fill count that the void lowers follows any
CHEST-ENTERED of the event (R125, log 22). -/
def Inv.takeVoid (i : Inv) (src : Nat) (b : VoidBody) : Eff Inv :=
  let noted := fun (r : NotedResult) => Act.send (replyFrame src (notedMsg .fillVoid b.token r) .plain)
  match i.owned b.inv with
  | none => Eff.mk' i [refuse src b.inv b.token .unknown]
  | some o =>
      if o.view.hdr.state == .claimed then Eff.mk' i [refuse src b.inv b.token .unknown]
      else if (o.view.voidOf src b.token).isSome then Eff.mk' i [noted .ok]
      else if (o.view.chestOf src b.token).isSome then Eff.mk' i [noted .notHeld]
      else if pastMarking o.view.hdr.state then i.refuseFill b.inv src b.token .ended
      else if o.view.voids.length ≥ Config.maxVoids ∨ o.issued ≥ Config.maxVersion then
        (Eff.mk' i (o.overflow b.inv)).andThen (fun i => i.refuseFill b.inv src b.token .voidFull)
      else
        let v : VoidRec := { head := src, token := b.token, net := b.net }
        let i1 := (i.dropFill b.inv src b.token).updOwn b.inv (fun o =>
          if o.slotIs src b.token then { o with short := none } else o)
        let e := i1.issue b.inv (fun r => r.addVoid v) (fun r => headerMsg r.hdr false (some v))
        (e.act (noted .ok)).andThen (fun i => i.conclude b.inv (o.found src b.token))

/-- The MARK-ENTERED of an entry (R133). -/
def markMsg (n v o : Nat) (how : How) (marker : Nat) : Msg :=
  .markEntered { inv := n, version := v, ordinal := o, how := how, marker := marker }

/-- How an entry was marked. -/
def Chest.how (c : Chest) : Option How :=
  match c.stencil with
  | .printed => some .printed
  | .hand => some .hand
  | _ => none

/-- R133: MARK-DONE. An entry that is UNKNOWN is marked whatever the invoice's state, CLOSED too (log 104). -/
def Inv.takeMark (i : Inv) (s : State) (src : Nat) (b : MarkDoneBody) : Eff Inv :=
  let noted := fun (r : NotedResult) => Act.send (replyFrame src (notedMsg .markDone b.ordinal r) .plain)
  match i.owned b.inv with
  | none => Eff.mk' i [noted .notHeld]
  | some o =>
      match o.view.chests.find? (fun c => c.ordinal == b.ordinal) with
      | none => Eff.mk' i [noted .notHeld]
      | some c =>
          match Chest.how c with
          | some h =>
              let v := o.markVersion b.inv b.ordinal
              i.again s b.inv v (markMsg b.inv v b.ordinal h (c.marker.getD 0))
          | none =>
              if o.issued ≥ Config.maxVersion then Eff.mk' i (o.overflow b.inv ++ [noted .full])
              else
                let e := i.issue b.inv (fun r => r.setMark b.ordinal b.how b.marker)
                  (fun r => markMsg b.inv r.hdr.version b.ordinal b.how b.marker)
                let e1 := { e with st := e.st.updOwn b.inv (fun o =>
                  { o with markVer := o.markVer ++ [(b.ordinal, o.issued)] }) }
                e1.andThen (fun i => i.closeTest b.inv)

/-! ## The end of the batch, the settle timer, retirement -/

/-- The blend sequencer ends the batch (R48); an end for an invoice not owned or not OPEN changes nothing. -/
def Inv.endInvoice (i : Inv) (n : Nat) (cause : EndCause) (residue : Option Nat) : Eff Inv :=
  match i.owned n with
  | none => Eff.pure i
  | some o =>
      if o.view.hdr.state == .opened then
        (i.issueHdr n (fun h => { h with state := .ending, endCause := some cause, residue := residue })).andThen
          (fun i => i.tests n)
      else Eff.pure i

/-- The settle timer of an adoption is over: every OUTSTANDING entry is lost, the tests are made (R43, R135). -/
def Inv.settled (i : Inv) (n : Nat) : Eff Inv :=
  (i.updOwn n (fun o => { o with settle := .stopped })).loseFills n (fun _ => true)

/-- The HEADER(RETIRED) of a retired number stands in the transmit queue. -/
def Retired.queued (r : Retired) (s : State) : Bool := s.line.txq.any (fun f => f.msg == .header r.frame && !f.cancel)

/-- R49: SHEET-TAKEN. A number in the retired list that the station does not own is answered by its HEADER(RETIRED),
whatever replica the table holds. -/
def Inv.takeSheet (i : Inv) (s : State) (n : Nat) : Eff Inv :=
  match i.owned n with
  | some o =>
      if !o.retiring && o.view.hdr.state == .closed then
        let r := i.issueHdr n (fun h => { h with state := .retired })
        if o.issued ≥ Config.maxVersion then r
        else { r with st := r.st.updOwn n (fun o => { o with retiring := true }) }
      else Eff.pure i
  | none =>
      match i.retired.find? (fun r => r.inv == n) with
      | none => Eff.pure i
      | some r => if r.queued s then Eff.pure i else Eff.mk' i [.send (jobFrame 0 (.header r.frame) .plain)]

end Sys2Proof.Machine
end

