-- ==== Sys2Proof/Machine/Invoice.lean ====
section
/-! DEFINITION. The invoice unit (02_the_invoice_table_and_season_numbering.md): claims, the version rule, rebuilds,
orphans and adoption, two owners, and the unit's part in every event. -/

namespace Sys2Proof.Machine

/-! ## Claiming a number (2.3) -/

/-- CLAIM_STALLED (R29, R33). -/
def stallReport (inv : Option Nat) (c : CauseCode) : Act :=
  .report (Report.of .claimStalled inv none none (.code c))

/-- The number is taken and the CLAIM queued (R29). -/
def Inv.claim (i : Inv) (s : State) (q : ClaimReq) : Eff Inv :=
  let n := i.mark + 1
  let h := s.claimHeader n s.self q.order q.grade q.charged q.garden
  let e := Entry.made h .complete
  let e' := { e with own := some (OwnerRec.start e.data) }
  let m : Msg := .claim { inv := n, order := q.order, grade := q.grade, garden := q.garden, net := q.charged }
  { st := { i with mark := n, table := i.table ++ [e'], phase := .queued n false [] },
    acts := [.send (jobFrame 0 m (.claim n))] }

/-- R29: the request is claimed at once, or waits. TABLE_FULL is tested before SEASON_END (log 41). -/
def Inv.tryClaim (i : Inv) (s : State) : Eff Inv :=
  match i.req with
  | none => Eff.pure { i with phase := .idle }
  | some q =>
      if !s.isActive then Eff.pure { i with phase := .waitActive }
      else if i.full then
        { st := { i with phase := .waitFree },
          acts := if i.phase == .waitFree then [] else [stallReport none .tableFull] }
      else if i.mark ≥ s.cfg.last then
        { st := { i with phase := .seasonEnd }, acts := [stallReport none .seasonEnd] }
      else i.claim s q

/-- The blend sequencer asks for a number (R29). A firm claim cancelled before is no obstacle: it is its own invoice by then
(R81). -/
def Inv.takeClaimAsk (i : Inv) (s : State) (q : ClaimReq) : Eff Inv := ({ i with req := some q } : Inv).tryClaim s

/-- The claim is firm: HEADER with state OPEN and version 1 (R32). -/
def Inv.goFirm (i : Inv) (n : Nat) : Eff Inv :=
  ({ i with phase := .firm n, claimWindow := .stopped } : Inv).issueHdr n (fun h => { h with state := .opened })

/-- The consent set fixed at the CLAIM's completion (R30). -/
def State.consentSet (s : State) : List Nat :=
  stations.filter fun n => n != s.self && s.present n &&
    match (s.peer n).roles with
    | none => false
    | some r => r.blend

/-- The own CLAIM completed (R30, R33). -/
def Inv.claimDone (i : Inv) (s : State) (n : Nat) : Eff Inv :=
  match i.phase with
  | .queued k second set =>
      if k = n then
        let set' := if second then set else s.consentSet
        if set' = [] then i.goFirm n
        else Eff.pure { i with phase := .window n second set', claimWindow := .running Config.claimWindow }
      else Eff.pure i
  | _ => Eff.pure i

/-- The claim of `n` is withdrawn: entry freed, any CLAIM still queued removed, WITHDRAW queued (R32, R33). -/
def Inv.withdraw (i : Inv) (n : Nat) : Eff Inv :=
  (({ i with claimWindow := .stopped } : Inv).free n true).adds
    [.unsend (.claim n), .send (jobFrame 0 (.withdraw n) .withdraw)]

/-- The claim is tried again 2 s later (R33). -/
def Inv.later (i : Inv) : Inv := { i with phase := .retry, claimRetry := .running Config.claimRetry }

/-- The second window expired, or the repeated CLAIM failed to send (R33). -/
def Inv.noConsent (i : Inv) (n : Nat) : Eff Inv :=
  let e := (i.withdraw n).act (stallReport (some n) .noConsent)
  { e with st := e.st.later }

/-- CLAIM_WINDOW_EXPIRY (R33). -/
def Inv.windowExpired (i : Inv) : Eff Inv :=
  match i.phase with
  | .window n second set =>
      if i.claimWindow.on then
        if second then i.noConsent n
        else
          match i.find n with
          | none => Eff.pure i
          | some e =>
              let h := e.data.hdr
              let m : Msg := .claim { inv := n, order := h.order, grade := h.grade, garden := h.garden, net := h.charged }
              { st := { i with phase := .queued n true set, claimWindow := .stopped },
                acts := [.send (jobFrame 0 m (.claim n))] }
      else Eff.pure i
  | _ => Eff.pure i

/-- A CLAIM failed to send (R33). -/
def Inv.claimFailed (i : Inv) (n : Nat) : Eff Inv :=
  match i.phase with
  | .queued k second _ =>
      if k = n then
        if second then i.noConsent n
        else
          let e := (i.free n true).act (stallReport none .sendFailed)
          { e with st := e.st.later }
      else Eff.pure i
  | _ => Eff.pure i

/-- CLAIM_RETRY_DELAY_EXPIRY (R33). -/
def Inv.retryExpired (i : Inv) (s : State) : Eff Inv :=
  if i.phase == .retry && i.claimRetry.on then
    ({ i with phase := .idle, claimRetry := .stopped } : Inv).tryClaim s
  else Eff.pure i

/-- A member leaves the consent set; an empty set makes the claim firm (R32). -/
def Inv.leaveSet (i : Inv) (src : Nat) : Eff Inv :=
  match i.phase with
  | .window n second set =>
      let set' := set.filter (fun m => m != src)
      if set' = [] then i.goFirm n else Eff.pure { i with phase := .window n second set' }
  | .queued n true set =>
      let set' := set.filter (fun m => m != src)
      if set' = [] then i.goFirm n else Eff.pure { i with phase := .queued n true set' }
  | _ => Eff.pure i

/-- The own claim not yet firm is that of `n`. -/
def Inv.claiming (i : Inv) (n : Nat) : Bool :=
  match i.phase with
  | .queued k _ _ => k == n
  | .window k _ _ => k == n
  | _ => false

/-- CONSENT (R32). -/
def Inv.takeConsent (i : Inv) (s : State) (src : Nat) (b : ConsentBody) : Eff Inv :=
  if i.claiming b.inv && b.claimant == s.self then i.leaveSet src else Eff.pure i

/-- OBJECT (R32). -/
def Inv.takeObject (i : Inv) (s : State) (b : ObjectBody) : Eff Inv :=
  if i.claiming b.inv && b.claimant == s.self then (i.withdraw b.inv).andThen (fun i => i.tryClaim s) else Eff.pure i

/-- The blend sequencer cancels its request (R33, R81). A firm claim is marked, and its invoice ends when its opening HEADER
completes; the next request need not wait for that (R29). -/
def Inv.takeCancel (i : Inv) : Eff Inv :=
  let i0 := { i with req := none }
  match i.phase with
  | .queued n second _ =>
      if second then
        let e := i0.withdraw n
        { e with st := { e.st with phase := .idle } }
      else
        let e := (i0.free n true).act (.unsend (.claim n))
        { e with st := { e.st with phase := .idle } }
  | .window n _ _ =>
      let e := i0.withdraw n
      { e with st := { e.st with phase := .idle } }
  | .firm n => Eff.pure (({ i0 with phase := .idle } : Inv).updOwn n (fun o => { o with cancelled := true }))
  | _ => Eff.pure { i0 with phase := .idle, claimRetry := .stopped }

/-! ## Another station's CLAIM and WITHDRAW (R31, R34) -/

/-- A CLAIMED entry recorded for another claimant, its stale timer started (R31). A number that stands in the gap list stays
there (R164, log 106). -/
def Inv.recordClaim (i : Inv) (s : State) (src : Nat) (b : ClaimBody) : Inv :=
  let e := Entry.made (s.claimHeader b.inv src b.order b.grade b.net b.garden) .complete
  { i with table := i.table ++ [{ e with staleT := .running Config.claimStale }] }

/-- CONSENT and OBJECT are reply frames to the claimant; a blender sends them, but not while JOINING (R31). -/
def State.claimAnswer (s : State) (src : Nat) (m : Msg) : List Act :=
  if s.cfg.roles.blend && !s.isJoining then [.send (replyFrame src m .plain)] else []

/-- R31: another station's CLAIM. -/
def Inv.takeClaim (i : Inv) (s : State) (src : Nat) (b : ClaimBody) : Eff Inv :=
  let consent : Msg := .consent { inv := b.inv, claimant := src }
  let objection := fun (r : Objection) => Msg.object { inv := b.inv, claimant := src, reason := r }
  if !s.inSeason b.inv then Eff.mk' i (s.claimAnswer src (objection .range))
  else
    let i := i.raise b.inv
    match i.find b.inv with
    | some e =>
        let queuedOwn := match i.phase with
          | .queued k false _ => k == b.inv
          | _ => false
        if e.own.isSome && queuedOwn then
          let e1 := (i.free b.inv true).act (.unsend (.claim b.inv))
          let e2 := { e1 with st := e1.st.recordClaim s src b }
          (e2.adds (s.claimAnswer src consent)).andThen (fun i => i.tryClaim s)
        else if e.data.hdr.owner ≠ src then Eff.mk' i (s.claimAnswer src (objection .held))
        else Eff.mk' i (s.claimAnswer src consent)
    | none =>
        if i.full then
          if s.cfg.roles.blend then Eff.mk' i (s.claimAnswer src (objection .full))
          else Eff.mk' i [overflowReport b.inv]
        else Eff.mk' (i.recordClaim s src b) (s.claimAnswer src consent)

/-- R34: WITHDRAW from the claimant. -/
def Inv.takeWithdraw (i : Inv) (src n : Nat) : Eff Inv :=
  match i.find n with
  | none => Eff.pure i
  | some e =>
      if e.own.isNone && !e.late && e.data.hdr.owner == src then i.free n true else Eff.pure i

/-- R34: CLAIM_STALE_TIMER_EXPIRY. -/
def Inv.staleExpired (i : Inv) (n : Nat) : Eff Inv :=
  match i.find n with
  | none => Eff.pure i
  | some e => if e.staleT.on && !e.late then i.free n true else Eff.pure i

/-! ## Two owners (R45, R47) -/

/-- The claim of `n` was lost to another owner: the request is claimed again (log 41). -/
def Inv.claimLost (i : Inv) (s : State) (n : Nat) : Eff Inv :=
  let mine := i.claiming n || match i.phase with
    | .firm k => k == n
    | _ => false
  if mine then
    ((Eff.mk' { i with phase := .idle, claimWindow := .stopped } [.unsend (.claim n)])).andThen (fun i => i.tryClaim s)
  else Eff.pure i

/-- The owner yields: its frames and records go, the copy is a STALE replica of the new owner and asks it (R45). An own
CLAIMED entry that yields stays CLAIMED, and no claim stale timer starts for it (the model's choice, log 116). -/
def Inv.yieldTo (i : Inv) (s : State) (n src : Nat) : Eff Inv :=
  let i' := i.upd n (fun e => { e with own := none, copy := .stale,
                                       data := { e.data with hdr := { e.data.hdr with owner := src } } })
  (((Eff.mk' i' [.unsend (.versionedAll n)]).andThen (fun i => i.ask s n src)).adds
    (ownerNotice n ++ copyNotice n)).andThen (fun i => i.claimLost s n)

/-- The owner keeps the invoice: HEADER above both versions, naming itself (R45). -/
def Inv.keep (i : Inv) (s : State) (n v : Nat) : Eff Inv :=
  match i.owned n with
  | none => Eff.pure i
  | some o =>
      let w := max o.issued v + 1
      if w > Config.maxVersion then Eff.mk' i [overflowReport n]
      else
        let r := { o.view with hdr := { o.view.hdr with version := w, owner := s.self } }
        i.issueAt n w r (headerMsg r.hdr false none)

/-- R45: the lower number keeps, the higher yields. -/
def Inv.settleOwners (i : Inv) (s : State) (n src v : Nat) : Eff Inv :=
  if s.self < src then i.keep s n v else i.yieldTo s n src

/-- One more station whose frame at the issued version waits for the end of the join period (R47). -/
def OwnerRec.conflictWith (o : OwnerRec) (src : Nat) : OwnerRec :=
  { o with conflicts := if src ∈ o.conflicts then o.conflicts else o.conflicts ++ [src] }

/-- A HEADER or ADOPT of another station for an owned invoice; `named` says that it names another owner (R45, R47). In the
join period a HEADER that names this station as owner changes nothing (log 14). -/
def Inv.twoOwners (i : Inv) (s : State) (n src v : Nat) (named : Bool) : Eff Inv :=
  match i.owned n with
  | none => Eff.pure i
  | some o =>
      if s.isJoining then
        if !named then Eff.pure i
        else if v > o.issued then i.yieldTo s n src
        else if v = o.issued then Eff.pure (i.updOwn n (fun o => o.conflictWith src))
        else Eff.pure i
      else if v ≥ o.issued then i.settleOwners s n src v
      else Eff.pure i

/-! ## Rebuilds (R39) -/

/-- The copy is whole: it takes the dump's version (R39); a copy left CLOSED that was not gives the closure notice
(R159). -/
def Inv.rebuilt (i : Inv) (s : State) (n v : Nat) (wasClosed : Bool) : Eff Inv :=
  let done := fun (e : Entry) =>
    let closed := e.data.hdr.state == .closed
    let e1 := { e with data := e.data.atVersion v, copy := .complete, rebuildT := .stopped, rebuild := none,
                       closedT := if closed && !e.closedT.on then .running Config.closedTime else e.closedT }
    if e1.orphan && !e1.adoptT.on then s.startDelay e1 else e1
  let i' := i.upd n done
  let closure : List Act := match i'.find n with
    | none => []
    | some e => if e.data.hdr.state == .closed && !wasClosed then [.post .paper (.closure n)] else []
  Eff.mk' i' (copyNotice n ++ closure)

/-- R39: HEADER(DUMP) taken; the copy becomes REBUILDING from that header. A header that is not CLOSED takes the copy out of
CLOSED, so that a later CLOSED gives its notice anew (R159, log 84). -/
def Inv.startRebuild (i : Inv) (s : State) (b : HeaderBody) : Eff Inv :=
  let n := b.hdr.inv
  match i.find n with
  | none => Eff.pure i
  | some e =>
      let moved : List Act := if e.data.hdr.owner = b.hdr.owner then [] else ownerNotice n
      let closed := b.hdr.state == .closed
      let e1 := { e with
        data := { hdr := { b.hdr with version := e.data.hdr.version }, chests := [], voids := [] },
        copy := .rebuilding,
        staleT := if isLate b.hdr.state then .stopped else e.staleT,
        closedT := if closed then e.closedT else .stopped,
        rebuildT := if b.entryCount = 0 then .stopped else .running Config.rebuildTime,
        rebuild := some { version := b.hdr.version, count := b.entryCount, got := 0, wasClosed := e.wasClosed && closed } }
      let r := Eff.mk' (i.upd n (fun _ => e1)) (moved ++ copyNotice n)
      if b.entryCount = 0 then r.andThen (fun i => i.rebuilt s n b.hdr.version e.wasClosed) else r

/-- One item of a block appended (R26, R39, R188). -/
def Rec.addItem (r : Rec) : Item → Rec
  | .chest c => { r with chests := r.chests ++ [c] }
  | .void v => { r with voids := r.voids ++ [v] }

/-- RECORD-BLOCK (R39). -/
def Inv.takeBlock (i : Inv) (s : State) (b : BlockBody) : Eff Inv :=
  match i.find b.inv with
  | none => Eff.pure i
  | some e =>
      match e.rebuild with
      | none => Eff.pure i
      | some r =>
          if e.copy == .rebuilding && r.version = b.version && e.own.isNone then
            let got := r.got + b.items.length
            let e1 := { e with data := b.items.foldl Rec.addItem e.data, rebuildT := .running Config.rebuildTime,
                               rebuild := some { r with got := got } }
            let x := Eff.mk' (i.upd b.inv (fun _ => e1)) (copyNotice b.inv)
            if got ≥ r.count then x.andThen (fun i => i.rebuilt s b.inv r.version r.wasClosed) else x
          else Eff.pure i

/-- REBUILD_TIMER_EXPIRY (R39). After a warm start the timer runs on for a copy already STALE, which asks then (R50). -/
def Inv.rebuildExpired (i : Inv) (s : State) (n : Nat) : Eff Inv :=
  match i.find n with
  | none => Eff.pure i
  | some e =>
      if e.copy != .complete && e.rebuildT.on then
        let i' := i.upd n (fun e => { e with copy := .stale, rebuildT := .stopped })
        (i'.askOwner s n).adds (copyNotice n)
      else Eff.pure i

/-! ## The version rule (R36, R37, R44) -/

/-- What R36 does with a frame at version `v` for a copy that the table holds, other than an owned one: applied,
ignored, or a gap (`none`, `some false`, `some true` mean apply, ignore, gap). -/
def gapTest (h v : Nat) : Option Bool := if v = h + 1 then none else if v ≤ h then some false else some true

/-- A HEADER applied to a copy (R26, R42, R48); a copy left CLOSED that was not gives the closure notice (R159). A STALE
copy that takes a new owner here asks nothing and starts no timer, be the owner PRESENT already (log 86). -/
def Inv.applyHeader (i : Inv) (n : Nat) (e : Entry) (b : HeaderBody) (voids : List VoidRec) : Eff Inv :=
  let closed := b.hdr.state == .closed
  let wasClosed := e.wasClosed
  let e1 := { e.unorphaned with
    data := { e.data with hdr := b.hdr, voids := voids }, rebuild := none,
    staleT := if isLate b.hdr.state then .stopped else e.staleT,
    closedT := if closed then (if wasClosed then e.closedT else .running Config.closedTime) else .stopped }
  Eff.mk' (i.upd n (fun _ => e1))
    ((if e.data.hdr.owner = b.hdr.owner then [] else ownerNotice n) ++ copyNotice n ++
      (if closed && !wasClosed then [.post .paper (.closure n)] else []))

/-- A HEADER for an invoice the table does not hold (R24, R37, R39). An entry made by a dump has version 0 until its rebuild
completes (log 97). -/
def Inv.makeEntry (i : Inv) (s : State) (b : HeaderBody) : Eff Inv :=
  let n := b.hdr.inv
  if !s.inSeason n then Eff.pure i
  else if i.full then Eff.mk' i [overflowReport n]
  else if b.dump then
    let e := Entry.made { b.hdr with version := 0, state := .claimed } .stale
    (Eff.mk' { i with table := i.table ++ [e] } [.post .paper (.entryMade n)]).andThen (fun i => i.startRebuild s b)
  else
    let whole := decide (b.hdr.entered = 0) && decide (b.hdr.voidCount = 0)
    let closed := b.hdr.state == .closed
    let e := { Entry.made b.hdr (if whole then .complete else .stale) with
               closedT := if closed then .running Config.closedTime else .stopped }
    let made := Eff.mk' { i with table := i.table ++ [e] } [.post .paper (.entryMade n)]
    let asked := if whole then made else made.andThen (fun i => i.ask s n b.hdr.owner)
    asked.adds (copyNotice n ++ (if closed then [.post .paper (.closure n)] else []))

/-- HEADER from another station (R24, R28, R36, R37, R39, R45, R49). One that retires an owned invoice is taken where
the two-owner rule makes this station yield (log 14). One that frees a CLAIMED entry makes no gap (R164, log 105). -/
def Inv.takeHeader (i : Inv) (s : State) (src : Nat) (b : HeaderBody) : Eff Inv :=
  let n := b.hdr.inv
  let i := if n ≤ s.cfg.last then i.raise n else i
  match i.find n with
  | none => if b.hdr.state == .retired then Eff.pure i else i.makeEntry s b
  | some e =>
      if e.own.isSome then
        (i.twoOwners s n src b.hdr.version (b.hdr.owner != s.self)).andThen (fun i =>
          if b.hdr.state == .retired && (i.owned n).isNone then i.free n false else Eff.pure i)
      else if b.hdr.state == .retired then i.free n false
      else if b.dump then
        if src = e.data.hdr.owner ∧ (e.copy ≠ .complete ∨ b.hdr.version > e.data.hdr.version) then i.startRebuild s b
        else Eff.pure i
      else if e.copy == .rebuilding then Eff.pure i
      else
        match gapTest e.data.hdr.version b.hdr.version with
        | some false => Eff.pure i
        | some true => i.stale s n e.data.hdr.owner
        | none =>
            match e.data.voidsAfter b with
            | none => i.stale s n e.data.hdr.owner
            | some vs => i.applyHeader n e b vs

/-- CHEST-ENTERED or MARK-ENTERED at version `v`: `change` is none where the lists make it a gap (R26, R36, R37). -/
def Inv.takeEntry (i : Inv) (s : State) (src n v : Nat) (change : Rec → Option Rec) : Eff Inv :=
  match i.find n with
  | none => i.askUnheld n src
  | some e =>
      if e.own.isSome || e.copy == .rebuilding then Eff.pure i
      else if src ≠ e.data.hdr.owner then i.stale s n src
      else
        match gapTest e.data.hdr.version v with
        | some false => Eff.pure i
        | some true => i.stale s n src
        | none =>
            match change e.data with
            | none => i.stale s n src
            | some r => Eff.mk' (i.upd n (fun e => { e with data := r.atVersion v })) (copyNotice n)

/-- What a CHEST-ENTERED does to a replica's lists (R26). -/
def chestChange (b : ChestEnteredBody) (r : Rec) : Option Rec :=
  if b.ordinal = r.hdr.entered + 1 then some (r.addChest (enteredChest b)) else none

/-- What a MARK-ENTERED does to a replica's lists (R26). -/
def markChange (b : MarkEnteredBody) (r : Rec) : Option Rec :=
  if r.hasOrdinal b.ordinal then some (r.setMark b.ordinal b.how b.marker) else none

/-- ADOPT from another station (R36, R37, R44). A STALE copy that takes the next version asks nothing of a new owner that is
PRESENT already (log 86). -/
def Inv.takeAdopt (i : Inv) (s : State) (src : Nat) (b : AdoptBody) : Eff Inv :=
  let n := b.inv
  match i.find n with
  | none => i.askUnheld n src
  | some e =>
      if e.own.isSome then i.twoOwners s n src b.version true
      else if e.copy == .rebuilding then Eff.pure i
      else
        let owned := fun (h : Header) => { h with owner := src }
        match gapTest e.data.hdr.version b.version with
        | some false => Eff.pure i
        | some true =>
            let i' := i.upd n (fun e => { e.unorphaned with
              copy := .stale, data := { e.data with hdr := owned e.data.hdr } })
            ((Eff.mk' i' [.unsend (.adopt n)]).andThen (fun i => i.ask s n src)).adds (ownerNotice n ++ copyNotice n)
        | none =>
            let i' := i.upd n (fun e => { e.unorphaned with
              copy := if b.forced then .stale else e.copy,
              askT := if b.forced then .running Config.askTime else e.askT,
              data := { e.data with hdr := { owned e.data.hdr with
                version := b.version, adoption := if b.forced then .forced else .plain } } })
            Eff.mk' i' (.unsend (.adopt n) :: (ownerNotice n ++ copyNotice n))

/-- NOTED(NOT_HELD) for a RECORD-ASK (R38). -/
def Inv.takeNotHeld (i : Inv) (s : State) (b : NotedBody) : Eff Inv :=
  match i.find b.number with
  | none => Eff.pure i
  | some e =>
      if b.result != .notHeld || e.own.isSome then Eff.pure i
      else if e.data.hdr.state == .closed then i.free b.number false
      else Eff.pure (i.upd b.number s.orphaned)

/-! ## The owner's own frames (R35, R49, R159) -/

/-- A number joins the retired list; a fifth pushes the oldest out (R49). -/
def pushRetired (l : List Retired) (r : Retired) : List Retired :=
  let m := l ++ [r]
  m.drop (m.length - Config.retiredPlaces)

/-- The claim of `n` was cancelled when firm (R81). -/
def Inv.cancelledFirm (i : Inv) (n : Nat) : Bool :=
  match i.owned n with
  | none => false
  | some o => o.cancelled

/-- The completed HEADER made the own invoice OPEN: the claim's outcome is told, and a claim cancelled when firm ends its
invoice (R32, R81). -/
def Inv.opened (i : Inv) (n : Nat) : Eff Inv :=
  let firmReport := Act.report (Report.of .claimFirm (some n) none none .absent)
  if i.phase == .firm n then Eff.mk' { i with phase := .idle, req := none } [.post .blend (.claimFirm n), firmReport]
  else if i.cancelledFirm n then
    (Eff.mk' (i.updOwn n (fun o => { o with cancelled := false })) [firmReport]).andThen
      (fun i => i.endInvoice n .cancelled none)
  else Eff.pure i

/-- A HEADER of the owner applied to its own copy (R32, R136, R159); the entry keeps its number. -/
def Inv.applyOwnHeader (i : Inv) (s : State) (n : Nat) (e : Entry) (b : HeaderBody) : Eff Inv :=
  if b.hdr.state == .retired then
    let r := i.free n false
    { r with st := { r.st with retired := pushRetired r.st.retired { inv := n, version := b.hdr.version, frame := b } } }
  else
    let voids := e.data.voids ++ b.newVoid.toList
    let i1 := i.upd n (fun e => { e with data := { e.data with hdr := { b.hdr with inv := n }, voids := voids } })
    let closedNow := b.hdr.state == .closed && e.data.hdr.state != .closed
    let openNow := b.hdr.state == .opened && e.data.hdr.state == .claimed
    let i2 := if closedNow then i1.updOwn n (fun o => { o with fills := [], short := none }) else i1
    let booked : List Act := if closedNow && b.hdr.batch == s.self && decide (b.hdr.voidTotal > 0) then
        [.post .blend (.voidsBooked b.hdr.grade b.hdr.voidTotal)] else []
    let closure : List Act := if closedNow then [.post .paper (.closure n)] else []
    let x := Eff.mk' i2 (copyNotice n ++ booked ++ closure)
    if openNow then x.andThen (fun i => i.opened n) else x

/-- A versioned frame of the owner applied to its own copy (R35). -/
def Inv.applyOwn (i : Inv) (s : State) (n v : Nat) (m : Msg) : Eff Inv :=
  match i.find n with
  | none => Eff.pure i
  | some e =>
      match m with
      | .header b => i.applyOwnHeader s n e b
      | .chestEntered b =>
          let i1 := i.upd n (fun e => { e with data := (e.data.addChest (enteredChest b)).atVersion v })
          if b.short then
            (Eff.mk' (i1.updOwn n (fun o => { o with short := none })) (copyNotice n)).andThen (fun i => i.endTest n)
          else Eff.mk' i1 (copyNotice n)
      | .markEntered b =>
          Eff.mk' (i.upd n (fun e => { e with data := (e.data.setMark b.ordinal b.how b.marker).atVersion v }))
            (copyNotice n)
      | _ => Eff.pure i

/-- A lower-numbered frame of the owner for the invoice has not completed. -/
def lowerOut (s : State) (o : OwnerRec) (n v : Nat) : Bool :=
  (s.line.txq ++ o.resend).any fun f => match f.tag with
    | .versioned k w => k == n && decide (w < v) && !f.cancel
    | _ => false

/-- The frames held ahead are applied when the lower ones have been (R35); fuel is their number. -/
def Inv.applyAhead (s : State) (n : Nat) : Nat → Inv → Eff Inv
  | 0, i => Eff.pure i
  | k + 1, i =>
      match i.owned n with
      | none => Eff.pure i
      | some o =>
          match o.ahead.find? (fun p => !lowerOut s o n p.1 && o.ahead.all (fun q => decide (p.1 ≤ q.1))) with
          | none => Eff.pure i
          | some p =>
              ((i.updOwn n (fun o => { o with ahead := o.ahead.filter (fun q => q.1 != p.1) })).applyOwn s n p.1 p.2).andThen
                (Inv.applyAhead s n k)

/-- A versioned frame of the owner completed (R35). -/
def Inv.versionedDone (i : Inv) (s : State) (n v : Nat) (m : Msg) : Eff Inv :=
  match i.owned n with
  | none => Eff.pure i
  | some o =>
      if lowerOut s o n v then Eff.pure (i.updOwn n (fun o => { o with ahead := o.ahead ++ [(v, m)] }))
      else (i.applyOwn s n v m).andThen (Inv.applyAhead s n o.ahead.length)

/-- A frame put in its place by version. -/
def insertByVersion (f : TxFrame) : List TxFrame → List TxFrame
  | [] => [f]
  | g :: l => if f.version < g.version then f :: g :: l else g :: insertByVersion f l

/-- A versioned frame failed to send: it and the later ones wait one presence interval (R35). One that the queue did not
take has none behind it (log 48). -/
def Inv.versionedFailed (i : Inv) (s : State) (n v : Nat) (f : TxFrame) (atOpen : Bool) : Eff Inv :=
  match i.owned n with
  | none => Eff.pure i
  | some o =>
      let later := if atOpen then [] else s.line.txq.filter (Unsend.hits (.versionedAbove n v))
      let held := (f :: later).foldl (fun l g => insertByVersion g l) o.resend
      let timer := if o.resendDelay.on then o.resendDelay else .running Config.presenceInterval
      Eff.mk' (i.updOwn n (fun o => { o with resend := held, resendDelay := timer }))
        (if atOpen then [] else [.unsend (.versionedAbove n v)])

/-- VERSIONED_RESEND_DELAY_EXPIRY (R35). -/
def Inv.resendExpired (i : Inv) (n : Nat) : Eff Inv :=
  match i.owned n with
  | none => Eff.pure i
  | some o =>
      if o.resendDelay.on then
        Eff.mk' (i.updOwn n (fun o => { o with resend := [], resendDelay := .stopped })) (o.resend.map .send)
      else Eff.pure i

/-! ## Adoption (R43, R46) -/

/-- An ADOPT of this station for the invoice is queued. -/
def State.adoptQueued (s : State) (n : Nat) : Bool := s.line.txq.any (fun f => f.tag == .adopt n && !f.cancel)

/-- ADOPTION_DELAY_EXPIRY (R43). A copy at version 65535 gives TABLE_OVERFLOW and no ADOPT (log 78). -/
def Inv.delayExpired (i : Inv) (s : State) (n : Nat) : Eff Inv :=
  match i.find n with
  | none => Eff.pure i
  | some e =>
      if e.adoptT.on then
        let i' := i.upd n (fun e => { e with adoptT := .stopped })
        if e.orphan && s.eligible e && e.own.isNone && !s.adoptQueued n then
          if e.data.hdr.version ≥ Config.maxVersion then Eff.mk' i' [overflowReport n]
          else
            let b : AdoptBody :=
              { inv := n, oldOwner := e.data.hdr.owner, version := e.data.hdr.version + 1, forced := false }
            Eff.mk' i' [.send (jobFrame 0 (.adopt b) (.adopt n))]
        else Eff.pure i'
      else Eff.pure i

/-- The own ADOPT failed to send (R43). -/
def Inv.adoptFailed (i : Inv) (s : State) (n : Nat) : Eff Inv :=
  Eff.pure (i.upd n (fun e => if e.orphan && e.own.isNone then { e with adoptT := s.adoptDelay } else e))

/-- The own ADOPT completed: the station becomes owner (R43, R46, R158). A copy that a rebuild left CLOSED unfinished
gives its closure notice now. The owner's own copy runs no closed timer (R159). -/
def Inv.adoptDone (i : Inv) (s : State) (n : Nat) (b : AdoptBody) : Eff Inv :=
  match i.find n with
  | none => Eff.pure i
  | some e =>
      if e.own.isSome then Eff.pure i
      else
        let h := { e.data.hdr with
          version := b.version, owner := s.self, adoption := if b.forced then .forced else .plain }
        let r := { e.data with hdr := h }
        let o := { OwnerRec.start r with settle := .running Config.adoptSettle }
        let e1 := { e.unorphaned with
          data := r, copy := .complete, closedT := .stopped, askT := .stopped, rebuildT := .stopped,
          staleT := .stopped, rebuild := none, own := some o }
        let adopted := Act.report (Report.of .adopted (some n) none (some b.oldOwner) .absent)
        let closure : List Act := if h.state == .closed && !e.wasClosed then [.post .paper (.closure n)] else []
        let x := Eff.mk' (i.upd n (fun _ => e1)) (adopted :: (ownerNotice n ++ copyNotice n ++ closure))
        let y := if b.forced then x.andThen (fun i => i.startDump n) else x
        if h.state == .opened then
          y.andThen (fun i => i.issueHdr n (fun h => { h with state := .ending, endCause := some .ownerLost }))
        else y.andThen (fun i => i.closeTest n)

/-- A placeholder (R46). -/
def placeholder (o : Nat) : Chest :=
  { ordinal := o, head := none, token := none, gross := none, tare := none, net := none, short := false, topups := 0,
    flightLong := false, stencil := .unknown, marker := none }

/-- The gaps of a copy filled with placeholders (R46). -/
def Rec.fillGaps (r : Rec) : Rec :=
  let n := r.chests.foldl (fun k c => max k c.ordinal) r.hdr.entered
  let cs := (List.range n).map fun k =>
    match r.chests.find? (fun c => c.ordinal == k + 1) with
    | some c => c
    | none => placeholder (k + 1)
  { r with chests := cs, hdr := { r.hdr with
      entered := n, netTotal := capBatch (cs.foldl (fun t c => t + c.net.getD 0) 0) } }

/-- R46: FORCE ADOPT. Of a copy at version 65535 it is answered OK and nothing follows but TABLE_OVERFLOW (log 78). -/
def Inv.forceAdopt (i : Inv) (s : State) (n : Nat) : PortAnswer × Eff Inv :=
  match i.find n with
  | none => (.unknown, Eff.pure i)
  | some e =>
      if !s.isActive || !e.orphan || s.adoptQueued n then (.state, Eff.pure i)
      else if e.data.hdr.version ≥ Config.maxVersion then (.ok, Eff.mk' i [overflowReport n])
      else
        let b : AdoptBody :=
          { inv := n, oldOwner := e.data.hdr.owner, version := e.data.hdr.version + 1, forced := true }
        (.ok, Eff.mk' (i.upd n (fun e => { e with data := e.data.fillGaps }))
          (copyNotice n ++ [.send (jobFrame 0 (.adopt b) (.adopt n))]))

/-! ## Timers of a copy -/

/-- ASK_TIMER_EXPIRY (R36, R37). Where the timer kept for a number not held still runs beside the ask timer of the entry made
since, one expiry is the end of both (log 96). -/
def Inv.askExpired (i : Inv) (s : State) (n : Nat) : Eff Inv :=
  match i.find n with
  | none => Eff.pure { i with askOther := i.askOther.filter (fun m => m != n) }
  | some e =>
      let i0 := { i with askOther := i.askOther.filter (fun m => m != n) }
      if e.askT.on then
        let i' := i0.upd n (fun e => { e with askT := .stopped })
        if e.copy == .stale && e.own.isNone && s.present e.data.hdr.owner then i'.askTo n e.data.hdr.owner
        else Eff.pure i'
      else Eff.pure i0

/-- CLOSED_TIMER_EXPIRY (R40). -/
def Inv.closedExpired (i : Inv) (s : State) (n : Nat) : Eff Inv :=
  match i.find n with
  | none => Eff.pure i
  | some e =>
      if e.closedT.on && e.data.hdr.state == .closed && e.own.isNone then
        let i' := i.upd n (fun e => { e with closedT := .running Config.closedTime })
        if (s.cfg.roles.paper && s.paper.acting) || s.absent e.data.hdr.owner then Eff.pure i'
        else i'.askTo n e.data.hdr.owner
      else Eff.pure i

/-- SETTLE_TIMER_EXPIRY (R43, R135); while JOINING the end of the join period stands for it (R50). -/
def Inv.settleExpired (i : Inv) (s : State) (n : Nat) : Eff Inv :=
  match i.owned n with
  | none => Eff.pure i
  | some o => if o.settle.on && !s.isJoining then i.settled n else Eff.pure i

/-! ## Station-table events (R22, R32, R34, R42, R127) -/

/-- The entries owned by a station, other than this station's own invoices. -/
def Inv.heldFor (i : Inv) (n : Nat) : List Entry := i.table.filter (fun e => e.own.isNone && e.data.hdr.owner == n)

/-- A station's entry moved to ABSENT. Several entries are taken in the order of the table (the model's choice, log 98). -/
def Inv.peerAbsent (i : Inv) (s : State) (n : Nat) : Eff Inv :=
  let claimed := ((i.heldFor n).filter (fun e => !e.late)).map Entry.num
  let late := ((i.heldFor n).filter Entry.late).map Entry.num
  ((i.leaveSet n).andThen (fun i => Eff.each (fun k (i : Inv) => i.free k true) claimed i)).andThen (fun i =>
    (Eff.pure (late.foldl (fun (i : Inv) k => i.upd k s.orphaned) i)).andThen (fun i => i.headGone n))

/-- A station restarted: its JOIN was taken, or PRESENCE(JOINING) from PRESENT (R22, R41, R42, R127). A JOIN with a
field that is not valid is answered by no HEADER (R187, log 31). The HEADERs of several owned invoices that answer the JOIN
go in the order of the table (the model's choice, log 98). -/
def Inv.peerRestart (i : Inv) (n : Nat) (via : Via) : Eff Inv :=
  let cold := match via with
    | .joinFrame k _ => k == some JoinKind.cold
    | _ => false
  let answered := match via with
    | .joinFrame _ whole => whole
    | _ => true
  let mark := fun (e : Entry) =>
    if e.own.isNone && e.data.hdr.owner == n then
      { e with adoptT := .stopped, orphan := e.orphan || (cold && e.late) }
    else e
  let i1 := { i with table := i.table.map mark }
  let answers := if !answered then [] else
    (i1.table.filter (fun e => match e.own with
      | none => false
      | some o => isLate o.view.hdr.state)).map Entry.num
  (i1.headGone n).andThen (fun i => Eff.each (fun k (i : Inv) => i.repeatHeader k) answers i)

/-- A station's entry moved to PRESENT (R36, R42). The RECORD-ASKs of several STALE copies go in the order of the table (the
model's choice, log 98). -/
def Inv.peerPresent (i : Inv) (s : State) (n : Nat) (old : PeerState) : Eff Inv :=
  let back := fun (e : Entry) =>
    if e.own.isNone && e.data.hdr.owner == n && e.orphan then
      if old == .absent then e.unorphaned
      else if old == .joining then s.startDelay e
      else e
    else e
  let i1 := { i with table := i.table.map back }
  let asks := ((i1.heldFor n).filter (fun e => e.copy == .stale && !e.askT.on)).map Entry.num
  Eff.each (fun k (i : Inv) => i.askTo k n) asks i1

/-- A station-table event (R22). -/
def Inv.takePeer (i : Inv) (s : State) (n : Nat) (old new : PeerState) (via : Via) : Eff Inv :=
  match new with
  | .absent => i.peerAbsent s n
  | .present => i.peerPresent s n old
  | .joining =>
      match via with
      | .joinFrame _ _ => i.peerRestart n via
      | .presenceFrame => if old == .present then i.peerRestart n via else Eff.pure i
      | .other => Eff.pure i
  | .unknown => Eff.pure i

/-! ## The end of the join period (R47, R50, R137, R158, R185) -/

/-- The conflicts of the join period at an equal version are settled (R47). The lowest of their stations decides for all: where
it is lower than this station's number this station yields to it, and otherwise it keeps the invoice against every one (log
51). -/
def Inv.settleConflicts (i : Inv) (s : State) (n : Nat) : Eff Inv :=
  match i.owned n with
  | none => Eff.pure i
  | some o =>
      match o.conflicts.min? with
      | none => Eff.pure i
      | some c => (i.updOwn n (fun o => { o with conflicts := [] })).settleOwners s n c o.issued

/-- What the end of the join period does to one owned invoice: the conflicts at an equal version are settled, then
HEADER(RESUMED), a running settle timer is over, and the owner's tests are made. -/
def Inv.resume (i : Inv) (s : State) (n : Nat) : Eff Inv :=
  ((i.settleConflicts s n).andThen (fun i =>
    i.issue n (fun r => { r with hdr := { r.hdr with owner := s.self } }) (fun r => headerMsg r.hdr true none))).andThen
    (fun i =>
      match i.owned n with
      | none => Eff.pure i
      | some o => ((if o.settle.on then i.settled n else i.tests n)).andThen (fun i => i.closeTest n))

/-- The end-of-join notice (R185). The WITHDRAWs owed go first, those of earlier starts before later ones and within one start
in the order of the table, then the owned invoices are resumed one after the other in the order of the table (the model's
choices, log 98). -/
def Inv.joinEnded (i : Inv) (s : State) : Eff Inv :=
  let owed := i.withdrawOwed.map fun n => Act.send (jobFrame 0 (.withdraw n) .withdraw)
  let delays := fun (e : Entry) => if e.orphan && e.own.isNone && !e.adoptT.on then s.startDelay e else e
  (((Eff.mk' { i with withdrawOwed := [], table := i.table.map delays } owed).andThen (fun i =>
    Eff.each (fun n (i : Inv) => i.resume s n) i.ownedNums i))).andThen (fun i =>
      if i.phase == .waitActive then i.tryClaim s else Eff.pure i)

/-! ## The unit's handler -/

/-- The frames the unit takes. Of its own frames at their completion it takes the reports and SHEET-TAKEN; the
versioned ones act through COMPLETE (R10, R35). -/
def Inv.takeFrame (i : Inv) (s : State) (src : Nat) (m : Msg) (own : Bool) : Eff Inv :=
  match m with
  | .chestDone b => i.takeChestDone s src b
  | .fillVoid b => i.takeVoid src b
  | .markDone b => i.takeMark s src b
  | .sheetTaken n => i.takeSheet s n
  | m =>
      if own then Eff.pure i
      else
        match m with
        | .presence b => Eff.pure (if b.mark ≤ s.cfg.last then i.raise b.mark else i)
        | .claim b => i.takeClaim s src b
        | .consent b => i.takeConsent s src b
        | .object b => i.takeObject s b
        | .withdraw n => i.takeWithdraw src n
        | .header b => i.takeHeader s src b
        | .recordBlock b => i.takeBlock s b
        | .recordAsk n => i.takeAsk src n
        | .chestEntered b => i.takeEntry s src b.inv b.version (chestChange b)
        | .markEntered b => i.takeEntry s src b.inv b.version (markChange b)
        | .adopt b => i.takeAdopt s src b
        | .noted b => if b.kind == .recordAsk then i.takeNotHeld s b else Eff.pure i
        | _ => Eff.pure i

/-- COMPLETE for a frame of the unit. -/
def Inv.takeComplete (i : Inv) (s : State) (f : TxFrame) : Eff Inv :=
  match f.tag, f.msg with
  | .claim n, _ => i.claimDone s n
  | .versioned n v, m => i.versionedDone s n v m
  | .adopt n, .adopt b => i.adoptDone s n b
  | .dump n, _ => i.nextBlock n
  | _, _ => Eff.pure i

/-- SEND_FAILED for a frame of the unit; a repeat fails as the versioned frame it repeats does (R35, log 48). -/
def Inv.takeFailed (i : Inv) (s : State) (f : TxFrame) (atOpen : Bool) : Eff Inv :=
  match f.tag with
  | .claim n => i.claimFailed n
  | .versioned n v | .repeated n v => i.versionedFailed s n v f atOpen
  | .adopt n => i.adoptFailed s n
  | .dump n => Eff.pure (i.updOwn n (fun o => { o with dump := none }))
  | _ => Eff.pure i

/-- A request that waits for a free entry is claimed when one is freed (R29). -/
def Inv.claimIfFree (i : Inv) (s : State) : Eff Inv :=
  if i.phase == .waitFree && !i.full then i.tryClaim s else Eff.pure i

/-- The invoice unit's part in an event. -/
def takeInv (s : State) (e : Ev) : Eff Inv :=
  let i := s.inv
  let r := match e with
    | .peer n old new via => i.takePeer s n old new via
    | .frame src _ m own => i.takeFrame s src m own
    | .complete f => i.takeComplete s f
    | .sendFailed f atOpen => i.takeFailed s f atOpen
    | .claimAsk q => i.takeClaimAsk s q
    | .claimCancel => i.takeCancel
    | .endInvoice n c r => i.endInvoice n c r
    | .grantNotice l => i.takeGrant l
    | .askFor n => i.askOwner s n
    | .endOfJoin => i.joinEnded s
    | _ => Eff.pure i
  r.andThen (fun i => i.claimIfFree s)

/-- A timer of the unit expired; afterwards a request that waits for a free entry is claimed. -/
def invTimer (s : State) (f : Inv → Eff Inv) : Eff Inv := (f s.inv).andThen (fun i => i.claimIfFree s)

end Sys2Proof.Machine
end

