-- ==== Sys2Proof/Machine/Blend.lean ====
section
/-! DEFINITION. The blend sequencer (04_blending_and_the_drum.md). -/

namespace Sys2Proof.Machine

/-! ## The carry-over table (R83) -/

/-- The entry of a grade. -/
def Blend.bookOf (b : Blend) (g : Nat) : Book := (b.book[g]?).getD { weight := 0, count := 0 }

/-- The entry of a grade changed. -/
def Blend.setBook (b : Blend) (g : Nat) (k : Book) : Blend := { b with book := b.book.setIfInBounds g k }

/-- An addition to the book weight; an addition of 0 changes nothing (R83). -/
def Blend.addBook (b : Blend) (g w : Nat) : Blend :=
  if w = 0 then b
  else b.setBook g { weight := min ((b.bookOf g).weight + w) Config.maxBatch, count := min ((b.bookOf g).count + 1) 255 }

/-- The book weight lowered by a drawn weight (R83). -/
def Blend.lowerBook (b : Blend) (g w : Nat) : Blend :=
  let left := (b.bookOf g).weight - w
  b.setBook g { weight := left, count := if left = 0 then 0 else (b.bookOf g).count }

/-! ## The order and its components -/

/-- The weight of the latest reading, where it carries the stable flag (R57). -/
def Blend.stableNow (b : Blend) : Option Int :=
  match b.last with
  | none => none
  | some r => if r.stable then r.weight else none

/-- The order changed. -/
def Blend.upd (b : Blend) (f : Order → Order) : Blend := { b with order := b.order.map f }

/-- Component `k` changed. -/
def Order.updComp (o : Order) (k : Nat) (f : Comp → Comp) : Order := { o with comps := o.comps.modify k f }

/-- The current component's place and fields. -/
def Blend.current (b : Blend) : Option (Order × Nat × Comp) :=
  match b.order with
  | none => none
  | some o =>
      match o.cur with
      | none => none
      | some k => (o.comps[k]?).map (fun c => (o, k, c))

/-- The current component changed. -/
def Blend.updCur (b : Blend) (f : Comp → Comp) : Blend :=
  b.upd (fun o => match o.cur with
    | none => o
    | some k => o.updComp k f)

/-- The gate of the current component opens on a start weight and a rise; the draw pours (R67). -/
def Blend.pour (b : Blend) (bin : Nat) (start rise : Int) : Blend :=
  { (b.updCur (fun c => { c with start := some start, peak := rise })).upd (fun o => { o with draw := .pouring }) with
    gate := some bin, starve := .running Config.starveTime }

/-- A component begins: on the latest reading where it is stable, or on the first later one (R67). -/
def Blend.beginComp (b : Blend) (k : Nat) : Blend :=
  let b1 := b.upd (fun o => ({ o with cur := some k, draw := .waitStart } : Order).updComp k
    (fun c => { c with state := .drawing, start := none, peak := 0, settle := false }))
  match b1.current, b1.stableNow with
  | some (_, _, c), some w => b1.pour c.bin w 0
  | _, _ => b1

/-- A component whose start weight is kept pours again on a stable reading, its peak rise the rise shown (R67, R87). -/
def Blend.pourAgain (b : Blend) : Blend :=
  let b1 := b.upd (fun o => { o with draw := .waitAgain })
  match b1.current, b1.stableNow with
  | some (_, _, c), some w => b1.pour c.bin (c.start.getD w) (w - c.start.getD w)
  | _, _ => b1

/-- The drawn weight of a component, 0 where negative, held at 500000 (R69, log 26). -/
def drawnWeight (start : Option Int) (w : Int) : Nat := (clampInt 0 500000 (w - start.getD w)).toNat

/-- R73: charging ends; the claim is asked and mixing begins. -/
def Blend.endCharging (b : Blend) : Eff Blend :=
  match b.order with
  | none => Eff.pure b
  | some o =>
      let charged := min (o.comps.foldl (fun t c => t + c.drawn) 0) Config.maxBatch
      let o1 := { o with charged := some charged, cur := none, turns := 0, claim := .asked }
      Eff.mk' { b with state := .mixing, held := none, order := some o1, gate := none, starve := .stopped,
                       stall := .running Config.stallTime }
        [.post .inv (.claimAsk { order := o.number, grade := o.grade, garden := o.garden, charged := charged })]

/-- The component after place `k` begins, or charging ends (R67, R69, R73). -/
def Blend.following (b : Blend) (k : Nat) : Eff Blend :=
  match b.order with
  | none => Eff.pure b
  | some o => if k + 1 < o.comps.length then Eff.pure (b.beginComp (k + 1)) else b.endCharging

/-- R69: the current component settles as DONE on a weight. -/
def Blend.settleDone (b : Blend) (w : Int) : Eff Blend :=
  match b.current with
  | none => Eff.pure b
  | some (o, k, c) =>
      let d := drawnWeight c.start w
      let b1 := b.updCur (fun c => { c with drawn := d, state := .done, settle := true })
      let b2 := if c.bin = 12 then b1.lowerBook o.grade d else b1
      b2.following k

/-- R71: the starved component's drawn weight is taken. -/
def Blend.settleShort (b : Blend) (w : Int) : Blend :=
  b.updCur (fun c => { c with drawn := drawnWeight c.start w, settle := true })

/-- The close point (R68). -/
def closePoint (target flight : Nat) : Int := if flight ≥ target then 1 else (target : Int) - flight

/-- R68: a reading while the gate is open. -/
def Blend.pourReading (b : Blend) (cfg : Cfg) (w : Int) (stable : Bool) : Eff Blend :=
  match b.current with
  | none => Eff.pure b
  | some (_, _, c) =>
      let rise := w - c.start.getD w
      let b1 := if rise > c.peak then
          { b.updCur (fun c => { c with peak := rise }) with starve := .running Config.starveTime }
        else b
      if rise ≥ closePoint c.target cfg.flight then
        let b2 := { b1.upd (fun o => { o with draw := .settling }) with gate := none, starve := .stopped }
        if stable then b2.settleDone w else Eff.pure b2
      else Eff.pure b1

/-- A reading in CHARGING (R67 to R70). -/
def Blend.chargeReading (b : Blend) (cfg : Cfg) (r : Reading) : Eff Blend :=
  match b.current with
  | none => Eff.pure b
  | some (o, _, c) =>
      match o.draw, r.weight with
      | .waitStart, some w => if r.stable then Eff.pure (b.pour c.bin w 0) else Eff.pure b
      | .waitAgain, some w =>
          if r.stable then Eff.pure (b.pour c.bin (c.start.getD w) (w - c.start.getD w)) else Eff.pure b
      | .pouring, some w => b.pourReading cfg w r.stable
      | .pouring, none => Eff.pure { b.upd (fun o => { o with draw := .paused }) with gate := none }
      | .paused, some w =>
          if r.stable then
            ({ b.upd (fun o => { o with draw := .pouring }) with gate := some c.bin } : Blend).pourReading cfg w r.stable
          else Eff.pure b
      | .settling, some w => if r.becameStable then b.settleDone w else Eff.pure b
      | _, none => Eff.pure b

/-! ## Mixing, discharging and the end of a batch -/

/-- R77: the blender moves to DISCHARGING. While the station is JOINING the arbiter is told at the end of the join period
(R87). -/
def Blend.discharge (b : Blend) (joining : Bool) : Eff Blend :=
  match b.order with
  | none => Eff.pure b
  | some o =>
      Eff.mk' { b with state := .discharging, stall := .stopped }
        (match o.batch, joining with
          | some n, false => [.post .arb (.dischargeBegun n)]
          | _, _ => [])

/-- The report BATCH_ENDED (R78 to R81). -/
def batchReport (inv : Option Nat) (c : CauseCode) : Act := .report (Report.of .batchEnded inv none none (.code c))

/-- The order is cleared and the blender IDLE. -/
def Blend.toIdle (b : Blend) : Blend :=
  { b with state := .idle, held := none, stop := none, order := none, gate := none, starve := .stopped, stall := .stopped }

/-- The batch invoice. -/
def Blend.batchInv (b : Blend) : Option Nat :=
  match b.order with
  | none => none
  | some o => o.batch

/-- R79: the stop completes with a remainder. -/
def Blend.stopDone (b : Blend) (remainder : Nat) : Eff Blend :=
  match b.order, b.stop with
  | some o, some c =>
      Eff.mk' (b.addBook o.grade remainder).toIdle
        [batchReport o.batch (match c with
          | .stopped => .stopped
          | .ownerLost => .ownerLost)]
  | _, _ => Eff.pure b

/-- The stop completes at once where the latest reading is stable (R79). -/
def Blend.stopNow (b : Blend) : Eff Blend :=
  match b.stableNow with
  | some w => b.stopDone w.toNat
  | none => Eff.pure b

/-- R78: the batch is exhausted with a residue. -/
def Blend.exhausted (b : Blend) (w : Int) : Eff Blend :=
  match b.batchInv with
  | none => Eff.pure b
  | some n =>
      Eff.mk' b.toIdle [.post .inv (.endInvoice n .exhausted (some w.toNat)), .post .arb (.batchEnded .exhausted),
        batchReport (some n) .exhausted]

/-- A reading in MIXING, WAIT_CLAIM or DISCHARGING (R78, R79, R80). -/
def Blend.restReading (b : Blend) (cfg : Cfg) (r : Reading) : Eff Blend :=
  match r.stable, r.weight with
  | true, some w =>
      if b.stop.isSome then b.stopDone w.toNat
      else if b.state == .discharging && decide (w < (cfg.drumEmpty : Int)) then b.exhausted w
      else Eff.pure b
  | _, _ => Eff.pure b

/-- A reading (R57). -/
def Blend.takeReading (b0 : Blend) (cfg : Cfg) (r : Reading) : Eff Blend :=
  let b := { b0 with last := some r }
  match b.state with
  | .charging => b.chargeReading cfg r
  | .held =>
      if b.held == some .shortfall && r.becameStable then
        match b.current, r.weight with
        | some (_, _, c), some w => if c.settle then Eff.pure b else Eff.pure (b.settleShort w)
        | _, _ => Eff.pure b
      else Eff.pure b
  | .mixing | .waitClaim | .discharging => b.restReading cfg r
  | _ => Eff.pure b

/-- STARVE_TIMER_EXPIRY (R71). -/
def Blend.starved (b : Blend) : Eff Blend :=
  if b.starve.on && b.state == .charging then
    match b.current with
    | none => Eff.pure b
    | some (_, k, c) =>
        let b1 := { (b.updCur (fun c => { c with state := .shortfall })).upd (fun o => { o with draw := .settling }) with
          state := .held, held := some .shortfall, gate := none, starve := .stopped }
        let b2 := match b.stableNow with
          | some w => b1.settleShort w
          | none => b1
        Eff.mk' b2 [.report (Report.of .shortfall none (some (k + 1)) none (.number c.bin))]
  else Eff.pure b

/-- STALL_TIMER_EXPIRY (R74). -/
def Blend.stalled (b : Blend) : Eff Blend :=
  if b.stall.on && b.state == .mixing then
    let turns := match b.order with
      | none => 0
      | some o => o.turns
    Eff.mk' { b with state := .held, held := some .mixStall, stall := .stopped }
      [.report (Report.of .mixStall none none none (.number turns))]
  else Eff.pure b

/-- DRUM_TURN_PULSE (R74, R80). -/
def Blend.turn (b : Blend) (joining : Bool) : Eff Blend :=
  if b.state == .mixing && b.stop.isNone then
    match b.order with
    | none => Eff.pure b
    | some o =>
        let o1 := { o with turns := o.turns + 1 }
        let b1 := { b with order := some o1, stall := .running Config.stallTime }
        if o1.turns ≥ o1.mix then
          if o1.claim == .firm then b1.discharge joining else Eff.pure { b1 with state := .waitClaim, stall := .stopped }
        else Eff.pure b1
  else Eff.pure b

/-- The claim is firm (R76). -/
def Blend.firm (b : Blend) (joining : Bool) (n : Nat) : Eff Blend :=
  let taken := b.upd (fun o => { o with claim := .firm, batch := some n })
  match b.state with
  | .mixing => Eff.pure taken
  | .held => if b.held == some .mixStall then Eff.pure taken else Eff.pure b
  | .waitClaim => taken.discharge joining
  | _ => Eff.pure b

/-- The batch invoice is owned by another station (R80): the stop takes cause OWNER_LOST, one that is pending for END BATCH
too. In HELD(MIX_STALL) the change has no effect, and it is not tested again at CONTINUE (log 70). -/
def Blend.lost (b : Blend) (s : State) (n : Nat) : Eff Blend :=
  let firm := match b.order with
    | none => false
    | some o => o.claim == .firm
  let running := b.state == .mixing || b.state == .waitClaim || b.state == .discharging
  if b.batchInv == some n && firm && running && (s.inv.owned n).isNone then
    let ends : List Act := if b.state == .discharging then [.post .arb (.batchEnded .stopped)] else []
    (Eff.mk' { b with stop := some .ownerLost, stall := .stopped } ends).andThen Blend.stopNow
  else Eff.pure b

/-- The batch invoice's entry was freed: taken as its loss, unless a stop is pending already (R80, log 23). -/
def Blend.freed (b : Blend) (s : State) (n : Nat) : Eff Blend := if b.stop.isSome then Eff.pure b else b.lost s n

/-- The end of the join period: discharge begins again for a batch still DISCHARGING (R87, R185). -/
def Blend.joinEnded (b : Blend) (s : State) : Eff Blend :=
  match b.batchInv with
  | none => Eff.pure b
  | some n =>
      if b.state == .discharging && b.stop.isNone && (s.inv.owned n).isSome then Eff.mk' b [.post .arb (.dischargeBegun n)]
      else Eff.pure b

/-- The number is asked for again: a claim ASKED and not FIRM was lost with the warm start (R50, R87). -/
def Blend.askAgain (b : Blend) : List Act :=
  match b.order with
  | none => []
  | some o =>
      match o.claim, o.charged with
      | .asked, some w =>
          if b.state == .blocked then []
          else [.post .inv (.claimAsk { order := o.number, grade := o.grade, garden := o.garden, charged := w })]
      | _, _ => []

/-- After the load of a warm start (R87). In MIXING with stop pending for OWNER_LOST the stall timer stays stopped, as R80
stopped it (log 87). An end of the batch invoice (R78, R79, R81) whose HEADER(ENDING) was lost with the queue is not asked
for again, so the invoice stays OPEN (the model's choice, log 117). -/
def Blend.loaded (b : Blend) (s : State) : Eff Blend :=
  let e : Eff Blend := match b.state with
    | .charging =>
        Eff.mk' { b with state := .held, held := some .restart }
          [.report (Report.of .shortfall none none none (.code .restart))]
    | .mixing => Eff.pure (if b.stop.isNone then { b with stall := .running Config.stallTime } else b)
    | .discharging =>
        let owns := match b.batchInv with
          | none => false
          | some n => (s.inv.owned n).isSome
        Eff.pure (if b.stop.isNone && !owns then { b with stop := some .ownerLost } else b)
    | _ => Eff.pure b
  e.adds b.askAgain

/-- The blend sequencer's part in an event. -/
def takeBlend (s : State) (e : Ev) : Eff Blend :=
  let b := s.blend
  match e with
  | .reading r _ => b.takeReading s.cfg r
  | .claimFirm n => b.firm s.isJoining n
  | .ownerChanged n => b.lost s n
  | .entryFreed n => b.freed s n
  | .voidsBooked g total => Eff.pure (b.addBook g total)
  | .endOfJoin => b.joinEnded s
  | .loaded => b.loaded s
  | _ => Eff.pure b

/-! ## Requests (R65, R72, R75, R79, R81, R82, R84, R87) -/

/-- Test 2 of R65. -/
def orderInRange (o : OrderBody) : Bool :=
  decide (1 ≤ o.order) && decide (o.order ≤ 65535) && decide (o.grade ≤ 11) && (o.garden.all (textOk 8)) &&
    (o.mix.all (fun m => decide (4 ≤ m) && decide (m ≤ 60))) && decide (1 ≤ o.comps.length) &&
    decide (o.comps.length ≤ 8) &&
    o.comps.all (fun c => decide (1 ≤ c.1) && decide (c.1 ≤ 11) && decide (1 ≤ c.2) && decide (c.2 ≤ 500000))

/-- A component before it begins (R65). -/
def newComp (bin target : Nat) : Comp :=
  { bin := bin, target := target, drawn := 0, state := .pending, start := none, peak := 0, settle := false }

/-- The components of an order, the carry-over component first where the grade has a book weight (R66). -/
def Blend.compsOf (b : Blend) (o : OrderBody) : List Comp :=
  let w := (b.bookOf o.grade).weight
  (if w > 0 then [newComp 12 w] else []) ++ o.comps.map (fun c => newComp c.1 c.2)

/-- PLACE ORDER: the answer, the refusal cause's byte where it is RANGE, and the effect (R65, R66, R189). -/
def Blend.placeOrder (b : Blend) (s : State) (o : OrderBody) : PortAnswer × Nat × Eff Blend :=
  if b.state != .idle || s.dupOffline then (.state, 0, Eff.pure b)
  else if !orderInRange o then (.range, 0, Eff.pure b)
  else if s.start.rejected.contains o.grade then (.range, 1, Eff.pure b)
  else
    let comps := b.compsOf o
    let sum := comps.foldl (fun t c => t + c.target) 0
    if sum > 120 * s.targetOf o.grade ∨ sum > 500000 then (.range, 2, Eff.pure b)
    else
      let ord : Order :=
        { number := o.order, grade := o.grade, garden := o.garden.getD s.cfg.garden, mix := o.mix.getD s.cfg.mixTurns,
          comps := comps, cur := none, charged := none, turns := 0, claim := .none, batch := none, draw := .waitStart }
      (.ok, 0, Eff.pure (({ b with state := .charging, order := some ord } : Blend).beginComp 0))

/-- CONTINUE (R72, R75, R87). -/
def Blend.resume (b : Blend) : PortAnswer × Eff Blend :=
  if b.state != .held then (.state, Eff.pure b)
  else
    match b.held, b.current with
    | some .mixStall, _ =>
        (.ok, Eff.pure { b with state := .mixing, held := none, stall := .running Config.stallTime })
    | some .shortfall, some (o, k, c) =>
        if c.settle then
          let b1 := { b with state := .charging, held := none }
          let b2 := if c.bin = 12 then b1.lowerBook o.grade c.drawn else b1
          (.ok, b2.following k)
        else (.state, Eff.pure b)
    | some .restart, some (o, k, c) =>
        let b1 := { b with state := .charging, held := none }
        match o.draw with
        | .settling =>
            match b.stableNow with
            | some w => (.ok, b1.settleDone w)
            | none => (.ok, Eff.pure b1)
        | _ => if c.start.isSome then (.ok, Eff.pure b1.pourAgain) else (.ok, Eff.pure (b1.beginComp k))
    | _, _ => (.state, Eff.pure b)

/-- REDRAW, naming a bin (R72, R87). One that fits both the RANGE and the STATE row is answered RANGE (log 69). -/
def Blend.redraw (b : Blend) (bin : Nat) : PortAnswer × Eff Blend :=
  let waits := b.state == .held && (b.held == some .shortfall || b.held == some .restart)
  match waits, b.current with
  | true, some (_, k, c) =>
      if c.bin = 12 ∨ bin = 0 ∨ bin > 11 then (.range, Eff.pure b)
      else if (b.held == some .shortfall && !c.settle) || (b.held == some .restart && b.stableNow.isNone) then
        (.state, Eff.pure b)
      else
        let b1 := { b.updCur (fun c => { c with bin := bin, drawn := 0, state := .drawing, settle := false }) with
          state := .charging, held := none }
        if c.start.isSome then (.ok, Eff.pure b1.pourAgain) else (.ok, Eff.pure (b1.beginComp k))
  | _, _ => (.state, Eff.pure b)

/-- END BATCH (R79). -/
def Blend.endBatch (b : Blend) : PortAnswer × Eff Blend :=
  if b.state != .discharging then (.state, Eff.pure b)
  else
    match b.stop, b.batchInv with
    | none, some n =>
        (.ok, (Eff.mk' { b with stop := some .stopped }
          [.post .inv (.endInvoice n .stopped none), .post .arb (.batchEnded .stopped)]).andThen Blend.stopNow)
    | some .stopped, _ => (.ok, b.stopDone 0)
    | _, _ => (.state, Eff.pure b)

/-- CANCEL is taken (R81). -/
def Blend.cancellable (b : Blend) : Bool :=
  match b.state with
  | .charging | .mixing | .waitClaim | .held => true
  | .discharging => b.stop == some .ownerLost
  | _ => false

/-- CANCEL (R81). The order stays readable in BLOCKED with its current component, and with stop pending where the invoice
was lost, so that a TOPUP for it is answered EXHAUSTED (R90, log 76). -/
def Blend.cancel (b : Blend) : PortAnswer × Eff Blend :=
  if b.cancellable then
    match b.order with
    | none => (.state, Eff.pure b)
    | some o =>
        let acts : List Act := match o.claim, o.batch with
          | .asked, _ => [.post .inv .claimCancel]
          | .firm, some n => if b.stop == some .ownerLost then [] else [.post .inv (.endInvoice n .cancelled none)]
          | _, _ => []
        (.ok, Eff.mk' { b with state := .blocked, held := none, gate := none, starve := .stopped,
                               stall := .stopped } (acts ++ [batchReport o.batch .cancelled]))
  else (.state, Eff.pure b)

/-- CONFIRM EMPTY (R82). -/
def Blend.confirmEmpty (b : Blend) (cfg : Cfg) : PortAnswer × Eff Blend :=
  if b.state != .blocked then (.state, Eff.pure b)
  else
    match b.stableNow with
    | none => (.state, Eff.pure b)
    | some w => if w < (cfg.drumEmpty : Int) then (.ok, Eff.pure b.toIdle) else (.range, Eff.pure b)

/-- An order of the grade whose carry-over component is PENDING, DRAWING, or SHORTFALL and not yet continued (R84). -/
def Blend.carryBusy (b : Blend) (g : Nat) : Bool :=
  match b.order with
  | none => false
  | some o => o.grade == g &&
      match o.comps with
      | c :: _ => c.bin == 12 && (c.state == .pending || c.state == .drawing || (c.state == .shortfall && o.cur == some 0))
      | [] => false

/-- CARRY-OVER SET (R84). -/
def Blend.carrySet (b : Blend) (r : CarrySet) : PortAnswer × Eff Blend :=
  if r.grade > 11 ∨ r.weight > 500000 then (.range, Eff.pure b)
  else if b.carryBusy r.grade then (.state, Eff.pure b)
  else (.ok, Eff.pure (b.setBook r.grade { weight := r.weight, count := 0 }))

end Sys2Proof.Machine
end

