-- ==== Sys2Proof/Machine/Head.lean ====
section
/-! DEFINITION. The head controller (06_filling_a_chest.md). -/

namespace Sys2Proof.Machine

/-! ## What governs a chest (R103, R105) -/

/-- The grade index of an invoice in the station's own table. -/
def State.invoiceGrade (s : State) (n : Nat) : Option Nat := (s.inv.find n).map (fun e => e.data.hdr.grade)

/-- The governing grade's index (R103). -/
def Head.gradeIndex (h : Head) (s : State) : Nat :=
  match h.chest with
  | none => h.refGrade
  | some c =>
      match c.inv with
      | none => h.refGrade
      | some n => (s.invoiceGrade n).getD h.refGrade

/-- The limits while no configuration gives a grade table (log 1). -/
def Grade.none : Grade :=
  { target := 0, underTol := 0, overTol := 0, tareNom := 0, tareBand := 0, shortMin := 0, name := [], layout := 0 }

/-- The record of a grade index, that of an index above 11 too (log 110). -/
def State.gradeRec (s : State) (g : Nat) : Grade := (s.gradeOf g).getD Grade.none

/-- The governing grade. -/
def Head.grade (h : Head) (s : State) : Grade := s.gradeRec (h.gradeIndex s)

/-- Lower limit (R103). -/
def lowerLimit (g : Grade) : Int := (g.target : Int) - g.underTol
/-- Upper limit (R103). -/
def upperLimit (g : Grade) : Int := (g.target : Int) + g.overTol
/-- Dribble point (R103). -/
def dribblePoint (g : Grade) (band : Nat) : Int := (g.target : Int) - band
/-- Cutoff point of a lease (R103, R111). -/
def cutoffPoint (g : Grade) (allowance : Nat) : Purpose → Int
  | .fill => (g.target : Int) - allowance
  | .topup => lowerLimit g
/-- The tare lies inside the grade's tare window (R103). -/
def inTareWindow (g : Grade) (w : Int) : Bool :=
  decide ((g.tareNom : Int) - g.tareBand ≤ w) && decide (w ≤ (g.tareNom : Int) + g.tareBand)

/-- A weight held within 0 to 65535 (R112). -/
def chestWeight (w : Int) : Nat := (clampInt 0 65535 w).toNat

/-- The working weight of the latest reading. -/
def Head.weight (h : Head) : Option Int :=
  match h.last with
  | none => none
  | some r => r.weight

/-- The platform is seen to hold a chest (R105). -/
def Head.seesChest (h : Head) (s : State) : Bool :=
  s.presence && match h.weight with
    | none => false
    | some w => decide (w > (s.cfg.headEmpty : Int))

/-- The platform is empty (R105). -/
def Head.platformEmpty (h : Head) (s : State) : Bool :=
  !s.presence && match h.weight with
    | none => false
    | some w => decide (w < (s.cfg.headEmpty : Int))

/-- The owner that reports go to, or the head's blender (R117). -/
def State.reportTo (s : State) (n : Nat) : Nat :=
  match s.inv.find n with
  | none => s.cfg.blender
  | some e => e.data.hdr.owner

/-- The chest in progress changed. -/
def Head.setChest (h : Head) (f : ChestNow → ChestNow) : Head := { h with chest := h.chest.map f }

/-- The chest's invoice. -/
def Head.chestInv (h : Head) : Option Nat :=
  match h.chest with
  | none => none
  | some c => c.inv

/-! ## Asking and leases (R107, R108, R115) -/

/-- The head enters EMPTY: no chest, tracking permitted (R105). -/
def Head.toEmpty (h : Head) : Eff Head :=
  Eff.mk' { h with state := .empty, lease := .none, cause := none, chest := none, sendFrame := none,
                   refusedVoid := false, waitOwner := false, waitBlender := false, waitJoin := false, voidOk := false,
                   emptied := false } [.track true]

/-- LEASE-ASK(FILL) opened, unless HOLD is in force (R107, R108). -/
def Head.askFill (h : Head) (s : State) : Eff Head :=
  match h.chest with
  | none => Eff.pure h
  | some c =>
      if h.hold then Eff.pure { h with lease := .none }
      else Eff.mk' { h with lease := .asked, waitBlender := false, waitJoin := false }
        [.openEx (.leaseAsk c.token) (.leaseAsk { purpose := .fill, token := c.token, inv := 0 }) s.cfg.blender
          s.cfg.blender false]

/-- LEASE-ASK(TOPUP) opened; TOPUP_WAIT (R115). -/
def Head.askTopup (h : Head) (s : State) : Eff Head :=
  match h.chest with
  | none => Eff.pure h
  | some c =>
      Eff.mk' { h with state := .topupWait, lease := .topupAsked, cause := none, sendFrame := none }
        [.openEx (.leaseAsk c.token) (.leaseAsk { purpose := .topup, token := c.token, inv := c.inv.getD 0 })
          s.cfg.blender s.cfg.blender false]

/-- LEASE-DONE opened (R111). -/
def openDone (s : State) (lease : Nat) : Act :=
  .openEx (.leaseDone lease) (.leaseDone lease) s.cfg.blender s.cfg.blender false

/-- LEASE-CANCEL opened (R108, R120). -/
def openCancel (s : State) (token : Nat) : Act :=
  .openEx (.leaseCancel token) (.leaseCancel token) s.cfg.blender s.cfg.blender false

/-- The frames by which the head gives up the lease it holds (R120). -/
def Head.giveUp (h : Head) (s : State) : List Act :=
  match h.chest with
  | none => []
  | some c =>
      match h.lease with
      | .none => []
      | .current => [openDone s (c.lease.getD 0)]
      | .asked | .next | .topupAsked => [openCancel s c.token]

/-! ## Faults (R120, R122) -/

/-- A fault as a report's cause; REFUSED carries the refusal's reason (R117, R120). -/
def faultCode : HeadFault → CauseCode
  | .tareRange => .tareRange
  | .unstable => .unstable
  | .overLimit => .overLimit
  | .underLimit => .underLimit
  | .overload => .overload
  | .scaleLost => .scaleLost
  | .chestLost => .chestLost
  | .refused => .unknown
  | .send => .send
  | .restart => .restart

/-- A refusal reason as a report's cause. -/
def reasonCode : RefuseReason → CauseCode
  | .ended => .ended
  | .shortTaken => .shortTaken
  | .unknown => .unknown
  | .voidFull => .voidFull
  | .listFull => .listFull

/-- HELD with a cause (R120). A flight not yet measured stays unmeasured (R112). -/
def Head.faultWith (h : Head) (s : State) (cause : HeadFault) (code : CauseCode) (frame : Option SendFrame)
    (inVoid : Bool) : Eff Head :=
  let unmeasured := h.flight.on || h.state == .fast || h.state == .dribble
  let mark := fun (c : ChestNow) => { c with lease := none, flight := if unmeasured then none else c.flight }
  Eff.mk' ({ h with state := .held, lease := .none, cause := some cause, flight := .stopped, settle := .stopped,
                    sendFrame := frame, refusedVoid := inVoid, waitOwner := false, waitBlender := false,
                    waitJoin := false }.setChest mark)
    (h.giveUp s ++ [.track false, .report (Report.of .headFault h.chestInv none none (.code code))])

/-- A fault whose report carries its own cause. -/
def Head.fault (h : Head) (s : State) (c : HeadFault) : Eff Head := h.faultWith s c (faultCode c) none false

/-- The fault SEND with the frame to send again (R120). -/
def Head.sendFault (h : Head) (s : State) (f : SendFrame) : Eff Head := h.faultWith s .send .send (some f) false

/-- A double fault (R122). What is still held is what the lease state says: after a LEASE-DONE that failed (HELD(SEND)) it is
NONE although the arbiter may hold the lease, so no LEASE-CANCEL goes out and the frame to send again is dropped (the model's
choice, log 121). -/
def Head.lock (h : Head) (s : State) : Eff Head :=
  Eff.mk' ({ h with state := .locked, lease := .none, cause := none, sendFrame := none, refusedVoid := false }.setChest
      (fun c => { c with lease := none }))
    (h.giveUp s ++ [.report (Report.of .headFault h.chestInv none none (.code .double))])

/-! ## Taring (R105, R106) -/

/-- A chest entry or void record of that head and token stands in an OPEN or ENDING invoice (R106). -/
def State.tokenUsed (s : State) (t : Nat) : Bool :=
  s.inv.table.any fun e =>
    (e.data.hdr.state == .opened || e.data.hdr.state == .ending) &&
    ((e.data.chestOf s.self t).isSome || (e.data.voidOf s.self t).isSome)

/-- The first free token after `last`, among `k` candidates (R106). -/
def State.findToken (s : State) (last : Nat) : Nat → Nat → Option Nat
  | 0, _ => none
  | k + 1, c => if s.tokenUsed c then s.findToken last k ((c + 1) % 256) else some c

/-- The new token (R106). -/
def Head.newToken (h : Head) (s : State) : Nat :=
  (s.findToken h.lastToken 256 ((h.lastToken + 1) % 256)).getD ((h.lastToken + 1) % 256)

/-- The tare is taken (R106), held at 65535, which is all its field has room for (R102, log 89). -/
def Head.tare (h : Head) (s : State) (w : Int) : Eff Head :=
  if inTareWindow (s.gradeRec h.refGrade) w then
    let t := h.newToken s
    let c : ChestNow :=
      { token := t, inv := none, tare := chestWeight w, gross := none, net := none, topups := 0, limit := s.cfg.topups,
        starved := false, flight := none, flightLong := false, cls := none, lease := none, purpose := .fill,
        voided := none }
    ({ h with state := .waiting, chest := some c, lastToken := t } : Head).askFill s
  else h.fault s .tareRange

/-- VOIDING ends when it was confirmed, or needed no confirmation, and the platform has been found empty (R118). -/
def Head.voidEnd (h : Head) : Eff Head := if h.voidOk && h.emptied then h.toEmpty else Eff.pure h

/-- The tests of the platform at a reading and at a change of the presence input (R105, R106, R108, R118). -/
def Head.platformTest (h : Head) (s : State) : Eff Head :=
  match h.state with
  | .empty => if h.seesChest s then Eff.mk' { h with state := .taring } [.track false] else Eff.pure h
  | .taring => if h.platformEmpty s then h.toEmpty else Eff.pure h
  | .waiting =>
      if h.platformEmpty s then
        let acts := match h.chest, h.lease with
          | some c, .asked => [openCancel s c.token]
          | some c, .next => [openCancel s c.token]
          | _, _ => []
        (Eff.mk' h acts).andThen Head.toEmpty
      else Eff.pure h
  | .releasing => if h.platformEmpty s then h.toEmpty else Eff.pure h
  | .voiding => if h.platformEmpty s then ({ h with emptied := true } : Head).voidEnd else Eff.pure h
  | _ => Eff.pure h

/-! ## Reporting and voiding (R117, R118, R119) -/

/-- CHEST-DONE opened to the owner; REPORTED (R117). -/
def Head.openReport (h : Head) (s : State) : Eff Head :=
  match h.chest with
  | none => Eff.pure h
  | some c =>
      let n := c.inv.getD 0
      let cls := c.cls.getD .full
      let b : ChestDoneBody :=
        { inv := n, token := c.token, gross := c.gross.getD 0, tare := c.tare, net := c.net.getD 0, topups := c.topups,
          cls := cls, flightLong := c.flightLong }
      Eff.mk' { h with state := .reported, cause := none, sendFrame := none, waitOwner := false, waitJoin := false }
        [.openEx (.chestDone n c.token) (.chestDone b) (s.reportTo n) (s.reportTo n) (cls == .short)]

/-- The net a void books (R118); a chest with no weight read since the start has a free value (log 27). -/
def Head.voidNet (h : Head) (c : ChestNow) : Nat :=
  match c.net with
  | some n => n
  | none =>
      match h.lastWeight with
      | some w => chestWeight (w - c.tare)
      | none => Config.voidNet c.token % 65536

/-- FILL-VOID with a net opened to the owner; VOIDING. The chest keeps the net (R118, R119). -/
def Head.openVoid (h : Head) (s : State) (c : ChestNow) (n net : Nat) : Eff Head :=
  Eff.mk' ({ h with state := .voiding, lease := .none, cause := none, sendFrame := none, refusedVoid := false,
                    waitOwner := false, waitJoin := false, voidOk := false, emptied := false }.setChest
      (fun c => { c with voided := some net }))
    [.openEx (.fillVoid n c.token) (.fillVoid { inv := n, token := c.token, net := net }) (s.reportTo n) (s.reportTo n)
      false]

/-- VOIDING with nothing to be confirmed (R118). -/
def Head.voidUnbooked (h : Head) : Eff Head :=
  Eff.pure { h with state := .voiding, lease := .none, cause := none, sendFrame := none, refusedVoid := false,
                    waitOwner := false, waitJoin := false, voidOk := true, emptied := false }

/-- The chest is voided (R118). -/
def Head.voidChest (h : Head) (s : State) : Eff Head :=
  match h.chest with
  | none => h.voidUnbooked
  | some c =>
      match c.inv with
      | none => h.voidUnbooked
      | some n => h.openVoid s c n (h.voidNet c)

/-- The same FILL-VOID opened again, its net unchanged; a platform already found empty stays so (R118, R119, R121,
R123). -/
def Head.openVoidAgain (h : Head) (s : State) : Eff Head :=
  match h.chest, h.chestInv with
  | some c, some n =>
      let e := h.openVoid s c n (c.voided.getD (h.voidNet c))
      { e with st := { e.st with emptied := h.emptied } }
  | _, _ => h.voidUnbooked

/-- The frame a waiting REPORTED or VOIDING head opens again (R119). -/
def Head.reopen (h : Head) (s : State) : Eff Head :=
  match h.state with
  | .reported => h.openReport s
  | .voiding => if h.voidOk then Eff.pure h else h.openVoidAgain s
  | _ => Eff.pure h

/-! ## Feeding, settling and the check (R111 to R116) -/

/-- SETTLING after a cutoff: flight and settle timers start (R111, R116). -/
def Head.toSettling (h : Head) : Head :=
  { h with state := .settling, lease := .none, flight := .running 0, settle := .running Config.headSettle }.setChest
    (fun c => { c with flight := none, lease := none })

/-- SETTLING with the settle timer alone (R116, R121). -/
def Head.settleOnly (h : Head) : Head :=
  { h with state := .settling, lease := .none, cause := none, sendFrame := none, flight := .stopped,
           settle := .running Config.headSettle }.setChest (fun c => { c with lease := none })

/-- FAST with a CURRENT lease (R109). The fault for OVERLOAD or SCALE_LOST is raised at once (R109, R120); where both stand
it is OVERLOAD (log 73). -/
def Head.toFast (h : Head) (s : State) (lease : Nat) (p : Purpose) : Eff Head :=
  let h1 := ({ h with state := .fast, lease := .current } : Head).setChest
    (fun c => { c with lease := some lease, purpose := p })
  match h1.last with
  | none => Eff.pure h1
  | some r =>
      if r.weight.isSome then Eff.pure h1
      else if r.overload then h1.fault s .overload
      else if r.lost then h1.fault s .scaleLost
      else Eff.pure h1

/-- R113: the flight allowance after a clean chest. -/
def learned (allowance band : Nat) (net target : Int) : Nat :=
  (clampInt 0 band ((allowance : Int) + (net - target).tdiv 4)).toNat

/-- R114: the check of a chest whose weights have been set. -/
def Head.check (h : Head) (s : State) (c : ChestNow) : Eff Head :=
  let g := h.grade s
  let net : Int := c.net.getD 0
  if net > upperLimit g then h.fault s .overLimit
  else if lowerLimit g ≤ net then
    let clean := c.topups = 0 ∧ c.starved = false ∧ c.flightLong = false
    let h1 := if clean then { h with allowance := learned h.allowance s.cfg.dribble net g.target } else h
    (h1.setChest (fun c => { c with cls := some .full })).openReport s
  else if c.starved then
    if (g.shortMin : Int) ≤ net then (h.setChest (fun c => { c with cls := some .short })).openReport s
    else h.voidChest s
  else if c.topups < c.limit then h.askTopup s
  else h.fault s .underLimit

/-- R112: the stable reading of SETTLING. A flight that a fault left unmeasured sets FLIGHT_LONG. -/
def Head.settled (h : Head) (s : State) (w : Int) (flightMs : Nat) : Eff Head :=
  match h.chest with
  | none => Eff.pure h
  | some c =>
      let flight := if h.flight.on then some flightMs else c.flight
      let long := c.flightLong || match flight with
        | none => true
        | some ms => decide (ms > Config.flightLong)
      let c1 := { c with flight := flight, flightLong := long, gross := some (chestWeight w),
                         net := some (chestWeight (w - c.tare)) }
      let h1 := { h with flight := .stopped, settle := .stopped, chest := some c1 }
      h1.check s c1

/-- R116: starvation. -/
def Head.starve (h : Head) : Head :=
  let h1 := h.setChest (fun c => { c with starved := true })
  match h.state with
  | .fast | .dribble => h1.toSettling
  | .topupWait => h1.settleOnly
  | _ => h

/-- R111: a reading with a weight in FAST or DRIBBLE. -/
def Head.feed (h : Head) (s : State) (w : Int) : Eff Head :=
  match h.chest with
  | none => Eff.pure h
  | some c =>
      let g := h.grade s
      let net := w - c.tare
      if net ≥ cutoffPoint g h.allowance c.purpose then Eff.mk' h.toSettling [openDone s (c.lease.getD 0)]
      else if h.state == .fast && decide (net ≥ dribblePoint g s.cfg.dribble) then
        Eff.pure { h with state := .dribble }
      else Eff.pure h

/-- R122: a reading in HELD that is a double fault. -/
def Head.doubleFault (h : Head) (s : State) (r : Reading) : Bool :=
  (r.overload && r.overloadMark) || (r.lost && r.lostMark) ||
    (h.cause != some .tareRange && h.cause != some .chestLost && r.stable &&
      match h.chest, r.weight with
      | some c, some w => decide (w < (c.tare : Int) - (h.grade s).tareBand)
      | _, _ => false)

/-- A reading (R57, R105, R106, R111, R112, R122). -/
def Head.takeReading (h0 : Head) (s : State) (r : Reading) (flightMs : Nat) : Eff Head :=
  let h : Head := { h0 with last := some r, lastWeight := match r.weight with
    | none => h0.lastWeight
    | some w => some w }
  let ovl := r.overload && r.overloadMark
  let lost := r.lost && r.lostMark
  match h.state with
  | .taring =>
      if h.platformEmpty s then h.toEmpty
      else if h.seesChest s && r.stable then h.tare s (r.weight.getD 0)
      else Eff.pure h
  | .fast | .dribble =>
      if ovl then h.fault s .overload
      else if lost then h.fault s .scaleLost
      else
        match r.weight with
        | none => Eff.pure h
        | some w => h.feed s w
  | .settling =>
      if ovl then h.fault s .overload
      else if lost then h.fault s .scaleLost
      else if r.stable then
        match r.weight with
        | none => Eff.pure h
        | some w => h.settled s w flightMs
      else Eff.pure h
  | .held => if h.doubleFault s r then h.lock s else Eff.pure h
  | _ => h.platformTest s

/-- The presence input changed (R105, R111, R112, R115). -/
def Head.takePresence (h : Head) (s : State) : Eff Head :=
  match h.state with
  | .fast | .dribble | .settling | .topupWait => if s.presence then Eff.pure h else h.fault s .chestLost
  | _ => h.platformTest s

/-! ## Lease frames (R107, R109, R110) -/

/-- NOTED for a grant (R109). -/
def noteGrant (s : State) (lease : Nat) (r : NotedResult) : Act :=
  .send (replyFrame s.cfg.blender (notedMsg .leaseGrant lease r) .plain)

/-- R109: the first CURRENT grant of a chest, with the CURRENT test of its tare. -/
def Head.firstGrant (h : Head) (s : State) (c : ChestNow) (b : LeaseGrantBody) : Eff Head :=
  let ref := (s.invoiceGrade b.inv).getD h.refGrade
  let h1 := ({ h with refGrade := ref } : Head).setChest (fun c => { c with inv := some (c.inv.getD b.inv) })
  if inTareWindow (s.gradeRec ref) c.tare then h1.toFast s b.lease .fill
  else (({ h1 with lease := .current } : Head).setChest (fun c => { c with lease := some b.lease })).fault s .tareRange

/-- The grant is a repeat of the lease held in that slot (R109). -/
def Head.repeats (h : Head) (b : LeaseGrantBody) : Bool :=
  match h.chest with
  | none => false
  | some c => c.lease == some b.lease &&
      match b.slot with
      | .current => h.lease == .current
      | .next => h.lease == .next

/-- R109: LEASE-GRANT. -/
def Head.takeGrant (h : Head) (s : State) (b : LeaseGrantBody) : Eff Head :=
  let ok := noteGrant s b.lease .ok
  let no := noteGrant s b.lease .notHeld
  if h.repeats b then Eff.mk' h [ok]
  else
    match h.chest with
    | none => Eff.mk' h [no]
    | some c =>
        match h.state, h.lease, b.slot with
        | .waiting, .asked, .next | .topupWait, .topupAsked, .next =>
            Eff.mk' (({ h with lease := .next } : Head).setChest (fun c => { c with lease := some b.lease })) [ok]
        | .waiting, .asked, .current | .waiting, .next, .current =>
            (Eff.mk' h [ok]).andThen (fun h => h.firstGrant s c b)
        | .topupWait, .topupAsked, .current | .topupWait, .next, .current =>
            if c.inv = some b.inv then
              (Eff.mk' (({ h with refGrade := (s.invoiceGrade b.inv).getD h.refGrade } : Head).setChest
                  (fun c => { c with topups := c.topups + 1 })) [ok]).andThen (fun h => h.toFast s b.lease .topup)
            else Eff.mk' h [no]
        | _, _, _ => Eff.mk' h [no]

/-- The lease is gone and the head asks again at once, subject to HOLD (R110). -/
def Head.askAgain (h : Head) (s : State) : Eff Head :=
  (({ h with lease := .none } : Head).setChest (fun c => { c with lease := none })).askFill s

/-- R110: LEASE-END. -/
def Head.takeEnd (h : Head) (s : State) (b : LeaseEndBody) : Eff Head :=
  let held := match h.chest with
    | none => none
    | some c => c.lease
  if b.lease ≠ 0 ∧ held ≠ some b.lease then Eff.pure h
  else
    match h.state, b.reason with
    | .fast, .exhausted | .fast, .stopped | .fast, .blenderRestart
    | .dribble, .exhausted | .dribble, .stopped | .dribble, .blenderRestart
    | .topupWait, .exhausted | .topupWait, .stopped | .topupWait, .blenderRestart => Eff.pure h.starve
    | .fast, .headAbsent | .dribble, .headAbsent => Eff.pure h.toSettling
    | .topupWait, .headAbsent => (h.setChest (fun c => { c with lease := none })).askTopup s
    | .waiting, .exhausted | .waiting, .stopped =>
        if b.lease = 0 ∨ h.lease = .none then Eff.pure h else h.askAgain s
    | .waiting, .blenderRestart | .waiting, .headAbsent =>
        if h.lease = .none then Eff.pure h else h.askAgain s
    | .waiting, .deferred =>
        if h.lease = .next then
          Eff.pure (({ h with lease := .asked } : Head).setChest (fun c => { c with lease := none }))
        else Eff.pure h
    | _, _ => Eff.pure h

/-- HOLD ends (R107); where it is not in force nothing ends and no ask opens. The ask opens at once, also where an ABSENT
blender or the own JOIN was waited for (log 79). -/
def Head.endHold (h : Head) (s : State) : Eff Head :=
  let h1 := { h with hold := false, lapse := .stopped }
  if h.hold && h1.state == .waiting && h1.lease == .none then h1.askFill s else Eff.pure h1

/-! ## Answers to the head's own reports (R117, R118) -/

/-- The frame's invoice and token are the chest's. -/
def Head.isChest (h : Head) (n t : Nat) : Bool :=
  match h.chest with
  | none => false
  | some c => c.inv == some n && c.token == t

/-- REPORTED, or HELD with cause SEND or REFUSED for a CHEST-DONE (R117). -/
def Head.awaitsEntry (h : Head) : Bool :=
  h.state == .reported ||
    (h.state == .held && ((h.cause == some .send && h.sendFrame == some .chestDone) ||
      (h.cause == some .refused && !h.refusedVoid)))

/-- CHEST-ENTERED for the chest: RELEASING (R117, R118). -/
def Head.takeEntered (h : Head) (s : State) (b : ChestEnteredBody) : Eff Head :=
  if h.awaitsEntry && h.isChest b.inv b.token && b.head == s.self then
    Eff.mk' { h with state := .releasing, cause := none, sendFrame := none, waitOwner := false, waitJoin := false }
      [.report (Report.of .chestEntered (some b.inv) (some b.ordinal) none .absent)]
  else Eff.pure h

/-- CHEST-REFUSED for the chest (R117, R118, R120). In VOIDING it raises REFUSED whether or not it ends an exchange of the
head, whatever its source (log 92). -/
def Head.takeRefused (h : Head) (s : State) (b : RefusedBody) : Eff Head :=
  if h.isChest b.inv b.token then
    if h.awaitsEntry then h.faultWith s .refused (reasonCode b.reason) none false
    else if h.state == .voiding && !h.voidOk then h.faultWith s .refused (reasonCode b.reason) none true
    else Eff.pure h
  else Eff.pure h

/-- The endings of the head's exchanges (R108, R111, R115, R117, R118, R119). A LEASE-ASK confirmed by NOTED with result OK
or FULL leaves the head asking, as QUEUED does (log 91). -/
def Head.takeExEnd (h : Head) (s : State) (x : Exchange) (how : ExEnd) (confirm : Option Msg) (atOpen : Bool) : Eff Head :=
  let failed := how == .noConfirm || how == .sendFailed || how == .offline
  match x.key with
  | .leaseAsk t =>
      let mine := match h.chest with
        | none => false
        | some c => c.token == t
      if !mine then Eff.pure h
      else
        let frame : Option SendFrame :=
          if h.state == .waiting && h.lease == .asked then some .askFill
          else if h.state == .topupWait && h.lease == .topupAsked then some .askTopup
          else none
        match frame with
        | none => Eff.pure h
        | some f =>
            if failed then h.sendFault s f
            else if how == .destinationAbsent then
              if f == .askFill then Eff.pure { h with lease := .none, waitBlender := true } else Eff.pure h
            else
              match confirm with
              | some (.noted b) => if b.result == .notHeld then h.sendFault s f else Eff.pure h
              | _ => Eff.pure h
  | .chestDone n t =>
      if h.state == .reported && h.isChest n t then
        if failed then h.sendFault s .chestDone
        else if how == .destinationAbsent then Eff.pure { h with waitOwner := true }
        else Eff.pure h
      else Eff.pure h
  | .fillVoid n t =>
      if h.state == .voiding && !h.voidOk && h.isChest n t then
        if failed then h.sendFault s .fillVoid
        else if how == .destinationAbsent then Eff.pure { h with waitOwner := true }
        else
          match confirm with
          | some (.noted _) => ({ h with voidOk := true } : Head).voidEnd
          | _ => Eff.pure h
      else Eff.pure h
  | .leaseDone n =>
      if failed then
        if h.state == .settling then h.sendFault s (.done n)
        else if atOpen then Eff.pure { h with owedDone := h.owedDone.filter (fun k => k != n) ++ [n] }
        else Eff.mk' h [openDone s n]
      else Eff.pure h
  | _ => Eff.pure h

/-! ## Station-table events (R108, R110, R119) -/

/-- The blender restarted: taken as LEASE-END BLENDER_RESTART (R110). -/
def Head.blenderBack (h : Head) (s : State) : Eff Head :=
  match h.state with
  | .fast | .dribble | .topupWait => Eff.pure h.starve
  | .waiting =>
      if h.lease = .none then (if h.waitBlender then h.askFill s else Eff.pure h) else h.askAgain s
  | _ => Eff.pure h

/-- The blender went ABSENT (R110). -/
def Head.blenderGone (h : Head) : Head :=
  match h.state with
  | .fast | .dribble | .topupWait => h.starve
  | .waiting =>
      if h.lease = .none then h
      else ({ h with lease := .none, waitBlender := true } : Head).setChest (fun c => { c with lease := none })
  | _ => h

/-- The recorded owner of the chest's invoice is station `n`; the head's blender where the table does not hold the invoice
(R117, R119, log 93). -/
def Head.ownerIs (h : Head) (s : State) (n : Nat) : Bool :=
  match h.chestInv with
  | none => false
  | some k => s.reportTo k == n

/-- A station-table event (R22). -/
def Head.takePeer (h : Head) (s : State) (n : Nat) (old new : PeerState) (via : Via) : Eff Head :=
  let asBlender : Eff Head :=
    if n = s.cfg.blender then
      match new with
      | .absent => Eff.pure h.blenderGone
      | .present => if h.state == .waiting && h.lease == .none && h.waitBlender then h.askFill s else Eff.pure h
      | .joining =>
          match via with
          | .joinFrame _ _ => h.blenderBack s
          | .presenceFrame => if old == .present then h.blenderBack s else Eff.pure h
          | .other => Eff.pure h
      | .unknown => Eff.pure h
    else Eff.pure h
  asBlender.andThen (fun h =>
    if new == .present && h.waitOwner && h.ownerIs s n then h.reopen s else Eff.pure h)

/-- An owner change of the chest's invoice (R119). One within the own join period opens the report at once, and the end of
that period does not open it again (log 64). -/
def Head.takeOwner (h : Head) (s : State) (n : Nat) : Eff Head :=
  if h.chestInv = some n then h.reopen s else Eff.pure h

/-- After the load of a warm start (R123). -/
def Head.loaded (h : Head) (s : State) : Eff Head :=
  let free := ({ h with lease := .none } : Head).setChest (fun c => { c with lease := none })
  match h.state with
  | .fast | .dribble | .settling | .topupWait => free.fault s .restart
  | .waiting => Eff.pure { free with waitJoin := true, waitBlender := false }
  | .reported => Eff.pure { h with waitJoin := true, waitOwner := false }
  | .voiding => Eff.pure (if h.voidOk then h else { h with waitJoin := true, waitOwner := false })
  | .empty => Eff.mk' h [.track true]
  | _ => Eff.pure h

/-! ## The unit's handler -/

/-- The head controller's part in an event. A HOLD or GO to all stations is taken as one to this station is (R107,
log 90). -/
def takeHead (s : State) (e : Ev) : Eff Head :=
  let h := s.head
  match e with
  | .reading r ms => h.takeReading s r ms
  | .presenceChanged => h.takePresence s
  | .peer n old new via => h.takePeer s n old new via
  | .ownerChanged n => h.takeOwner s n
  | .exEnded x how confirm atOpen => h.takeExEnd s x how confirm atOpen
  | .joinDone => if h.waitJoin && h.state == .waiting && h.lease == .none then h.askFill s else Eff.pure h
  | .loaded => h.loaded s
  | .endOfJoin => if h.waitJoin then ({ h with waitJoin := false } : Head).reopen s else Eff.pure h
  | .frame src _ m _ =>
      match m with
      | .leaseGrant b => if src = s.cfg.blender then h.takeGrant s b else Eff.pure h
      | .leaseEnd b => if src = s.cfg.blender then h.takeEnd s b else Eff.pure h
      | .hold _ => Eff.pure { h with hold := true, lapse := .running Config.holdLapse }
      | .go _ => h.endHold s
      | .chestEntered b => h.takeEntered s b
      | .chestRefused b => h.takeRefused s b
      | _ => Eff.pure h
  | _ => Eff.pure h

/-! ## Timers and requests -/

/-- HOLD_LAPSE_TIMER_EXPIRY (R107). -/
def Head.lapseExpired (h : Head) (s : State) : Eff Head := if h.lapse.on then h.endHold s else Eff.pure h

/-- HEAD_SETTLE_TIMER_EXPIRY (R112). -/
def Head.settleExpired (h : Head) (s : State) : Eff Head :=
  if h.settle.on && h.state == .settling then
    (h.setChest (fun c => { c with flightLong := true })).fault s .unstable
  else Eff.pure h

/-- START (R104). It is answered STATE while the station is OFFLINE, for a duplicate number too (log 88). -/
def Head.start (h : Head) (s : State) : PortAnswer × Eff Head :=
  if h.state == .stopped && s.isActive then (.ok, h.toEmpty) else (.state, Eff.pure h)

/-- STOP (R104). -/
def Head.stop (h : Head) : PortAnswer × Eff Head :=
  if h.state == .empty || h.state == .stopped then (.ok, Eff.mk' { h with state := .stopped } [.track false])
  else (.state, Eff.pure h)

/-- EMPTY once the platform is empty, otherwise STATE (R121). -/
def Head.clearEmpty (h : Head) (s : State) : PortAnswer × Eff Head :=
  if h.platformEmpty s then (.ok, h.toEmpty) else (.state, Eff.pure h)

/-- The failed frame is opened again at its restart point (R121). -/
def Head.sendAgain (h : Head) (s : State) : Eff Head :=
  match h.sendFrame with
  | some .askFill => ({ h with state := .waiting, cause := none, sendFrame := none } : Head).askFill s
  | some .askTopup => h.askTopup s
  | some (.done n) => Eff.mk' h.settleOnly [openDone s n]
  | some .chestDone => h.openReport s
  | some .fillVoid => h.openVoidAgain s
  | none => Eff.pure h

/-- CLEAR(RETRY) (R121). -/
def Head.clearRetry (h : Head) (s : State) : PortAnswer × Eff Head :=
  if h.state != .held then (.state, Eff.pure h)
  else
    let ovl := match h.last with
      | none => false
      | some r => r.overload
    let lost := match h.last with
      | none => false
      | some r => r.lost
    match h.cause with
    | some .tareRange => if h.chestInv.isNone then h.clearEmpty s else (.state, Eff.pure h)
    | some .unstable | some .overLimit | some .restart => (.ok, Eff.pure h.settleOnly)
    | some .underLimit =>
        let tops := match h.chest with
          | none => 0
          | some c => c.topups
        if tops ≥ 3 then (.range, Eff.pure h)
        else (.ok, (h.setChest (fun c => { c with limit := c.limit + 1 })).askTopup s)
    | some .overload => if ovl then (.state, Eff.pure h) else (.ok, Eff.pure h.settleOnly)
    | some .scaleLost => if lost then (.state, Eff.pure h) else (.ok, Eff.pure h.settleOnly)
    | some .chestLost => (.state, Eff.pure h)
    | some .refused => if h.refusedVoid then (.ok, h.openVoidAgain s) else (.ok, h.openReport s)
    | some .send => (.ok, h.sendAgain s)
    | none => (.state, Eff.pure h)

/-- CLEAR(VOID) (R121). A void that was refused needs no confirmation any more and ends at once where the platform has
been found empty (R118). -/
def Head.clearVoid (h : Head) (s : State) : PortAnswer × Eff Head :=
  if h.state != .held then (.state, Eff.pure h)
  else
    match h.cause with
    | some .tareRange => if h.chestInv.isNone then h.clearEmpty s else (.ok, h.voidChest s)
    | some .refused =>
        if h.refusedVoid then
          (.ok, (({ h with chest := none } : Head).voidUnbooked).andThen (fun v =>
            ({ v with emptied := h.emptied } : Head).voidEnd))
        else (.ok, h.voidChest s)
    | some .send =>
        if h.sendFrame == some .chestDone || h.sendFrame == some .fillVoid then (.state, Eff.pure h)
        else (.ok, h.voidChest s)
    | some _ => (.ok, h.voidChest s)
    | none => (.state, Eff.pure h)

/-- RESET HEAD (R121). -/
def Head.reset (h : Head) (s : State) : PortAnswer × Eff Head :=
  if h.state == .held || h.state == .locked then
    if h.chest.isSome then (.ok, h.voidChest s) else h.clearEmpty s
  else (.state, Eff.pure h)

end Sys2Proof.Machine
end

