-- ==== Sys2Proof/Machine/Marker.lean ====
section
/-! DEFINITION. The marker (08_stencilling.md). -/

namespace Sys2Proof.Machine

/-! ## Rendering (R146, R147) -/

/-- A number in decimal with no leading zeros; fuel bounds its digits. -/
def decimal : Nat → Nat → List Byte
  | 0, _ => []
  | k + 1, n => (if n < 10 then [] else decimal k (n / 10)) ++ [BitVec.ofNat 8 (48 + n % 10)]

/-- R147: a number. -/
def numberText (n : Nat) : Text := decimal 8 n

/-- R147: a weight in kilograms. -/
def weightText (n : Nat) : Text :=
  numberText (n / 100) ++ [46#8] ++ [BitVec.ofNat 8 (48 + n / 10 % 10), BitVec.ofNat 8 (48 + n % 10)]

/-- R147: a text padded on the right. -/
def padRight (w : Nat) (t : Text) : Text := t ++ List.replicate (w - t.length) 32#8

/-- R147: a number or weight padded on the left. -/
def padLeft (w : Nat) (zero : Bool) (t : Text) : Text := List.replicate (w - t.length) (if zero then 48#8 else 32#8) ++ t

/-- R146, R147: one field in its columns. -/
def renderField (s : State) (h : Header) (c : Chest) (name : FieldName) (w : Nat) (zero ovr : Bool) : Text :=
  let num := fun (n : Nat) => padLeft w zero (numberText n)
  let wt := fun (n : Nat) => padLeft w zero (weightText n)
  match name with
  | .garden => padRight w h.garden
  | .grade => padRight w ((s.gradeOf h.grade).elim [] (fun g => g.name))
  | .invoice => num h.inv
  | .season => padRight w s.cfg.season
  | .batch => num h.order
  | .chest => num c.ordinal
  | .net => wt (if ovr then s.targetOf h.grade else c.net.getD 0)
  | .gross => wt (c.gross.getD 0)
  | .tare => wt (c.tare.getD 0)
  | .station => num (if ovr then s.self else c.head.getD 0)

/-- One item of a line. -/
def renderItem (s : State) (h : Header) (c : Chest) : LayoutItem → Text
  | .lit t => t
  | .field name w zero ovr => renderField s h c name w zero ovr

/-- The lines of a plate (R147). -/
def renderPlate (s : State) (h : Header) (c : Chest) (layout : List (List LayoutItem)) : List Text :=
  layout.map (fun line => line.flatMap (renderItem s h c))

/-- The layout of a grade (R146); an index above 11 has a free one of the four (log 110). -/
def State.layoutOf (s : State) (g : Nat) : List (List LayoutItem) :=
  match s.gradeOf g with
  | none => []
  | some r => (s.cfg.layouts[r.layout - 1]?).getD []

/-! ## Lanes -/

/-- The head of a lane; a lane without one has no record (R139). -/
def Cfg.laneHead (c : Cfg) (k : Nat) : Option Nat := if k = 1 then some c.lane1 else if k = 2 then c.lane2 else Option.none

/-- The lanes with a record. -/
def Cfg.lanes (c : Cfg) : List Nat := [1, 2].filter (fun k => (c.laneHead k).isSome)

/-- The record of a lane. -/
def Marker.lane (m : Marker) (k : Nat) : Lane := if k = 1 then m.lane1 else m.lane2

/-- The record of a lane changed. -/
def Marker.setLane (m : Marker) (k : Nat) (f : Lane → Lane) : Marker :=
  if k = 1 then { m with lane1 := f m.lane1 } else { m with lane2 := f m.lane2 }

/-- The count of a lane (R143). -/
def Lane.count (l : Lane) : Nat := l.queue.length

/-- JAM (R139). -/
def Lane.jam (l : Lane) : Bool := l.queue.any (fun e => e.state == .fault)

/-- The entry's invoice and ordinal. -/
def LaneEntry.is (e : LaneEntry) (inv ordinal : Nat) : Bool := e.inv == inv && e.ordinal == ordinal

/-- The lane queue's entry of an invoice and ordinal. -/
def Lane.find (l : Lane) (inv ordinal : Nat) : Option LaneEntry := l.queue.find? (fun e => e.is inv ordinal)

/-- An entry changed. -/
def Lane.upd (l : Lane) (inv ordinal : Nat) (f : LaneEntry → LaneEntry) : Lane :=
  { l with queue := l.queue.map (fun e => if e.is inv ordinal then f e else e) }

/-- The overflow record holds the chest. -/
def Lane.keeps (l : Lane) (inv ordinal : Nat) : Bool :=
  match l.overflow with
  | none => false
  | some o => o.inv == inv && o.ordinal == ordinal

/-- The job is that entry's. -/
def Job.is (j : Job) (k inv ordinal : Nat) : Bool := j.lane == k && j.inv == inv && j.ordinal == ordinal

/-- A new entry (R140). -/
def newEntry (inv ordinal source : Nat) : LaneEntry :=
  { inv := inv, ordinal := ordinal, state := .queued, source := source, cause := none, how := none, answer := .none,
    elsewhere := false, byMark := false, waits := .nothing }

/-! ## Plates -/

/-- The plate of a name. -/
def Marker.plate (m : Marker) : PlateName → Plate
  | .a => m.plateA
  | .b => m.plateB

/-- The plate of a name changed. -/
def Marker.setPlate (m : Marker) (p : PlateName) (f : Plate → Plate) : Marker :=
  match p with
  | .a => { m with plateA := f m.plateA }
  | .b => { m with plateB := f m.plateB }

/-- The two selections always name different plates (R148). -/
def PlateName.other : PlateName → PlateName
  | .a => .b
  | .b => .a

/-- The print selection. -/
def Marker.print (m : Marker) : PlateName := m.compose.other

/-- A plate holds the job. -/
def Plate.holds (p : Plate) (k inv ordinal : Nat) : Bool :=
  match p.job with
  | none => false
  | some j => j.is k inv ordinal

/-- The print plate is held by the job of a FAULT entry (R150). -/
def Marker.heldBy (m : Marker) (k inv ordinal : Nat) : Bool :=
  m.head == .held && (m.plate m.print).cond == .inUse && (m.plate m.print).holds k inv ordinal

/-- A held plate is released: SPENT, and the head IDLE (R150). -/
def Marker.releasePlate (m : Marker) (k inv ordinal : Nat) : Marker :=
  if m.heldBy k inv ordinal then { m.setPlate m.print (fun p => { p with cond := .spent }) with head := .idle } else m

/-- The job leaves the arrival queue; a composition or READY plate for it is abandoned and the plate EMPTY (R141,
R148). -/
def Marker.dropJob (m : Marker) (k inv ordinal : Nat) : Marker :=
  let m1 := { m with arrivals := m.arrivals.filter (fun j => !j.is k inv ordinal) }
  let p := m1.plate m1.compose
  if (p.cond == .composing || p.cond == .ready) && p.holds k inv ordinal then
    m1.setPlate m1.compose (fun _ => Plate.cold)
  else m1

/-! ## HOLD and GO (R143) -/

/-- HOLD to the lane head, with flag and timer (R143). -/
def Marker.sendHold (m : Marker) (k head : Nat) : Eff Marker :=
  Eff.mk' (m.setLane k (fun l => { l with holdFlag := true, holdT := .running Config.laneHold }))
    [.send (jobFrame head (.hold k) .plain)]

/-- GO to the lane head (R143). -/
def Marker.sendGo (m : Marker) (k head : Nat) : Eff Marker :=
  Eff.mk' (m.setLane k (fun l => { l with holdFlag := false, holdT := .stopped }))
    [.send (jobFrame head (.go k) .plain)]

/-- The hold test after an event that changed a lane's count (R143): an entry joined, entries left, or both. -/
def Marker.holdTest (m : Marker) (cfg : Cfg) (k : Nat) (joined left : Bool) : Eff Marker :=
  match cfg.laneHead k with
  | none => Eff.pure m
  | some head =>
      let l := m.lane k
      if joined && decide (l.count ≥ 5) then m.sendHold k head
      else if !left then Eff.pure m
      else if l.count = 4 then Eff.pure (m.setLane k (fun l => { l with holdT := .stopped }))
      else if l.count ≤ 3 ∧ l.holdFlag = true then m.sendGo k head
      else Eff.pure m

/-- A kept chest joins the tail when there is room and LANE_OVERFLOW is clear (R141, R142); the flag says so. -/
def Marker.joinKept (m : Marker) (k : Nat) : Marker × Bool :=
  let l := m.lane k
  match l.overflow with
  | none => (m, false)
  | some o =>
      if l.laneOver || decide (l.count ≥ Config.lanePlaces) then (m, false)
      else (m.setLane k (fun l =>
        { l with queue := l.queue ++ [newEntry o.inv o.ordinal o.source], overflow := none }), true)

/-! ## Entries leave (R141) -/

/-- A pair joins the done list (R139, R141). -/
def Lane.addDone (l : Lane) (p : Nat × Nat) : Lane :=
  let d := l.done ++ [p]
  { l with done := d.drop (d.length - 6) }

/-- An entry leaves the lane queue, with its job and the plate it holds. -/
def Marker.leave (m : Marker) (k : Nat) (e : LaneEntry) (byMark : Bool) : Marker :=
  let m1 := (m.releasePlate k e.inv e.ordinal).dropJob k e.inv e.ordinal
  m1.setLane k (fun l =>
    let l1 := { l with queue := l.queue.filter (fun x => !x.is e.inv e.ordinal) }
    if byMark then l1.addDone (e.inv, e.ordinal) else l1)

/-- MARK-ENTERED or the freeing of the invoice reaches an entry: it leaves, or is flagged while it prints (R141). -/
def Marker.removeEntry (m : Marker) (k : Nat) (byMark : Bool) (e : LaneEntry) : Marker :=
  if e.state == .printing then
    m.setLane k (fun l => l.upd e.inv e.ordinal (fun x => { x with elsewhere := true, byMark := x.byMark || byMark }))
  else m.leave k e byMark

/-- After entries left: the kept chest joins, then one hold test (R141). -/
def Marker.afterLeave (m : Marker) (cfg : Cfg) (k : Nat) : Eff Marker :=
  let r := m.joinKept k
  r.1.holdTest cfg k r.2 true

/-- The entries of a lane that fit `p` are removed (R141). -/
def Marker.removeWhere (m : Marker) (cfg : Cfg) (k : Nat) (byMark : Bool) (p : LaneEntry → Bool) : Eff Marker :=
  let hit := (m.lane k).queue.filter p
  let m1 := hit.foldl (fun m e => m.removeEntry k byMark e) m
  if (m1.lane k).count = (m.lane k).count then Eff.pure m1 else m1.afterLeave cfg k

/-! ## Mark reports (R153) -/

/-- Where a mark report goes: the recorded owner, or the entering station (R153). -/
def State.markTo (s : State) (inv source : Nat) : Nat :=
  match s.inv.find inv with
  | none => source
  | some e => e.data.hdr.owner

/-- MARK-DONE opened (R153). -/
def openMark (s : State) (inv ordinal : Nat) (how : How) (dst : Nat) : Act :=
  .openEx (.markDone inv ordinal) (.markDone { inv := inv, ordinal := ordinal, how := how, marker := s.self }) dst dst
    false

/-- The report is that of the pair, and its exchange is in flight: one that waits for nothing has its exchange (R152). -/
def LooseReport.inFlight (r : LooseReport) (inv ordinal : Nat) : Bool :=
  r.inv == inv && r.ordinal == ordinal && r.waits == .nothing

/-- A report with no entry whose exchange another of its pair replaces has ended as REPLACED (R13, R153); one that waits has no
exchange and stays. -/
def Marker.looseReplaced (m : Marker) (inv ordinal : Nat) : Marker :=
  { m with loose := m.loose.filter (fun r => !r.inFlight inv ordinal) }

/-- An entry's mark report is opened: no answer recorded, waiting for nothing (R153). The mark answer resets at every opening
(log 99). Its exchange replaces that of a report with no entry for its pair (R13). -/
def Marker.openEntry (m : Marker) (s : State) (k : Nat) (e : LaneEntry) : Eff Marker :=
  Eff.mk' ((m.setLane k (fun l => l.upd e.inv e.ordinal (fun x => { x with answer := .none, waits := .nothing }))).looseReplaced
      e.inv e.ordinal)
    [openMark s e.inv e.ordinal (e.how.getD .printed) (s.markTo e.inv e.source)]

/-- An entry becomes PRINTED and its report is opened (R149, R152). -/
def Marker.printed (m : Marker) (s : State) (k : Nat) (e : LaneEntry) (how : How) : Eff Marker :=
  let e1 := { e with state := .printed, cause := none, how := some how }
  (m.setLane k (fun l => l.upd e.inv e.ordinal (fun _ => e1))).openEntry s k e1

/-- The PRINTED entries that hold the pair, each with its lane. -/
def Marker.printedOf (m : Marker) (cfg : Cfg) (inv ordinal : Nat) : List (Nat × LaneEntry) :=
  cfg.lanes.filterMap (fun k =>
    (((m.lane k).find inv ordinal).filter (fun e => e.state == .printed)).map (fun e => (k, e)))

/-- A mark exchange for the pair is in flight. -/
def State.markInFlight (s : State) (inv ordinal : Nat) : Bool :=
  s.line.exchanges.any (fun x => x.key == .markDone inv ordinal)

/-- A report opened with no entry (R152). One without an entering station whose invoice the table no longer holds has
nobody to go to and is dropped (log 77). Where a PRINTED entry holds the pair, which a report that waited may meet when it is
opened again, the exchange is that entry's from then on, and no report with no entry is kept (log 120). -/
def Marker.openLoose (m : Marker) (s : State) (inv ordinal : Nat) (source : Option Nat) : Eff Marker :=
  let others := m.loose.filter (fun x => !(x.inv == inv && x.ordinal == ordinal))
  if source.isNone && (s.inv.find inv).isNone then Eff.pure { m with loose := others }
  else
    let own := if (m.printedOf s.cfg inv ordinal).isEmpty then
        [{ inv := inv, ordinal := ordinal, source := source, waits := .nothing }] else []
    Eff.mk' { m with loose := others ++ own } [openMark s inv ordinal .hand (s.markTo inv (source.getD 0))]

/-- The mark reports that fit are opened again, lane 1 before lane 2, the oldest first, those with no entry last (log 103). -/
def Marker.reopen (m : Marker) (s : State) (p : LaneEntry → Bool) (q : LooseReport → Bool) : Eff Marker :=
  let lane := fun (k : Nat) (m : Marker) =>
    Eff.each (fun e (m : Marker) => m.openEntry s k e) ((m.lane k).queue.filter (fun e => e.state == .printed && p e)) m
  ((Eff.each lane s.cfg.lanes m)).andThen (fun m =>
    Eff.each (fun (r : LooseReport) (m : Marker) => m.openLoose s r.inv r.ordinal r.source) (m.loose.filter q) m)

/-! ## Composition and stroke (R148, R149) -/

/-- LANE_JAM (R148, R150, R155). -/
def jamReport (cfg : Cfg) (k inv ordinal : Nat) (c : CauseCode) : Act :=
  .report (Report.of .laneJam (some inv) (some ordinal) (cfg.laneHead k) (.code c))

/-- An entry goes to FAULT and LANE_JAM is queued. -/
def Marker.faultEntry (m : Marker) (cfg : Cfg) (k inv ordinal : Nat) (c : LaneFault) : Eff Marker :=
  let code := match c with
    | .jam => CauseCode.jam
    | .noRecord => CauseCode.noRecord
    | .layout => CauseCode.layout
    | .restart => CauseCode.restart
  Eff.mk' (m.setLane k (fun l => l.upd inv ordinal (fun e => { e with state := .fault, cause := some c })))
    [jamReport cfg k inv ordinal code]

/-- The compose plate takes a job, its text read now (R148). -/
def Marker.startCompose (m : Marker) (s : State) (j : Job) (h : Header) (c : Chest) : Marker :=
  m.setPlate m.compose (fun p =>
    { p with job := some j, cond := .composing, building := renderPlate s h c (s.layoutOf h.grade) })

/-- The front job is looked at (R148): composed, waiting for its record, or FAULT; fuel bounds the jobs faulted. A
placeholder, which has no weights, is no record to compose (R148, log 75). The record is looked for before the grade
(log 83). -/
def Marker.composeFront (s : State) : Nat → Marker → Eff Marker
  | 0, m => Eff.pure m
  | n + 1, m =>
      let free := (m.plate m.compose).cond == .empty || (m.plate m.compose).cond == .spent
      match free, m.arrivals with
      | true, j :: r =>
          let fault := fun (c : LaneFault) =>
            (({ m with arrivals := r } : Marker).faultEntry s.cfg j.lane j.inv j.ordinal c).andThen
              (Marker.composeFront s n)
          match s.inv.find j.inv with
          | none => fault .noRecord
          | some e =>
              match e.data.chests.find? (fun c => c.ordinal == j.ordinal && c.net.isSome) with
              | some c =>
                  if s.start.rejected.contains e.data.hdr.grade then fault .layout
                  else Eff.pure (m.startCompose s j e.data.hdr c)
              | none =>
                  if e.copy == .complete then fault .noRecord else Eff.pure m
      | _, _ => Eff.pure m

/-- A stroke starts where the head is IDLE and the compose plate READY; its lines go out over the stencil head link
(R149). -/
def Marker.strokeStart (m : Marker) : Marker :=
  let p := m.plate m.compose
  match m.head, p.cond, p.job with
  | .idle, .ready, some j =>
      let m1 := m.setPlate m.compose (fun p => { p with cond := .inUse })
      { m1.setLane j.lane (fun l => l.upd j.inv j.ordinal (fun e => { e with state := .printing })) with
        compose := m.compose.other, arrivals := m.arrivals.filter (fun x => !x.is j.lane j.inv j.ordinal),
        head := .stroking, stroke := .running Config.strokeTime, link := p.lines }
  | _, _, _ => m

/-- What an event leaves to begin: a composition, a stroke, the next composition (R148, R149). -/
def Marker.advance (m : Marker) (s : State) : Eff Marker :=
  (Marker.composeFront s 3 m).andThen (fun m => Marker.composeFront s 3 m.strokeStart)

/-! ## Events -/

/-- CHEST-ENTERED for a lane (R140, R142). -/
def Marker.takeEntered (m : Marker) (s : State) (src k head : Nat) (b : ChestEnteredBody) : Eff Marker :=
  let l := m.lane k
  let marked : Bool := match s.inv.find b.inv with
    | none => false
    | some e => e.data.chests.any (fun c => c.ordinal == b.ordinal && c.stencil != .pending)
  if (l.find b.inv b.ordinal).isSome || l.keeps b.inv b.ordinal then Eff.pure m
  else if l.done.contains (b.inv, b.ordinal) then Eff.pure m
  else if marked then Eff.pure m
  else if decide (l.count ≥ Config.lanePlaces) || l.overflow.isSome then
    let kept := l.overflow.isNone
    let o : Overflow := { inv := b.inv, ordinal := b.ordinal, source := src }
    Eff.mk' (m.setLane k (fun l => { l with laneOver := true, overflow := if kept then some o else l.overflow }))
      [.report (Report.of .laneOverflow (some b.inv) (some b.ordinal) (some head) (.code (if kept then .kept else .lost)))]
  else
    (m.setLane k (fun l => { l with queue := l.queue ++ [newEntry b.inv b.ordinal src] })).holdTest s.cfg k true false

/-- A lane-eye arrival (R144). -/
def Marker.eye (m : Marker) (s : State) (k : Nat) : Eff Marker :=
  match s.cfg.laneHead k with
  | none => Eff.pure m
  | some head =>
      let l := m.lane k
      let stray := fun (c : CauseCode) =>
        Eff.mk' (m.setLane k (fun l => { l with stray := true }))
          [.report (Report.of .laneStray none none (some head) (.code c))]
      if l.stray then Eff.pure m
      else if m.arrivals.any (fun j => j.lane == k) then stray .early
      else
        match l.queue.find? (fun e => e.state == .queued) with
        | none => stray .unexpected
        | some e => Eff.pure { m with arrivals := m.arrivals ++ [{ lane := k, inv := e.inv, ordinal := e.ordinal }] }

/-- COMPOSITION_COMPLETE (R148). -/
def Marker.composed (m : Marker) : Marker :=
  if (m.plate m.compose).cond == .composing then
    m.setPlate m.compose (fun p => { p with lines := p.building, building := [], cond := .ready })
  else m

/-- The stroke is over, the print plate SPENT and the head IDLE; the entry is handed on (R149, R150). A SPENT plate keeps its
job, as its text, until it is written again (R148, log 95). -/
def Marker.strokeOver (m : Marker) (s : State) (f : Marker → Nat → LaneEntry → Eff Marker) : Eff Marker :=
  match (m.plate m.print).job with
  | none => Eff.pure m
  | some j =>
      match (m.lane j.lane).find j.inv j.ordinal with
      | none => Eff.pure { m with stroke := .stopped, head := .idle }
      | some e =>
          let spent := { m.setPlate m.print (fun p => { p with cond := .spent }) with head := .idle, stroke := .stopped }
          if e.elsewhere then (spent.leave j.lane e e.byMark).afterLeave s.cfg j.lane
          else f m j.lane e

/-- STROKE_END (R149). -/
def Marker.strokeEnd (m : Marker) (s : State) : Eff Marker :=
  if m.head == .stroking then
    m.strokeOver s (fun m k e =>
      ({ m.setPlate m.print (fun p => { p with cond := .spent }) with head := .idle, stroke := .stopped } : Marker).printed
        s k e .printed)
  else Eff.pure m

/-- STROKE_TIMER_EXPIRY (R150). -/
def Marker.strokeExpired (m : Marker) (s : State) : Eff Marker :=
  if m.head == .stroking && m.stroke.on then
    m.strokeOver s (fun m k e =>
      ({ m with head := .held, stroke := .stopped } : Marker).faultEntry s.cfg k e.inv e.ordinal .jam)
  else Eff.pure m

/-- LANE_HOLD_TIMER_EXPIRY (R143). -/
def Marker.holdExpired (m : Marker) (s : State) (k : Nat) : Eff Marker :=
  match s.cfg.laneHead k with
  | none => Eff.pure m
  | some head =>
      if (m.lane k).holdT.on then
        if (m.lane k).count ≥ 5 then m.sendHold k head
        else Eff.pure (m.setLane k (fun l => { l with holdT := .stopped }))
      else Eff.pure m

/-- The lane that holds an entry for the pair; where both do, lane 1 (the model's choice, log 119). -/
def Marker.laneOf (m : Marker) (cfg : Cfg) (inv ordinal : Nat) : Option (Nat × LaneEntry) :=
  (cfg.lanes.filterMap (fun k => ((m.lane k).find inv ordinal).map (fun e => (k, e)))).head?

/-- The ending of the mark report of a PRINTED entry of lane `k` (R153). -/
def Marker.entryReportEnds (m : Marker) (cfg : Cfg) (how : ExEnd) (k : Nat) (e : LaneEntry) : Eff Marker :=
  let unconfirmed := fun (c : CauseCode) =>
    Eff.mk' (m.setLane k (fun l => { l with unconfirmed := true }))
      [.report (Report.of .markUnconfirmed (some e.inv) (some e.ordinal) (cfg.laneHead k) (.code c))]
  let failure := fun (c : CauseCode) => match e.answer with
    | .none => unconfirmed c
    | .notHeld => unconfirmed .notHeld
    | .full => unconfirmed .full
  match how with
  | .noConfirm => failure .noConfirm
  | .sendFailed => failure .sendFailed
  | .offline => unconfirmed .offline
  | .destinationAbsent =>
      Eff.pure (m.setLane k (fun l => l.upd e.inv e.ordinal (fun e => { e with waits := .owner })))
  | .confirmed | .replaced => Eff.pure m

/-- The ending of a mark report opened with no entry (R152, R154): one that waits has no exchange to end. -/
def Marker.looseReportEnds (m : Marker) (inv ordinal : Nat) (how : ExEnd) : Marker :=
  match how with
  | .replaced => m
  | .destinationAbsent =>
      { m with loose := m.loose.map (fun r => if r.inFlight inv ordinal then { r with waits := .owner } else r) }
  | _ => m.looseReplaced inv ordinal

/-- The ending of a mark report (R152, R153): that of every PRINTED entry of the pair, lane 1 first (log 119), and of a report
with no entry where none is PRINTED. -/
def Marker.takeExEnd (m : Marker) (s : State) (inv ordinal : Nat) (how : ExEnd) : Eff Marker :=
  match m.printedOf s.cfg inv ordinal with
  | [] => Eff.pure (m.looseReportEnds inv ordinal how)
  | l => Eff.each (fun p (m : Marker) => m.entryReportEnds s.cfg how p.1 p.2) l m

/-- NOTED for a MARK-DONE: recorded as the mark answer of the entries in flight to its source (R153, log 39). -/
def Marker.takeNoted (m : Marker) (s : State) (src : Nat) (b : NotedBody) : Marker :=
  let answer := match b.result with
    | .notHeld => some MarkAnswer.notHeld
    | .full => some MarkAnswer.full
    | _ => none
  match answer with
  | none => m
  | some a =>
      let f := fun (e : LaneEntry) =>
        if e.state == .printed && e.ordinal == b.number &&
            s.line.exchanges.any (fun x => x.key == .markDone e.inv e.ordinal && x.peer == src) then
          { e with answer := a }
        else e
      let g := fun (l : Lane) => { l with queue := l.queue.map f }
      { m with lane1 := g m.lane1, lane2 := g m.lane2 }

/-- An owner change (R154). Of a report with no entry the exchange in flight is its own one: where another replaced it, the
report is over. -/
def Marker.takeOwner (m : Marker) (s : State) (n : Nat) : Eff Marker :=
  m.reopen s (fun e => e.inv == n && (s.markInFlight e.inv e.ordinal || e.waits == .owner))
    (fun r => r.inv == n && ((s.markInFlight r.inv r.ordinal && r.waits == .nothing) || r.waits == .owner))

/-- The recorded owner returned to PRESENT (R154); where the table does not hold the invoice, the
entering station (log 100). -/
def Marker.takePresent (m : Marker) (s : State) (n : Nat) : Eff Marker :=
  m.reopen s (fun e => e.waits == .owner && s.markTo e.inv e.source == n)
    (fun r => r.waits == .owner && s.markTo r.inv (r.source.getD 0) == n)

/-- The own JOIN completed: HOLD or GO for a lane, after a cold start too (R155, log 101). -/
def Marker.joinHold (cfg : Cfg) (k : Nat) (m : Marker) : Eff Marker :=
  match cfg.laneHead k with
  | none => Eff.pure m
  | some head =>
      let l := m.lane k
      if l.count ≥ 5 then m.sendHold k head
      else if l.holdFlag = true ∧ l.count ≤ 3 then m.sendGo k head
      else Eff.pure m

/-- The entries of a lane that fit are faulted by the start, the oldest first, each with LANE_JAM (R155, log 103). -/
def Marker.restartLane (m : Marker) (cfg : Cfg) (p : Nat → LaneEntry → Bool) (k : Nat) : Eff Marker :=
  Eff.each (fun (e : LaneEntry) (m : Marker) => m.faultEntry cfg k e.inv e.ordinal .restart) ((m.lane k).queue.filter (p k)) m

/-- After the load of a warm start (R155). A lane that the loaded configuration lacks keeps its record and is passed
over (log 102). -/
def Marker.loaded (m : Marker) (cfg : Cfg) : Eff Marker :=
  let hit := fun (k : Nat) (e : LaneEntry) =>
    e.state == .printing || (e.state == .queued && m.arrivals.any (fun j => j.is k e.inv e.ordinal))
  let p := m.plate m.compose
  let m1 := { m with arrivals := [], head := if m.head == .idle then .idle else .held }
  let m2 := if p.cond == .composing || p.cond == .ready then m1.setPlate m.compose (fun _ => Plate.cold) else m1
  Eff.each (fun k (m : Marker) => m.restartLane cfg hit k) cfg.lanes m2

/-- The marker's part in an event, before composition and strokes. Where one event reaches both lanes, lane 1 goes before
lane 2, so that its HOLD or GO is queued first (the model's choice, log 112). -/
def Marker.takeEv (m : Marker) (s : State) (e : Ev) : Eff Marker :=
  match e with
  | .frame src _ msg _ =>
      match msg with
      | .chestEntered b =>
          Eff.each (fun k (m : Marker) => m.takeEntered s src k b.head b)
            (s.cfg.lanes.filter (fun k => s.cfg.laneHead k == some b.head)) m
      | .markEntered b =>
          Eff.each (fun k (m : Marker) => m.removeWhere s.cfg k true (fun e => e.is b.inv b.ordinal)) s.cfg.lanes m
      | .noted b => Eff.pure (m.takeNoted s src b)
      | _ => Eff.pure m
  | .entryFreed n => Eff.each (fun k (m : Marker) => m.removeWhere s.cfg k false (fun e => e.inv == n)) s.cfg.lanes m
  | .ownerChanged n => m.takeOwner s n
  | .peer n _ new _ => if new == .present then m.takePresent s n else Eff.pure m
  | .exEnded x how _ _ =>
      match x.key with
      | .markDone inv ordinal => m.takeExEnd s inv ordinal how
      | _ => Eff.pure m
  | .joinDone => Eff.each (Marker.joinHold s.cfg) s.cfg.lanes m
  | .loaded => m.loaded s.cfg
  | .endOfJoin => m.reopen s (fun e => e.waits == .endOfJoin) (fun r => r.waits == .endOfJoin)
  | _ => Eff.pure m

/-- The marker's part in an event. -/
def takeMark (s : State) (e : Ev) : Eff Marker := (s.mark.takeEv s e).andThen (fun m => m.advance s)

/-- An input or timer of the marker. -/
def markInput (s : State) (f : Marker → Eff Marker) : Eff Marker := (f s.mark).andThen (fun m => m.advance s)

/-! ## Requests (R145, R151, R152) -/

/-- CLEAR LANE (R145). Where it clears LANE_OVERFLOW and MARK_UNCONFIRMED together, the HOLD of the hold test is queued before
the MARK-DONE frames (the model's choice, log 111). -/
def Marker.clearLane (m : Marker) (s : State) (k : Nat) : PortAnswer × Eff Marker :=
  if (s.cfg.laneHead k).isNone then (.range, Eff.pure m)
  else
    let l := m.lane k
    if !l.stray && !l.laneOver && !l.unconfirmed then (.state, Eff.pure m)
    else
      let m1 := m.setLane k (fun l => { l with stray := false, laneOver := false, unconfirmed := false })
      let r := if l.laneOver then m1.joinKept k else (m1, false)
      let e1 := if r.2 then r.1.holdTest s.cfg k true false else Eff.pure r.1
      let e2 := if l.unconfirmed then
          e1.andThen (fun m => Eff.each (fun e (m : Marker) => m.openEntry s k e)
            ((m.lane k).queue.filter (fun e => e.state == .printed && !s.markInFlight e.inv e.ordinal)) m)
        else e1
      (.ok, e2)

/-- The oldest FAULT entry of a lane (R151, R152). -/
def Lane.oldestFault (l : Lane) : Option LaneEntry := l.queue.find? (fun e => e.state == .fault)

/-- REPRINT (R151). -/
def Marker.reprint (m : Marker) (s : State) (k : Nat) : PortAnswer × Eff Marker :=
  if (s.cfg.laneHead k).isNone then (.range, Eff.pure m)
  else if m.head == .stroking then (.state, Eff.pure m)
  else
    match (m.lane k).oldestFault with
    | none => (.state, Eff.pure m)
    | some e =>
        if m.heldBy k e.inv e.ordinal then
          let m1 := m.setLane k (fun l => l.upd e.inv e.ordinal (fun x => { x with state := .printing, cause := none }))
          (.ok, Eff.pure { m1 with head := .stroking, stroke := .running Config.strokeTime, link := (m.plate m.print).lines })
        else if m.arrivals.any (fun j => j.lane == k) then (.state, Eff.pure m)
        else
          let m1 := m.setLane k (fun l => l.upd e.inv e.ordinal (fun x => { x with state := .queued, cause := none }))
          (.ok, Eff.pure { m1 with arrivals := m1.arrivals ++ [{ lane := k, inv := e.inv, ordinal := e.ordinal }] })

/-- An entry reported as marked by hand (R152). -/
def Marker.handEntry (m : Marker) (s : State) (k : Nat) (e : LaneEntry) : Eff Marker :=
  ((m.releasePlate k e.inv e.ordinal).dropJob k e.inv e.ordinal).printed s k e .hand

/-- HAND, lane form (R152). -/
def Marker.handLane (m : Marker) (s : State) (k : Nat) : PortAnswer × Eff Marker :=
  if (s.cfg.laneHead k).isNone then (.range, Eff.pure m)
  else
    match (m.lane k).oldestFault with
    | none => (.state, Eff.pure m)
    | some e => (.ok, m.handEntry s k e)

/-- HAND, chest form (R152). Of a pair that both lanes hold lane 1's entry is meant, and of one in both overflow records lane
1's record empties (the model's choices, log 119). -/
def Marker.handChest (m : Marker) (s : State) (inv ordinal : Nat) : PortAnswer × Eff Marker :=
  match m.laneOf s.cfg inv ordinal with
  | some (k, e) =>
      match e.state with
      | .printing | .printed => (.state, Eff.pure m)
      | .queued | .fault => (.ok, m.handEntry s k e)
  | none =>
      match (s.cfg.lanes.filter (fun k => (m.lane k).keeps inv ordinal)).head? with
      | some k =>
          let source := (m.lane k).overflow.map (fun o => o.source)
          (.ok, (m.setLane k (fun l => { l with overflow := none })).openLoose s inv ordinal source)
      | none =>
          let chest : Option Chest := match s.inv.find inv with
            | none => none
            | some e => e.data.chests.find? (fun c => c.ordinal == ordinal)
          match chest with
          | none => (.unknown, Eff.pure m)
          | some c => if c.stencil == .pending then (.ok, m.openLoose s inv ordinal none) else (.state, Eff.pure m)

end Sys2Proof.Machine
end

