-- ==== Sys2Proof/Machine/Paper.lean ====
section
/-! DEFINITION. The paper unit (09_closing_invoices_and_lot_sheets.md, sections 9.2 to 9.6). -/

namespace Sys2Proof.Machine

/-! ## The acting paper station (R160) -/

/-- A station counts for the decision: PRESENT with its roles known to hold PAPER, this station when ACTIVE. -/
def State.paperCounts (s : State) (n : Nat) : Bool :=
  if n = s.self then s.isActive && s.cfg.roles.paper
  else s.present n && (match (s.peer n).roles with
    | none => false
    | some r => r.paper)

/-- The station found acting, or none (R160). -/
def State.actingStation (s : State) : Option Nat := stations.find? s.paperCounts

/-- SHEET_READY (R161). -/
def sheetReady (n : Nat) : Act := .report (Report.of .sheetReady (some n) none none .absent)

/-- The queue with an entry in its place (R161, R162). -/
def placeSheet (e : PaperEntry) : List PaperEntry → List PaperEntry
  | [] => [e]
  | x :: l => if e.seq < x.seq then e :: x :: l else x :: placeSheet e l

/-- An invoice takes the next closure sequence: into the queue where its copy is COMPLETE, else a waiting entry with
its ask (R161, R162). The sixteen places hold every entry of the table, so that one is always free (R161). -/
def Paper.takeClosure (p : Paper) (e : Entry) : Eff Paper :=
  if p.queue.length + p.waiting.length ≥ Config.tableEntries then Eff.pure p
  else
  let k : PaperEntry := { inv := e.num, seq := p.nextSeq }
  let p1 := { p with nextSeq := p.nextSeq + 1 }
  if e.copy == .complete then Eff.mk' { p1 with queue := placeSheet k p1.queue } [sheetReady e.num]
  else Eff.mk' { p1 with waiting := p1.waiting ++ [k] } [.post .inv (.askFor e.num)]

/-- Entries in ascending invoice number; `insertEntry` puts one in its place. -/
def insertEntry (e : Entry) : List Entry → List Entry
  | [] => [e]
  | x :: l => if e.num < x.num then e :: x :: l else x :: insertEntry e l

/-- The CLOSED entries of the table in ascending invoice number. -/
def Inv.closedEntries (i : Inv) : List Entry :=
  (i.table.filter (fun e => e.data.hdr.state == .closed)).foldl (fun l e => insertEntry e l) []

/-- The queue built anew (R162). -/
def Paper.build (p : Paper) (i : Inv) : Eff Paper :=
  Eff.each (fun e (p : Paper) => p.takeClosure e) i.closedEntries { p with queue := [], waiting := [] }

/-- R160: the decision, with its effect on the queue. -/
def Paper.elect (p0 : Paper) (s : State) : Eff Paper :=
  let p := { p0 with found := s.actingStation }
  let now := p.found == some s.self
  if now == p.acting then Eff.pure p
  else if now then ({ p with acting := true } : Paper).build s.inv
  else Eff.pure { p with acting := false, queue := [], waiting := [] }

/-! ## Queue, gaps and window -/

/-- The invoice stands in the queue or as a waiting entry. -/
def Paper.lists (p : Paper) (n : Nat) : Bool := (p.queue ++ p.waiting).any (fun e => e.inv == n)

/-- A closure notice (R159, R161). -/
def Paper.notice (p : Paper) (s : State) (n : Nat) : Eff Paper :=
  if p.acting && !p.lists n then
    match s.inv.find n with
    | none => Eff.pure p
    | some e => if e.data.hdr.state == .closed then p.takeClosure e else Eff.pure p
  else Eff.pure p

/-- The invoice leaves the queue and the waiting entries (R161, R163). -/
def Paper.unlist (p : Paper) (n : Nat) : Paper :=
  { p with queue := p.queue.filter (fun e => e.inv != n), waiting := p.waiting.filter (fun e => e.inv != n) }

/-- A copy changed: a waiting entry whose copy is COMPLETE joins the queue (R162). A copy that is CLOSED no longer leaves
both, since they hold only CLOSED entries (R161, log 84). -/
def Paper.copied (p : Paper) (s : State) (n : Nat) : Eff Paper :=
  match s.inv.find n with
  | none => Eff.pure p
  | some e =>
      if e.data.hdr.state != .closed then Eff.pure (p.unlist n)
      else
        match p.waiting.find? (fun k => k.inv == n) with
        | none => Eff.pure p
        | some k =>
            if e.copy == .complete then
              Eff.mk' { p with waiting := p.waiting.filter (fun x => x.inv != n), queue := placeSheet k p.queue }
                [sheetReady n]
            else Eff.pure p

/-- The window closes with a cause if it is open on the invoice (R168). -/
def Window.close (w : Window) (n : Nat) (c : WindowCause) : Window :=
  match w.shown with
  | some (k, _) => if k = n then { shown := none, cause := c } else w
  | none => w

/-- An invoice's entry is freed (R163, R168, R170). -/
def Paper.freed (p : Paper) (n : Nat) : Paper :=
  { p.unlist n with taking := p.taking.filter (fun t => t.inv != n), window := p.window.close n .retired }

/-- A number in its place of an ascending list, once. -/
def placeNumber (n : Nat) : List Nat → List Nat
  | [] => [n]
  | m :: l => if n < m then n :: m :: l else if n = m then m :: l else m :: placeNumber n l

/-- A number becomes a gap; a seventeenth pushes the lowest out (R164). -/
def Paper.gap (p : Paper) (s : State) (n : Nat) : Paper :=
  if (s.inv.find n).isSome then p
  else
    let l := placeNumber n p.gaps
    if l.length > Config.gapPlaces then { p with gaps := l.drop 1, gapOver := true } else { p with gaps := l }

/-! ## Takings (R169, R170) -/

/-- A taking of the invoice is in the set (R165). -/
def Paper.takes (p : Paper) (n : Nat) : Bool := p.taking.any (fun t => t.inv == n)

/-- SHEET-TAKEN to all stations, its exchange with the recorded owner (R169). -/
def openTaking (n owner : Nat) : Act := .openEx (.sheetTaken n) (.sheetTaken n) 0 owner false

/-- The takings that fit are opened again, to the owner then recorded (R170); several in one event in the order in which
SHEET DONE added them to the set (the model's choice, log 113). -/
def Paper.reopen (p : Paper) (s : State) (f : Taking → Bool) : Eff Paper :=
  let hit := fun (t : Taking) => f t && (s.inv.find t.inv).isSome
  Eff.mk' { p with taking := p.taking.map (fun t => if hit t then { t with waits := .nothing } else t) }
    ((p.taking.filter hit).map (fun t => openTaking t.inv (match s.inv.find t.inv with
      | none => 0
      | some e => e.data.hdr.owner)))

/-- The exchange of a taking is in flight. -/
def State.takingInFlight (s : State) (n : Nat) : Bool := s.line.exchanges.any (fun x => x.key == .sheetTaken n)

/-- R170: the ending of a taking's exchange. -/
def Paper.takeExEnd (p : Paper) (n : Nat) (how : ExEnd) : Paper :=
  match how with
  | .confirmed | .noConfirm | .sendFailed | .offline => { p with taking := p.taking.filter (fun t => t.inv != n) }
  | .destinationAbsent =>
      { p with taking := p.taking.map (fun t => if t.inv == n then { t with waits := .owner } else t) }
  | .replaced => p

/-- The recorded owner of an invoice is station `n`. -/
def State.ownerIs (s : State) (inv n : Nat) : Bool :=
  match s.inv.find inv with
  | none => false
  | some e => e.data.hdr.owner == n

/-- The join period after a warm start, in which the decision in force before it stands (R160). -/
def State.keepsDecision (s : State) : Bool := s.isJoining && !(s.start.isCold || s.start.converted)

/-- A station-table event: the decision, then the takings that wait for the station's return (R160, R170). -/
def Paper.takePeer (p : Paper) (s : State) (n : Nat) (new : PeerState) : Eff Paper :=
  (if s.keepsDecision then Eff.pure p else p.elect s).andThen (fun p =>
    if new == .present then p.reopen s (fun t => t.waits == .owner && s.ownerIs t.inv n) else Eff.pure p)

/-- The paper unit's part in an event. -/
def takePaper (s : State) (e : Ev) : Eff Paper :=
  let p := s.paper
  match e with
  | .peer n _ new _ => p.takePeer s n new
  | .endOfJoin => (p.elect s).andThen (fun p => p.reopen s (fun t => t.waits == .endOfJoin))
  | .wentOffline => p.elect s
  | .closure n => p.notice s n
  | .copyChanged n => p.copied s n
  | .entryFreed n => Eff.pure (p.freed n)
  | .gapNumber n => Eff.pure (p.gap s n)
  | .entryMade n => Eff.pure { p with gaps := p.gaps.filter (fun m => m != n) }
  | .frame _ _ (.sheetTaken n) own =>
      if own || p.takes n then Eff.pure p else Eff.pure { p with window := p.window.close n .takenElsewhere }
  | .exEnded x how _ _ =>
      match x.key with
      | .sheetTaken n => Eff.pure (p.takeExEnd n how)
      | _ => Eff.pure p
  | .ownerChanged n => p.reopen s (fun t => t.inv == n && (t.waits == .owner || s.takingInFlight n))
  | _ => Eff.pure p

/-! ## Requests (R165 to R169) -/

/-- The number of parts of a sheet (R166). -/
def sheetParts (chests : Nat) : Nat := 2 + (chests + 7) / 8

/-- The entry can be shown: CLOSED, COMPLETE and no taking of it in the set (R165). -/
def Paper.canShow (p : Paper) (e : Entry) : Bool :=
  e.data.hdr.state == .closed && e.copy == .complete && !p.takes e.num

/-- The invoice OPEN SHEET opens, or the answer that refuses it (R165). -/
def Paper.choose (p : Paper) (i : Inv) : Option Nat → PortAnswer × Option Entry
  | none =>
      match (p.queue.filterMap (fun k => i.find k.inv)).find? p.canShow with
      | none => (.state, none)
      | some e => (.ok, some e)
  | some n =>
      match i.find n with
      | none => (.unknown, none)
      | some e => if p.canShow e then (.ok, some e) else (.state, none)

/-- OPEN SHEET: the answer, the entry opened and the paper unit (R165). A window that is OPEN closes first, and the
cause REPLACED stays as its latest. -/
def Paper.openSheet (p : Paper) (i : Inv) (o : Option Nat) : PortAnswer × Option Entry × Paper :=
  match p.choose i o with
  | (a, none) => (a, none, p)
  | (a, some e) =>
      let cause := if p.window.shown.isSome then WindowCause.replaced else p.window.cause
      (a, some e, { p with window := { shown := some (e.num, e.data.hdr.version), cause := cause } })

/-- The copy is COMPLETE at the window's version (R166). -/
def wholeAt (i : Inv) (n v : Nat) : Option Entry :=
  (i.find n).filter (fun e => e.copy == .complete && e.data.hdr.version == v)

/-- The window closes with cause CHANGED. -/
def Paper.changed (p : Paper) : Paper := { p with window := { shown := none, cause := .changed } }

/-- READ SHEET PART: the answer, the entry read and the paper unit (R166). -/
def Paper.readPart (p : Paper) (i : Inv) (k : Nat) : PortAnswer × Option Entry × Paper :=
  match p.window.shown with
  | none => (.state, none, p)
  | some (n, v) =>
      let parts := match i.find n with
        | none => 0
        | some e => sheetParts e.data.hdr.entered
      if k ≥ parts then (.range, none, p)
      else
        match wholeAt i n v with
        | none => (.state, none, p.changed)
        | some e => (.ok, some e, p)

/-- SHEET DONE (R169). -/
def Paper.sheetDone (p : Paper) (i : Inv) : PortAnswer × Eff Paper :=
  match p.window.shown with
  | none => (.state, Eff.pure p)
  | some (n, v) =>
      match wholeAt i n v with
      | none => (.state, Eff.pure p.changed)
      | some e =>
          if e.orphan then (.state, Eff.pure p)
          else
            (.ok, Eff.mk' { p with window := { shown := none, cause := .done }, gapOver := false,
                                   gaps := p.gaps.filter (fun m => decide (m ≥ n)),
                                   taking := p.taking.filter (fun t => t.inv != n) ++ [{ inv := n, waits := .nothing }] }
              [openTaking n e.data.hdr.owner])

end Sys2Proof.Machine
end

