-- ==== Sys2Proof/Machine/Flags.lean ====
section
/-! DEFINITION. The output pins, computed from the state (section 10.5, R177, R179, R181). -/

namespace Sys2Proof.Machine

/-- The outputs of the part; `shedLine` holds the bytes of the frame that the station drives, sync to check, none where it
drives none (R1, R2, log 4); `stencilLink` shows the plate lines last sent to the stencil head (R149, log 67). -/
structure Outputs where
  attn        : Bool
  binGate     : Option Nat
  discharge   : Bool
  diverter    : Option Nat
  feederFast  : Bool
  feederSlow  : Bool
  outfeed     : Bool
  laneStop1   : Bool
  laneStop2   : Bool
  strokeStart : Bool
  stencilLink : List Text
  shedLine    : Option (List Byte)
  deriving DecidableEq, Repr

/-- ATTN is asserted while the report queue holds an entry (R177). -/
def State.attn (s : State) : Bool := !s.port.reports.isEmpty

/-- STRAY, LANE_OVERFLOW or JAM stands (R139). -/
def Lane.stops (l : Lane) : Bool := l.stray || l.laneOver || l.jam

/-- The diverter position a blender keeps (R93); while LOADING it is the one a warm start keeps (R179). -/
def State.diverterOut (s : State) : Option Nat :=
  if s.start.state == .offlineConfig then none
  else if s.cfg.roles.blend then s.arb.diverter else none

/-- Lane stop output `k`: asserted during a load and while OFFLINE for a configuration fault (R179, R181), otherwise
by the conditions of the lane at a marker that has it (R139). -/
def State.laneStop (s : State) (k : Nat) : Bool :=
  match s.start.state with
  | .loading | .offlineConfig => true
  | _ => s.cfg.roles.mark && (s.cfg.laneHead k).isSome && (s.mark.lane k).stops

/-- The bytes on the shed line while a transmission runs: the front frame of the queue in its envelope, the source the
station's own number (R2, R7, R188). The number stays while the frame waits, since a load finds the queue empty (R23). -/
def State.driven (s : State) : Option (List Byte) :=
  if s.canSend && s.line.sending then s.line.txq.head?.map (fun f => wholeFrame (f.env s.self) f.msg) else none

/-- Every output off. -/
def Outputs.off : Outputs :=
  { attn := false, binGate := none, discharge := false, diverter := none, feederFast := false, feederSlow := false,
    outfeed := false, laneStop1 := false, laneStop2 := false, strokeStart := false, stencilLink := [],
    shedLine := none }

/-- The outputs. While the reset pin is low every output is off (R179). -/
def State.outputs (s : State) : Outputs :=
  if s.start.resetLow then Outputs.off
  else
    let idle := { Outputs.off with
      attn := s.attn, laneStop1 := s.laneStop 1, laneStop2 := s.laneStop 2, diverter := s.diverterOut }
    if s.working then
      { idle with
        binGate := if s.cfg.roles.blend then s.blend.gate else none,
        discharge := s.cfg.roles.blend && s.arb.gate,
        feederFast := s.cfg.roles.head && s.head.state == .fast,
        feederSlow := s.cfg.roles.head && s.head.state == .dribble,
        outfeed := s.cfg.roles.head && s.head.state == .releasing,
        strokeStart := s.cfg.roles.mark && s.mark.head == .stroking,
        stencilLink := if s.cfg.roles.mark then s.mark.link else [],
        shedLine := s.driven }
    else idle

end Sys2Proof.Machine
end

