-- ==== Sys2Proof/Machine/Run.lean ====
section
/-! DEFINITION. How an event runs through the blocks within one command: the start unit's part, the blocks' jobs first
in, first out (log 7), and what the line unit and the head do at the end of every command. -/

namespace Sys2Proof.Machine

/-- The station's JOIN (R19, R184). -/
def State.joinMsg (s : State) : Msg :=
  .join { roles := s.cfg.roles, start := if s.start.isCold || s.start.converted then .cold else .warm,
          blender := if s.cfg.roles.head then some s.cfg.blender else none,
          lane1 := if s.cfg.roles.mark then some s.cfg.lane1 else none,
          lane2 := if s.cfg.roles.mark then s.cfg.lane2 else none }

/-- JOIN queued (R184). -/
def State.queueJoin (s : State) : State × Jobs := s.sendFrame (jobFrame 0 s.joinMsg .join)

/-- The start unit's part in an event: the JOIN completed or failed (R184). -/
def State.takeStart (s : State) (e : Ev) : State × Jobs :=
  match e with
  | .complete _ =>
      if s.isJoining then
        ({ s with start := { s.start with joinT := .running s.peerTimeout, retryT := .stopped } }).tellAll .joinDone
      else (s, [])
  | .sendFailed _ _ =>
      (if s.isJoining then { s with start := { s.start with retryT := .running Config.presenceInterval } } else s, [])
  | _ => (s, [])

/-- A block's answer to an event put in force. -/
def State.runInv (s : State) (e : Eff Inv) : State × Jobs := ({ s with inv := e.st }).perform e.acts
/-- The same for the blend sequencer. -/
def State.runBlend (s : State) (e : Eff Blend) : State × Jobs := ({ s with blend := e.st }).perform e.acts
/-- The same for the lease arbiter. -/
def State.runArb (s : State) (e : Eff Arb) : State × Jobs := ({ s with arb := e.st }).perform e.acts
/-- The same for the head controller. -/
def State.runHead (s : State) (e : Eff Head) : State × Jobs := ({ s with head := e.st }).perform e.acts
/-- The same for the marker. -/
def State.runMark (s : State) (e : Eff Marker) : State × Jobs := ({ s with mark := e.st }).perform e.acts
/-- The same for the paper unit. -/
def State.runPaper (s : State) (e : Eff Paper) : State × Jobs := ({ s with paper := e.st }).perform e.acts

/-- One job: the block takes its event if it is active and working (chapter 10 table). -/
def State.takeJob (s : State) (b : Block) (e : Ev) : State × Jobs :=
  if s.working && s.blockActive b then
    match b with
    | .start => s.takeStart e
    | .inv => s.runInv (takeInv s e)
    | .blend => s.runBlend (takeBlend s e)
    | .arb => s.runArb (takeArb s e)
    | .head => s.runHead (takeHead s e)
    | .mark => s.runMark (takeMark s e)
    | .paper => s.runPaper (takePaper s e)
  else (s, [])

/-- Jobs in order; what a job raises goes behind the others (log 7). -/
def drain : Nat → State → Jobs → State
  | 0, s, _ => s
  | _ + 1, s, [] => s
  | n + 1, s, j :: l =>
      let r := s.takeJob j.1 j.2
      drain n r.1 (l ++ r.2)

/-- The bound on the jobs of one command (log 7). -/
def jobBound : Nat := 4096

/-- A LEASE-DONE that could not be opened is opened as soon as the line unit can take it (R111, log 10). -/
def State.payDone (s : State) : State × Jobs :=
  match s.head.owedDone with
  | [] => (s, [])
  | n :: r =>
      if s.canSend && decide (s.line.txq.length < Config.txPlaces) &&
          decide (s.line.exchanges.length < Config.exchangePlaces) then
        ({ s with head := { s.head with owedDone := r } }).perform1 (openDone s n)
      else (s, [])

/-- LEASE-DONE numbers owed, one by one; fuel is their number. -/
def State.payAll : Nat → State → State
  | 0, s => s
  | n + 1, s =>
      let r := s.payDone
      State.payAll n (drain jobBound r.1 r.2)

/-- The jobs of a command, then the LEASE-DONE owed, then a transmission that can begin (R7). -/
def State.settle (r : State × Jobs) : State :=
  let s := drain jobBound r.1 r.2
  (State.payAll s.head.owedDone.length s).tryTransmit

/-- A command of a working station. -/
def State.act (s : State) (f : State → State × Jobs) : State := if s.working then State.settle (f s) else s

end Sys2Proof.Machine
end

