-- ==== Sys2Proof/Machine/Start.lean ====
section
/-! DEFINITION. The start unit (10_station_port_and_start.md, sections 10.3 and 10.4): the four starts, what each block
keeps, the end of the load and the join period. -/

namespace Sys2Proof.Machine

/-! ## What a warm start does to each block at once -/

/-- The line unit (R23); its running timers are restarted at the load's end, and the line counts as BUSY until it is
heard (log 40). -/
def Line.warm (l : Line) : Line :=
  { Line.cold with tallyShort := l.tallyShort, tallyLong := l.tallyLong, tallyCheck := l.tallyCheck,
                   tallyForm := l.tallyForm, table := l.table, nextEx := l.nextEx }

/-- The short slot of an owner: ENTERING becomes HELD or EMPTY by the copy (R137). -/
def warmShort (r : Rec) : Option ShortSlot → Option ShortSlot
  | none => none
  | some k =>
      if k.entering then (if (r.chestOf k.head k.token).isSome then none else some { k with entering := false })
      else some k

/-- The owner's records set back to the copy (R50, R137). A LOST entry stays though the HEADER that counted it may be lost
with the queue (log 80). -/
def OwnerRec.warm (o : OwnerRec) (r : Rec) : OwnerRec :=
  { OwnerRec.start r with
    fills := o.fills, short := warmShort r o.short, settle := o.settle,
    entryVer := o.entryVer.filter (fun p => r.hasOrdinal p.1),
    markVer := o.markVer.filter (fun p => decide (p.2 ≤ r.hdr.version)) }

/-- One entry (R50): its ask, rebuild, closed and stale timers start again in full where they run. What a rebuild has
noted of the state before it stays, for the closure notice (R159). -/
def Entry.warm (e : Entry) : Entry :=
  { e with
    copy := if e.copy == .rebuilding then .stale else e.copy, adoptT := .stopped,
    own := e.own.map (fun o => o.warm e.data) }

/-- The station's own CLAIMED entries (R50). -/
def Inv.ownClaims (i : Inv) : List Nat := (i.table.filter (fun e => e.own.isSome && !e.late)).map Entry.num

/-- The CLAIM of `n` had completed: its window runs or ran, or the claim is firm, cancelled or not (R50). -/
def Inv.claimCompleted (i : Inv) (n : Nat) : Bool :=
  i.cancelledFirm n || match i.phase with
  | .window k _ _ => k == n
  | .queued k second _ => k == n && second
  | .firm k => k == n
  | _ => false

/-- The invoice unit (R50). -/
def Inv.warm (i : Inv) : Inv :=
  let lost := i.ownClaims
  { i with
    table := (i.table.filter (fun e => !lost.contains e.num)).map Entry.warm,
    req := none, phase := .idle, claimWindow := .stopped, claimRetry := .stopped,
    withdrawOwed := i.withdrawOwed ++ lost.filter i.claimCompleted }

/-- The front end (R62). -/
def FrontEnd.warm (f : FrontEnd) : FrontEnd := { FrontEnd.cold with zero := f.zero }

/-- The blend sequencer (R87). -/
def Blend.warm (b : Blend) : Blend := { b with gate := none, starve := .stopped, stall := .stopped, last := none }

/-- The head controller (R123). Lease numbers owed are lost with the leases, and no reading from before the start is acted
on (R62). -/
def Head.warm (h : Head) : Head := { h with last := none, lastWeight := none, owedDone := [] }

/-- Mark reports whose exchange was in flight wait for the end of the join period (R155). -/
def Lane.warm (l : Lane) (inFlight : Nat → Nat → Bool) : Lane :=
  { l with holdT := .stopped, queue := l.queue.map (fun e =>
      if e.state == .printed && inFlight e.inv e.ordinal then { e with waits := .endOfJoin } else e) }

/-- The marker (R155). A report with no entry ended as RESTART where its own exchange was in flight; one that waits for an
owner goes on waiting. -/
def Marker.warm (m : Marker) (inFlight : Nat → Nat → Bool) : Marker :=
  { m with lane1 := m.lane1.warm inFlight, lane2 := m.lane2.warm inFlight, stroke := .stopped,
           loose := m.loose.map (fun r => if inFlight r.inv r.ordinal && r.waits == .nothing then { r with waits := .endOfJoin } else r) }

/-- The paper unit (R171). -/
def Paper.warm (p : Paper) (inFlight : Nat → Bool) : Paper :=
  { p with window := match p.window.shown with
             | none => p.window
             | some _ => { shown := none, cause := .restart },
           taking := p.taking.map (fun t => if inFlight t.inv then { t with waits := .endOfJoin } else t) }

/-! ## Starts (R179, R186) -/

/-- A memory write under way is stopped: some of its bytes have landed, how many is a free value (R183, log 9). -/
def State.stopTransfer (s : State) : State :=
  match s.port.handling with
  | some (.write o data) =>
      let n := Config.bytesWritten s.draws % (data.length + 1)
      { s with cfgMem := Memory.writeMany s.cfgMem o (data.take n), draws := s.draws + 1,
               port := { s.port with handling := none } }
  | _ => { s with port := { s.port with handling := none } }

/-- Every block at its cold-start values (R179); the memory, the pins and the queue of commands stay. -/
def State.coldBlocks (s : State) : State :=
  { s with line := Line.cold, inv := Inv.cold, fe := FrontEnd.cold, blend := Blend.cold, arb := Arb.cold,
           head := Head.cold, mark := Marker.cold, paper := Paper.cold }

/-- A cold start (R179). -/
def State.coldStart (s : State) (k : StartKind) : State :=
  let s1 := s.stopTransfer.coldBlocks
  { s1 with port := Port.cold, start := Start.cold k s.start.resetLow, cfg := Cfg.none }

/-- What every block keeps at a warm start (R23, R50, R62, R87, R100, R123, R155, R171, R186). -/
def State.warmBlocks (s : State) : State :=
  let p := s.inv.ownClaims.foldl (fun (p : Paper) n => (p.freed n).gap { s with inv := s.inv.warm } n) s.paper
  { s with
    line := s.line.warm, inv := s.inv.warm, fe := s.fe.warm, blend := s.blend.warm, arb := s.arb.cleared,
    head := s.head.warm, mark := s.mark.warm s.markInFlight,
    paper := if s.cfg.roles.paper then p.warm s.takingInFlight else s.paper,
    port := { s.port with reports := [] } }

/-- The start record at a warm start (R182). -/
def Start.warm (st : Start) (k : StartKind) : Start :=
  { st with state := .loading, kind := k, isCold := false, warmCount := min (st.warmCount + 1) 255, converted := false,
            memChanged := false, joinT := .stopped, retryT := .stopped }

/-- A warm start (R179). During a load begun by a cold start it leaves the start cold (log 33). -/
def State.warmStart (s : State) (k : StartKind) : State :=
  if s.start.state == .loading && s.start.isCold then
    { s.stopTransfer with start := Start.cold k s.start.resetLow }
  else
    let s1 := s.stopTransfer.warmBlocks
    { s1 with start := s1.start.warm k }

/-- POWER_ON. -/
def State.powerOn (s : State) : State := s.coldStart .coldPower

/-- RESET_PIN_LOW: the part is held (R179); a memory transfer stops (log 38). -/
def State.pinLow (s : State) : State :=
  if s.start.resetLow then s
  else
    let s1 := s.stopTransfer
    { s1 with start := { s1.start with resetLow := true } }

/-- RESET_PIN_RELEASE after a time in ms. -/
def State.pinHigh (s : State) (ms : Nat) : State :=
  if s.start.resetLow then
    let s1 := { s with start := { s.start with resetLow := false } }
    if ms ≥ Config.coldResetMs then s1.coldStart .coldPin else s1.warmStart .warmPin
  else s

/-! ## The end of the load (R180 to R182, R184) -/

/-- START and CONFIG_FAULT as reports. -/
def startCode : StartKind → CauseCode
  | .coldPower => .coldPower
  | .coldPin => .coldPin
  | .warmPin => .warmPin
  | .warmRequest => .warmRequest

/-- The report CONFIG_FAULT of a fault (R181, R189). -/
def faultReport : CfgFault → Report
  | .signature => Report.of .configFault none none none (.code .signature)
  | .check => Report.of .configFault none none none (.code .check)
  | .value n => Report.of .configFault none (some n) none (.code .value)

/-- The load ended in a fault: OFFLINE with cause CONFIG (R181). -/
def State.loadFault (s : State) (f : CfgFault) : State :=
  ({ s with start := { s.start with state := .offlineConfig, fault := some f, rejected := [] } }).report (faultReport f)

/-- A timer restarts in full where it runs (R23). -/
def Timer.again (ms : Nat) : Timer → Timer
  | .stopped => .stopped
  | .running _ => .running ms

/-- A warm load that changes number or roles is a cold start of every block (R182, log 34). -/
def State.converts (s : State) (c : Cfg) : Bool :=
  !s.start.isCold && (c.number != s.cfg.number || c.roles != s.cfg.roles)

/-- Every block takes its configured values (R20, R23, R50, R61, R62, R123). -/
def State.takeCfg (s : State) (c : Cfg) (cold : Bool) : State :=
  let timeout := Config.presenceInterval * c.scale
  let table := s.line.table.map (fun p => { p with silence := p.silence.again timeout, watch := p.watch.again timeout })
  { s with
    cfg := c, line := { s.line with table := table },
    inv := if cold then { s.inv with mark := c.first - 1 } else s.inv,
    fe := { s.fe with zero := if cold then c.zero else s.fe.zero,
                      loss := if c.roles.blend || c.roles.head then .running Config.lossTime else .stopped },
    head := if cold then { s.head with allowance := c.allowance, refGrade := c.defGrade } else s.head }

/-- The reports of a good load: START, then CONFIG_FAULT with cause LAYOUT for each rejected grade (R181). -/
def loadReports (k : StartKind) (rejected : List Nat) : List Report :=
  Report.of .start none none none (.code (startCode k)) ::
    rejected.map (fun g => Report.of .configFault none (some g) none (.code .layout))

/-- The load ended good: the station enters JOINING and queues JOIN (R180, R184). Its own entry moves to JOINING (R20); the
blocks take that event behind what the load itself has them do (log 42). -/
def State.loadGood (s : State) (c : Cfg) : State × Jobs :=
  let conv := s.converts c
  let cold := s.start.isCold || conv
  let s1 := (if conv then s.coldBlocks else s).takeCfg c cold
  let s2 := { s1 with start := { s1.start with
    state := .joining, fault := none, rejected := c.rejected, converted := conv,
    warmCount := if conv then 0 else s1.start.warmCount } }
  let s3 := s2.reportAll (loadReports s.start.kind c.rejected)
  let (s4, j4) := s3.queueJoin
  let (s5, j5) := if cold then (s4, []) else s4.tellAll .loaded
  let (s6, j6) := s5.entryMoved s5.self s.ownPeer.state s5.ownPeer.state .other
  (s6, j4 ++ j5 ++ j6)

/-- CONFIG_LOAD_END: the memory has been read, or did not answer (R180). -/
def State.loadEnd (s : State) (answers : Bool) : State :=
  if s.start.state == .loading && !s.start.resetLow then
    match loadMemory s.cfgMem answers with
    | .inl f => s.loadFault f
    | .inr c => State.settle (s.loadGood c)
  else s

/-! ## The join period (R184, R185) -/

/-- JOIN_RETRY_DELAY_EXPIRY. -/
def State.joinRetry (s : State) : State × Jobs :=
  if s.isJoining && s.start.retryT.on then
    ({ s with start := { s.start with retryT := .stopped } }).queueJoin
  else (s, [])

/-- JOIN_PERIOD_END (R185): the station is ACTIVE and its own entry PRESENT, with the event and the report of that move (R20); the
blocks take the event before the end-of-join notice (log 42). -/
def State.joinEnd (s : State) : State × Jobs :=
  if s.isJoining && s.start.joinT.on then
    let s1 := { s with start := { s.start with state := .active, joinT := .stopped } }
    let (s2, j2) := s1.entryMoved s1.self s.ownPeer.state s1.ownPeer.state .other
    let (s3, j3) := s2.sendFrame (jobFrame 0 s2.presenceMsg .presence)
    let (s4, j4) := s3.tellAll .endOfJoin
    (s4, j2 ++ j3 ++ j4)
  else (s, [])

end Sys2Proof.Machine
end

