-- ==== Sys2Proof/Machine/CmdLine.lean ====
section
/-! DEFINITION. The commands of starts and of the shed line's own events: POWER_ON to NOISE. -/

namespace Sys2Proof.Machine

/-- What every meaning answers: a next state. -/
abbrev Res := Host.Outcome State Fault Refusal

/-- A command of one block at a working station that has the block. -/
def State.actAs (s : State) (b : Block) (f : State → State × Jobs) : State :=
  s.act (fun s => if s.blockActive b then f s else (s, []))

/-- POWER_ON (R179). -/
def execPowerOn (s : State) : Res := .next s.powerOn

/-- RESET_PIN_LOW (R179). -/
def execResetPinLow (s : State) : Res := .next s.pinLow

/-- RESET_PIN_RELEASE, the pin having been low for `ms` (R179). -/
def execResetPinRelease (ms : Nat) (s : State) : Res := .next (s.pinHigh ms)

/-- CONFIG_LOAD_END (R180). -/
def execConfigLoadEnd (answers : Bool) (s : State) : Res := .next (s.loadEnd answers)

/-- JOIN_RETRY_DELAY_EXPIRY (R184). -/
def execJoinRetryDelayExpiry (s : State) : Res := .next (s.act State.joinRetry)

/-- JOIN_PERIOD_END (R185). -/
def execJoinPeriodEnd (s : State) : Res := .next (s.act State.joinEnd)

/-- INTERFRAME_GAP: the line has been idle for 24 bit times; a transmission that can begin then does (R1, R7). -/
def execInterframeGap (s : State) : Res := .next (s.act (fun s => (s.gapReached, [])))

/-- BACKOFF_SLOT (R8). -/
def execBackoffSlot (s : State) : Res := .next (s.act (fun s => (s.slotPassed, [])))

/-- COLLISION (R7, R8, R9). -/
def execCollision (s : State) : Res := .next (s.act State.collide)

/-- FRAME_COMPLETE (R10). -/
def execFrameComplete (s : State) : Res := .next (s.act State.frameComplete)

/-- A received frame by its class: tallied, or received (R3, R4). -/
def State.heardBytes (s : State) (l : List Byte) : State × Jobs :=
  let n := s.line.frameEnd
  match classify l with
  | .short => ({ s with line := { n with tallyShort := bump n.tallyShort } }, [])
  | .long => ({ s with line := { n with tallyLong := bump n.tallyLong } }, [])
  | .check => ({ s with line := { n with tallyCheck := bump n.tallyCheck } }, [])
  | .form => ({ s with line := { n with tallyForm := bump n.tallyForm } }, [])
  | .valid k e m => s.receive (heardAs k (bodyBytes l)) e m

/-- INVALID_FRAME: the bytes received after sync (R3, R4). -/
def execInvalidFrame (l : List Byte) (s : State) : Res := .next (s.act (fun s => s.heardBytes l))

/-- NOISE: activity without sync makes the line BUSY and restarts the IDLE time (R1). -/
def execNoise (s : State) : Res := .next (s.act (fun s => ({ s with line := s.line.busy }, [])))

end Sys2Proof.Machine
end

