-- ==== Sys2Proof/Machine/CmdFrames.lean ====
section
/-! DEFINITION. The commands that are frames heard from other stations (R3, R5, R6, R20): a body is none where a field of it is
not valid (R187). -/

namespace Sys2Proof.Machine

/-- A frame of class valid was heard (R5). -/
def State.hear (s : State) (h : Heard) (e : Env) (m : Option Msg) : State := s.act (fun s => s.receive h e m)

/-- JOIN (R18, R19, R20, R22). -/
def execJoin (e : Env) (b : JoinRead) (s : State) : Res := .next (s.hear (.join b) e (b.body.map .join))

/-- PRESENCE (R18, R20, R28). -/
def execPresence (e : Env) (b : PresenceRead) (s : State) : Res := .next (s.hear (.presence b) e (b.body.map .presence))

/-- CLAIM (R31). -/
def execClaim (e : Env) (b : Option ClaimBody) (s : State) : Res := .next (s.hear .other e (b.map .claim))

/-- CONSENT (R32). -/
def execConsent (e : Env) (b : Option ConsentBody) (s : State) : Res := .next (s.hear .other e (b.map .consent))

/-- OBJECT (R32). -/
def execObject (e : Env) (b : Option ObjectBody) (s : State) : Res := .next (s.hear .other e (b.map .object))

/-- WITHDRAW (R34). -/
def execWithdraw (e : Env) (b : Option Nat) (s : State) : Res := .next (s.hear .other e (b.map .withdraw))

/-- HEADER (R36 to R49). -/
def execHeader (e : Env) (b : Option HeaderBody) (s : State) : Res := .next (s.hear .other e (b.map .header))

/-- RECORD-BLOCK (R39). -/
def execRecordBlock (e : Env) (b : Option BlockBody) (s : State) : Res := .next (s.hear .other e (b.map .recordBlock))

/-- RECORD-ASK (R38). -/
def execRecordAsk (e : Env) (b : Option Nat) (s : State) : Res := .next (s.hear .other e (b.map .recordAsk))

/-- CHEST-DONE (R128). -/
def execChestDone (e : Env) (b : Option ChestDoneBody) (s : State) : Res := .next (s.hear .other e (b.map .chestDone))

/-- CHEST-ENTERED (R26, R117, R140). -/
def execChestEntered (e : Env) (b : Option ChestEnteredBody) (s : State) : Res := .next (s.hear .other e (b.map .chestEntered))

/-- CHEST-REFUSED (R117, R118). -/
def execChestRefused (e : Env) (b : Option RefusedBody) (s : State) : Res := .next (s.hear .other e (b.map .chestRefused))

/-- FILL-VOID (R132). -/
def execFillVoid (e : Env) (b : Option VoidBody) (s : State) : Res := .next (s.hear .other e (b.map .fillVoid))

/-- MARK-DONE (R133). -/
def execMarkDone (e : Env) (b : Option MarkDoneBody) (s : State) : Res := .next (s.hear .other e (b.map .markDone))

/-- MARK-ENTERED (R26, R141). -/
def execMarkEntered (e : Env) (b : Option MarkEnteredBody) (s : State) : Res := .next (s.hear .other e (b.map .markEntered))

/-- ADOPT (R44, R45). -/
def execAdopt (e : Env) (b : Option AdoptBody) (s : State) : Res := .next (s.hear .other e (b.map .adopt))

/-- SHEET-TAKEN (R49, R168). -/
def execSheetTaken (e : Env) (b : Option Nat) (s : State) : Res := .next (s.hear .other e (b.map .sheetTaken))

/-- LEASE-ASK (R90). -/
def execLeaseAsk (e : Env) (b : Option LeaseAskBody) (s : State) : Res := .next (s.hear .other e (b.map .leaseAsk))

/-- LEASE-GRANT (R109). -/
def execLeaseGrant (e : Env) (b : Option LeaseGrantBody) (s : State) : Res := .next (s.hear .other e (b.map .leaseGrant))

/-- LEASE-DONE (R94). -/
def execLeaseDone (e : Env) (b : Option Nat) (s : State) : Res := .next (s.hear .other e (b.map .leaseDone))

/-- LEASE-END (R110). -/
def execLeaseEnd (e : Env) (b : Option LeaseEndBody) (s : State) : Res := .next (s.hear .other e (b.map .leaseEnd))

/-- LEASE-CANCEL (R95). -/
def execLeaseCancel (e : Env) (b : Option Nat) (s : State) : Res := .next (s.hear .other e (b.map .leaseCancel))

/-- HOLD (R107). -/
def execHold (e : Env) (b : Option Nat) (s : State) : Res := .next (s.hear .other e (b.map .hold))

/-- GO (R107). -/
def execGo (e : Env) (b : Option Nat) (s : State) : Res := .next (s.hear .other e (b.map .go))

/-- NOTED (R15, R38, R153). -/
def execNoted (e : Env) (b : Option NotedBody) (s : State) : Res := .next (s.hear .other e (b.map .noted))

end Sys2Proof.Machine
end

