-- ==== Sys2Proof/Machine/CmdTimers.lean ====
section
/-! DEFINITION. The commands that are timer expiries. The expiry of a timer that does not run is no event and changes nothing
(log 3). -/

namespace Sys2Proof.Machine

/-- A timer of the invoice unit. -/
def State.actInv (s : State) (f : State → Inv → Eff Inv) : State := s.act (fun s => s.runInv (invTimer s (f s)))

/-- A timer or an input of the marker. -/
def State.actMark (s : State) (f : State → Marker → Eff Marker) : State :=
  s.actAs .mark (fun s => s.runMark (markInput s (f s)))

/-- CONFIRM_TIMER_EXPIRY of an exchange (R14, R16). -/
def execConfirmTimerExpiry (k : ExKey) (s : State) : Res := .next (s.act (fun s => s.confirmExpired k))

/-- PRESENCE_TIMER_EXPIRY (R18). -/
def execPresenceTimerExpiry (s : State) : Res := .next (s.act State.presenceExpired)

/-- SILENCE_TIMER_EXPIRY of a station's entry (R21). -/
def execSilenceTimerExpiry (n : Nat) (s : State) : Res := .next (s.act (fun s => s.silenceExpired n))

/-- JOIN_WATCH_EXPIRY of a station's entry (R20). -/
def execJoinWatchExpiry (n : Nat) (s : State) : Res := .next (s.act (fun s => s.watchExpired n))

/-- CLAIM_WINDOW_EXPIRY (R33). -/
def execClaimWindowExpiry (s : State) : Res := .next (s.actInv (fun _ i => i.windowExpired))

/-- CLAIM_RETRY_DELAY_EXPIRY (R33). -/
def execClaimRetryDelayExpiry (s : State) : Res := .next (s.actInv (fun s i => i.retryExpired s))

/-- CLAIM_STALE_TIMER_EXPIRY (R34). -/
def execClaimStaleTimerExpiry (n : Nat) (s : State) : Res := .next (s.actInv (fun _ i => i.staleExpired n))

/-- VERSIONED_RESEND_DELAY_EXPIRY (R35). -/
def execVersionedResendDelayExpiry (n : Nat) (s : State) : Res := .next (s.actInv (fun _ i => i.resendExpired n))

/-- ASK_TIMER_EXPIRY (R36, R37). -/
def execAskTimerExpiry (n : Nat) (s : State) : Res := .next (s.actInv (fun s i => i.askExpired s n))

/-- REBUILD_TIMER_EXPIRY (R39). -/
def execRebuildTimerExpiry (n : Nat) (s : State) : Res := .next (s.actInv (fun s i => i.rebuildExpired s n))

/-- CLOSED_TIMER_EXPIRY (R40). -/
def execClosedTimerExpiry (n : Nat) (s : State) : Res := .next (s.actInv (fun s i => i.closedExpired s n))

/-- ADOPTION_DELAY_EXPIRY (R43). -/
def execAdoptionDelayExpiry (n : Nat) (s : State) : Res := .next (s.actInv (fun s i => i.delayExpired s n))

/-- SETTLE_TIMER_EXPIRY of an adoption (R43, R135). -/
def execSettleTimerExpiry (n : Nat) (s : State) : Res := .next (s.actInv (fun s i => i.settleExpired s n))

/-- LOSS_TIMER_EXPIRY (R56). -/
def execLossTimerExpiry (s : State) : Res := .next (s.act State.lossExpired)

/-- STARVE_TIMER_EXPIRY (R71). -/
def execStarveTimerExpiry (s : State) : Res := .next (s.actAs .blend (fun s => s.runBlend s.blend.starved))

/-- STALL_TIMER_EXPIRY (R74). -/
def execStallTimerExpiry (s : State) : Res := .next (s.actAs .blend (fun s => s.runBlend s.blend.stalled))

/-- HOLD_LAPSE_TIMER_EXPIRY (R107). -/
def execHoldLapseTimerExpiry (s : State) : Res := .next (s.actAs .head (fun s => s.runHead (s.head.lapseExpired s)))

/-- HEAD_SETTLE_TIMER_EXPIRY (R112). -/
def execHeadSettleTimerExpiry (s : State) : Res := .next (s.actAs .head (fun s => s.runHead (s.head.settleExpired s)))

/-- LANE_HOLD_TIMER_EXPIRY of a lane (R143). -/
def execLaneHoldTimerExpiry (k : Nat) (s : State) : Res := .next (s.actMark (fun s m => m.holdExpired s k))

/-- STROKE_TIMER_EXPIRY (R150). -/
def execStrokeTimerExpiry (s : State) : Res := .next (s.actMark (fun s m => m.strokeExpired s))

end Sys2Proof.Machine
end

