-- ==== Sys2Proof/Machine/CmdInputs.lean ====
section
/-! DEFINITION. The commands that are inputs of the station's equipment. -/

namespace Sys2Proof.Machine

/-- SAMPLE: a converter word of which `bits` bits arrived, and the flight timer's reading (R51, R112). -/
def execSample (word : BitVec 32) (bits flightMs : Nat) (s : State) : Res :=
  .next (s.act (fun s => s.sample word bits flightMs))

/-- DRUM_TURN_PULSE (R74). -/
def execDrumTurnPulse (s : State) : Res := .next (s.actAs .blend (fun s => s.runBlend (s.blend.turn s.isJoining)))

/-- CHEST_PRESENCE_CHANGE: the input's new level; the level is kept whatever the station's state (R105). -/
def execChestPresenceChange (present : Bool) (s : State) : Res :=
  if s.presence = present then .next s
  else .next (({ s with presence := present }).actAs .head (fun s => (s, [(Block.head, Ev.presenceChanged)])))

/-- LANE_EYE_ARRIVAL (R144). -/
def execLaneEyeArrival (k : Nat) (s : State) : Res := .next (s.actMark (fun s m => m.eye s k))

/-- COMPOSITION_COMPLETE (R148). -/
def execCompositionComplete (s : State) : Res := .next (s.actMark (fun _ m => Eff.pure m.composed))

/-- STROKE_END (R149). -/
def execStrokeEnd (s : State) : Res := .next (s.actMark (fun s m => m.strokeEnd s))

end Sys2Proof.Machine
end

