-- ==== Sys2Proof/Machine/Answers.lean ====
section
/-! DEFINITION. The bodies of the port's answers (R189): READ STATUS and its sections, the reading requests, sheets.
Field order follows the rules that list them; where neither they nor R189 fix a point, log 36 does. -/

namespace Sys2Proof.Machine

/-- A whole answer as bytes: kind, code, length, body, and the check byte that brings the sum to 0 (R189). -/
def answerBytes (a : Answer) : List Byte :=
  let l := [a.kind] ++ putCode portAnswers a.code ++ put2 a.body.length ++ a.body
  l ++ [byte (256 - l.foldl (fun t b => t + b.toNat) 0 % 256)]

/-- The bytes of the answer that is ready at the answer place; none is ready while the reset pin is low (R173). -/
def State.portBytes (s : State) : Option (List Byte) :=
  if s.start.resetLow then none else s.port.answer.map answerBytes

/-- The not-ready byte, which no request kind uses (R189). -/
def notReady : Byte := 0xFF#8

/-- The first `k` bytes that the host clocks out at the answer place: those of the answer that is ready, or the not-ready byte
in the place of the kind byte and of every later byte (R173, R189). -/
def State.portReads (s : State) (k : Nat) : List Byte :=
  match s.portBytes with
  | none => List.replicate k notReady
  | some l => l.take k

/-! ## Reports (R189) -/

/-- The form and value of a cause. -/
def putCause : Cause → List Byte
  | .absent => put1 0 ++ put1 0
  | .code c => put1 1 ++ putCode causeCodes c
  | .number n => put1 2 ++ put1 n

/-- One report entry of 9 bytes. -/
def putReport (r : Report) : List Byte :=
  putCode reportKinds r.kind ++
    put1 ((if r.inv.isSome then 1 else 0) + (if r.ordinal.isSome then 2 else 0) + (if r.station.isSome then 4 else 0)) ++
    put2 (r.inv.getD 0) ++ put2 (r.ordinal.getD 0) ++ putStation r.station ++ putCause r.cause

/-! ## READ STATUS -/

/-- A section: its code, its length in two bytes, its content (R189). -/
def section_ (code : Nat) (body : List Byte) : List Byte := put1 code ++ put2 body.length ++ body

/-- The station state and the OFFLINE cause. -/
def putStationState : StationState → List Byte
  | .loading => put1 1 ++ put1 0
  | .joining => put1 2 ++ put1 0
  | .active => put1 3 ++ put1 0
  | .offlineConfig => put1 4 ++ put1 1
  | .offlineDup _ => put1 4 ++ put1 2

/-- The configuration result: GOOD, or FAULT with its cause and, for VALUE, the offset. -/
def putResult : Option CfgFault → List Byte
  | none => put1 1 ++ put1 0 ++ putFlag false
  | some .signature => put1 2 ++ put1 1 ++ putFlag false
  | some .check => put1 2 ++ put1 2 ++ putFlag false
  | some (.value n) => put1 2 ++ put1 3 ++ putFlag true ++ put2 n

/-- The start record (R182). -/
def putStartRecord (st : Start) : List Byte :=
  putCode startKinds st.kind ++ putResult st.fault ++
    (List.range 12).flatMap (fun g => putFlag (st.rejected.contains g)) ++ put1 st.warmCount ++ putFlag st.converted ++
    putFlag st.memChanged

/-- The common section (R175). -/
def State.commonSection (s : State) : List Byte :=
  put1 s.self ++ put1 (rolesByte s.cfg.roles) ++ putStationState s.start.state ++ put2 s.inv.mark ++
    put1 s.port.reports.length ++ putStartRecord s.start

/-- The front-end section (R63). -/
def FrontEnd.statusBody (f : FrontEnd) : List Byte :=
  putOpt putInt f.weight ++ putFlag f.stable ++ putFlag f.overload ++ putFlag f.lost ++ putInt f.zero ++
    put1 f.window.length ++ put1 f.count

/-- A component (R64). Start weight, peak rise and settle mark are sent for the component being charged; the peak rise is sent
as a signed weight of 3 bytes (the model's choice, log 36). -/
def putComp (charged : Bool) (c : Comp) : List Byte :=
  put1 c.bin ++ put3 c.target ++ put3 c.drawn ++ putCode compStates c.state ++
    (if charged then putOpt putInt c.start ++ putFlag true ++ putInt c.peak ++ putFlag true ++ putFlag c.settle
     else putFlag false ++ putFlag false ++ putFlag false)

/-- The components with their places. -/
def Order.putComps (o : Order) : List Byte :=
  put1 o.comps.length ++
    (o.comps.zipIdx).flatMap (fun p => putComp (o.cur == some p.2) p.1)

/-- The order (R64); held cause and stop pending stand before it. -/
def putOrder (o : Order) : List Byte :=
  put2 o.number ++ put1 o.grade ++ putText 8 o.garden ++ put1 o.mix ++ o.putComps ++
    put1 (match o.cur with
      | none => 0
      | some k => k + 1) ++
    putBatch o.charged ++ put1 o.turns ++ putCode orderClaims o.claim ++ putInvoice o.batch

/-- The blender section (R85). -/
def Blend.statusBody (b : Blend) : List Byte :=
  putCode blendStates b.state ++ putCodeOpt blendHelds b.held ++ putCodeOpt stopCauses b.stop ++ putOpt putOrder b.order ++
    b.book.toList.flatMap (fun k => put3 k.weight ++ put1 k.count)

/-- A lease in a slot (R101). -/
def putLease (l : Lease) : List Byte :=
  put1 l.head ++ put1 l.token ++ putCode purposes l.purpose ++ put2 l.inv ++ put1 l.number

/-- The arbiter section (R101), with the diverter position asserted. -/
def Arb.statusBody (a : Arb) (diverter : Option Nat) : List Byte :=
  put1 (if a.openFlag then 1 else 2) ++ putInvoice a.batch ++ putOpt putLease a.current ++ putOpt putLease a.next ++
    putList (fun (k : Ask) => put1 k.head ++ putCode purposes k.purpose ++ put1 k.token) a.queue ++ put1 a.counter ++
    put1 (if a.gate then 1 else 2) ++ putOpt put1 diverter

/-- The chest in progress (R102); the flight time in ms in two bytes, held at 65535 (log 36). -/
def putChestNow (c : ChestNow) : List Byte :=
  put1 c.token ++ putInvoice c.inv ++ put2 c.tare ++ putOpt put2 c.gross ++ putOpt put2 c.net ++ put1 c.topups ++
    put1 c.limit ++ putFlag c.starved ++ putOpt (fun ms => put2 (min ms 65535)) c.flight ++ putFlag c.flightLong ++
    putCodeOpt chestClasses c.cls ++ putOpt put1 c.lease

/-- The limits of R103 for the governing grade, each a signed weight (log 36). -/
def putLimits (g : Grade) (band allowance : Nat) : List Byte :=
  putInt ((g.tareNom : Int) - g.tareBand) ++ putInt ((g.tareNom : Int) + g.tareBand) ++ putInt (dribblePoint g band) ++
    putInt (cutoffPoint g allowance .fill) ++ putInt (cutoffPoint g allowance .topup) ++ putInt (lowerLimit g) ++
    putInt (upperLimit g) ++ putInt g.shortMin

/-- The exchange that a REPORTED or VOIDING head has open for its chest; one left from an earlier chest is not it (R124). -/
def State.reportExchange (s : State) : Option Exchange :=
  match s.head.chest, s.head.chestInv with
  | some c, some n =>
      match s.head.state with
      | .reported => s.line.exchanges.find? (fun x => x.key == .chestDone n c.token)
      | .voiding => s.line.exchanges.find? (fun x => x.key == .fillVoid n c.token)
      | _ => none
  | _, _ => none

/-- The kind of the frame a head in HELD(SEND) is to send again. -/
def sendKind : SendFrame → FrameKind
  | .askFill | .askTopup => .leaseAsk
  | .done _ => .leaseDone
  | .chestDone => .chestDone
  | .fillVoid => .fillVoid

/-- The head section (R124). Outside REPORTED and VOIDING the open-exchange item is sent too, as flag 0 and destination 0 (the
model's choice, log 36); the flight allowance has 2 bytes (log 36 too). -/
def State.headBody (s : State) : List Byte :=
  let h := s.head
  putCode headStates h.state ++ putCodeOpt headFaults h.cause ++ putCode leaseStates h.lease ++
    putOpt put1 (h.chest.bind (fun c => c.lease)) ++ putFlag h.hold ++ putOpt putChestNow h.chest ++ put1 h.refGrade ++
    putLimits (h.grade s) s.cfg.dribble h.allowance ++ put2 h.allowance ++ put1 h.lastToken ++
    putFlag s.reportExchange.isSome ++ putStation (s.reportExchange.map (fun x => x.peer)) ++
    putCodeOpt frameKinds (h.sendFrame.map sendKind)

/-- A lane queue entry (R139). -/
def putLaneEntry (e : LaneEntry) : List Byte :=
  put2 e.inv ++ put1 e.ordinal ++ putCode laneStates e.state ++ put1 e.source ++ putCodeOpt laneFaults e.cause ++
    putCodeOpt hows e.how ++ putCode markAnswers e.answer ++ putFlag e.elsewhere

/-- A lane with its stop output (R157), the conditions in the order of R139. -/
def putLane (head : Nat) (l : Lane) (stop : Bool) : List Byte :=
  put1 head ++ put1 l.count ++ putList putLaneEntry l.queue ++
    putOpt (fun (o : Overflow) => put2 o.inv ++ put1 o.ordinal ++ put1 o.source) l.overflow ++ putFlag l.holdFlag ++
    putFlag l.stray ++ putFlag l.laneOver ++ putFlag l.unconfirmed ++ putFlag l.jam ++ putFlag stop

/-- A job (R144). -/
def putJob (j : Job) : List Byte := put1 j.lane ++ put2 j.inv ++ put1 j.ordinal

/-- The marker section (R157). -/
def State.markBody (s : State) : List Byte :=
  let m := s.mark
  putList (fun (k : Nat) => putLane ((s.cfg.laneHead k).getD 0) (m.lane k) (s.laneStop k)) s.cfg.lanes ++ putCode stencilHeads m.head ++
    putFlag s.outputs.strokeStart ++ putList putJob m.arrivals ++ putCode plateConds m.plateA.cond ++
    putOpt putJob m.plateA.job ++ putCode plateConds m.plateB.cond ++ putOpt putJob m.plateB.job ++
    putCode plateNames m.compose ++ putCode plateNames m.print

/-- The paper queue or the waiting entries (R172). -/
def State.putSheets (s : State) (l : List PaperEntry) : List Byte :=
  putList (fun (e : PaperEntry) => put2 e.inv ++ put2 e.seq ++
    putCodeOpt copyStates ((s.inv.find e.inv).map (fun x => x.copy))) l

/-- The paper section (R172). R172 orders the paper queue alone: the waiting entries go by rising closure sequence and the
takings in the order in which SHEET DONE added them (the model's choices, log 36). -/
def State.paperBody (s : State) : List Byte :=
  let p := s.paper
  let dest := fun (n : Nat) => (s.line.exchanges.find? (fun x => x.key == .sheetTaken n)).map (fun x => x.peer)
  putFlag p.acting ++ putStation p.found ++ s.putSheets p.queue ++ s.putSheets p.waiting ++
    put1 (if p.window.shown.isSome then 1 else 2) ++ putInvoice (p.window.shown.map (fun w => w.1)) ++
    putOpt put2 (p.window.shown.map (fun w => w.2)) ++ putCode windowCauses p.window.cause ++
    putList (fun (t : Taking) => put2 t.inv ++ putFlag (dest t.inv).isSome ++ putStation (dest t.inv)) p.taking ++
    putList put2 p.gaps ++ putFlag p.gapOver

/-- The sections of READ STATUS (R175, R189). Role blocks are active outside LOADING with the station's roles; after a
configuration fault the roles are those of the last good load (R174). -/
def State.statusBody (s : State) : List Byte :=
  let r := s.cfg.roles
  section_ 1 s.commonSection ++ (if r.blend || r.head then section_ 2 s.fe.statusBody else []) ++
    (if r.blend then section_ 3 s.blend.statusBody ++ section_ 4 (s.arb.statusBody s.diverterOut) else []) ++
    (if r.head then section_ 5 s.headBody else []) ++ (if r.mark then section_ 6 s.markBody else []) ++
    (if r.paper then section_ 7 s.paperBody else [])

/-! ## READ STATION TABLE, READ TALLIES, READ INVOICE, READ PLATE -/

/-- One entry (R20, R175). -/
def putPeer (p : Peer) : List Byte :=
  putCode peerStates p.state ++ putOpt (fun r => put1 (rolesByte r)) p.roles ++ putStation p.blender ++
    putStation p.lane1 ++ putStation p.lane2 ++ putOpt put2 p.mark ++ putTimer p.silence ++ putTimer p.watch

/-- The 24 entries in station order; no timer runs where the station does not work (R179, R181). -/
def State.tableBody (s : State) : List Byte :=
  let still := fun (p : Peer) => if s.working then p else { p with silence := .stopped, watch := .stopped }
  stations.flatMap (fun n => putPeer (still (s.peer n)))

/-- SHORT, LONG, CHECK, FORM (R189). -/
def Line.tallyBody (l : Line) : List Byte := put1 l.tallyShort ++ put1 l.tallyLong ++ put1 l.tallyCheck ++ put1 l.tallyForm

/-- A void of 4 bytes (R189). -/
def putVoid (v : VoidRec) : List Byte := put1 v.head ++ put1 v.token ++ put2 v.net

/-- The header fields of R25 in the order of the HEADER body (R189). -/
def putHeader (h : Header) : List Byte := putHeadOpening h ++ putHeadFields h

/-- The owner section (R138). Of an EMPTY short slot head 0 and two cleared presence flags are sent (R189, log 36). -/
def putOwner (o : OwnerRec) : List Byte :=
  put2 o.issued ++
    putList (fun (f : Fill) => put1 f.head ++ put1 f.token ++ put1 f.leases ++ put1 (if f.lost then 2 else 1)) o.fills ++
    (match o.short with
      | none => put1 1 ++ put1 0 ++ putFlag false ++ putFlag false
      | some k => put1 (if k.entering then 3 else 2) ++ put1 k.head ++ putFlag true ++ put1 k.token ++ putFlag true ++
          put2 k.net) ++
    putTimer o.settle

/-- READ INVOICE (R175). -/
def Entry.readBody (e : Entry) (first count : Nat) : List Byte :=
  putHeader e.data.hdr ++ putCode copyStates e.copy ++ putFlag e.orphan ++
    (if count = 0 then putList putVoid e.data.voids
     else putList putChest ((e.data.chests.filter (fun c => decide (c.ordinal ≥ first))).take count)) ++
    (match e.own with
      | none => []
      | some o => putOwner o)

/-- READ PLATE (R156); `lines` are those shown. The selection is one flag, 1 for compose (log 36). -/
def Marker.plateBody (m : Marker) (p : PlateName) (lines : List Text) : List Byte :=
  putCode plateConds (m.plate p).cond ++ putList (putText 20) lines ++ putOpt putJob (m.plate p).job ++
    putFlag (m.compose == p)

/-! ## Sheets (R166, R167, R189) -/

/-- The sum of a weight over the chests that carry it. -/
def sumOf (l : List Chest) (f : Chest → Option Nat) : Nat := l.foldl (fun t c => t + (f c).getD 0) 0

/-- The chests that fit, counted. -/
def countOf (l : List Chest) (p : Chest → Bool) : Nat := (l.filter p).length

/-- Charged net less entered net total, void total and residue (R167). -/
def sheetDifference (h : Header) : Int :=
  (h.charged : Int) - h.netTotal - h.voidTotal - (h.residue.getD 0 : Nat)

/-- RECONCILE (R167). -/
def reconcile (h : Header) : Bool := h.adoption == .forced || (h.owner != h.batch && decide (h.voidTotal > 0))

/-- The ordinal of the chest flagged SHORT. -/
def shortOrdinal (r : Rec) : Nat :=
  match r.chests.find? (fun c => c.short) with
  | none => 0
  | some c => c.ordinal

/-- Part 0 (R167). -/
def sheetPart0 (season : Text) (r : Rec) (gaps : List Nat) (gapOver : Bool) : List Byte :=
  putHeader r.hdr ++ putText 4 season ++ put1 r.hdr.entered ++ put3 (sumOf r.chests (fun c => c.net)) ++
    put3 (sumOf r.chests (fun c => c.gross)) ++ put3 (sumOf r.chests (fun c => c.tare)) ++
    putInt (sheetDifference r.hdr) ++ put1 (countOf r.chests (fun c => c.stencil == .hand)) ++
    put1 (countOf r.chests (fun c => c.net.isNone)) ++ put1 (countOf r.chests (fun c => c.stencil == .unknown)) ++
    put1 (shortOrdinal r) ++ putFlag (reconcile r.hdr) ++ putFlag gapOver ++
    putList put2 (gaps.filter (fun n => decide (n < r.hdr.inv)))

/-- The body of an OK answer to READ SHEET PART (R166, R189). -/
def sheetBody (season : Text) (r : Rec) (gaps : List Nat) (gapOver : Bool) (k : Nat) : List Byte :=
  put1 k ++
    (if k = 0 then sheetPart0 season r gaps gapOver
     else if k + 1 = sheetParts r.hdr.entered then putList putVoid r.voids
     else putList putChest (r.chests.filter (fun c => decide (8 * (k - 1) < c.ordinal) && decide (c.ordinal ≤ 8 * k))))

/-- OPEN SHEET: the invoice, its version, the number of parts (R165). -/
def openBody (e : Entry) : List Byte := put2 e.num ++ put2 e.data.hdr.version ++ put1 (sheetParts e.data.hdr.entered)

end Sys2Proof.Machine
end

