-- ==== Sys2Proof/Machine/Port.lean ====
section
/-! DEFINITION. The station port (10_station_port_and_start.md, sections 10.1 and 10.2): the tests of a request, the
answer place, the reading requests, the configuration memory and the requests of the role blocks. -/

namespace Sys2Proof.Machine

/-- The answer place filled (R173). -/
def State.answer (s : State) (kind : Byte) (code : PortAnswer) (body : List Byte) : State :=
  { s with port := { s.port with answer := some { kind := kind, code := code, body := body } } }

/-- The groups of requests (R174). -/
inductive Group where
  | all | blendPaper | blend | head | mark | paper
  deriving DecidableEq, Repr

/-- The station holds a role that the group requires (R174, order 5). -/
def Group.allows (r : Roles) : Group → Bool
  | .all => true
  | .blendPaper => r.blend || r.paper
  | .blend => r.blend
  | .head => r.head
  | .mark => r.mark
  | .paper => r.paper

/-- Orders 1 and 2, and BUSY while another request is handled (R173, R174, log 32): the answer where a test fails. -/
def State.portBusy (s : State) (checkGood : Bool) : Option PortAnswer :=
  if !checkGood then some .check
  else if s.port.handling.isSome || s.start.state == .loading then some .busy
  else none

/-- Orders 4 to 6 (R174). -/
def State.portRefuses (s : State) (g : Group) (lengthGood : Bool) : Option PortAnswer :=
  if !lengthGood then some .range
  else if !g.allows s.cfg.roles then some .role
  else if g != .all && s.start.state == .offlineConfig then some .state
  else none

/-- The request's check is right. -/
def Req.checked {α : Type} : Req α → Bool
  | .badCheck => false
  | _ => true

/-- The request's length is allowed. -/
def Req.lengthy {α : Type} : Req α → Bool
  | .badLength => false
  | _ => true

/-- What the tests of R174 leave of a request: the answer of the first that fails, or its operands, none where a code
of its body is not in its list. -/
def State.portTest {α : Type} (s : State) (g : Group) (r : Req α) : PortAnswer ⊕ Option α :=
  match s.portBusy (Req.checked r) with
  | some a => .inl a
  | none =>
      match s.portRefuses g (Req.lengthy r) with
      | some a => .inl a
      | none =>
          match r with
          | .good a => .inr (some a)
          | _ => .inr none

/-- A request that passes goes to the block that takes it; a code out of its list is RANGE (R187). `body` is that of
a RANGE answer by the tests (R189). -/
def State.portTake {α : Type} (s : State) (kind : Byte) (g : Group) (r : Req α) (rangeBody : List Byte)
    (take : α → State → State × Jobs) : State × Jobs :=
  if s.start.resetLow then (s, [])
  else
    match s.portTest g r with
    | .inl a => (s.answer kind a (if a == .range then rangeBody else []), [])
    | .inr none => (s.answer kind .range rangeBody, [])
    | .inr (some a) => take a s

/-! ## Requests without a block -/

/-- PORT_REQUEST_ABORTED: the bytes are discarded and the answer is CHECK (R173). A request of no bytes carries no
kind; the kind answered is then a free value (log 32). -/
def State.portAborted (s : State) (bytes : List Byte) : State :=
  if s.start.resetLow then s
  else
    match bytes with
    | k :: _ => s.answer k .check []
    | [] => { s.answer (Config.abortedKind s.draws) .check [] with draws := s.draws + 1 }

/-- UNKNOWN_REQUEST (R174). -/
def State.portUnknown (s : State) (kind : Byte) (checkGood : Bool) : State :=
  if s.start.resetLow then s
  else s.answer kind ((s.portBusy checkGood).getD .unknown) []

/-! ## Requests of all stations (R175 to R177, R183) -/

/-- READ STATUS (R175). -/
def State.readStatus (s : State) : State × Jobs := (s.answer 0x01#8 .ok s.statusBody, [])

/-- READ REPORT (R177). -/
def State.readReport (s : State) : State × Jobs :=
  match s.port.reports with
  | [] => (s.answer 0x02#8 .state [], [])
  | r :: l => (({ s with port := { s.port with reports := l } }).answer 0x02#8 .ok (putReport r), [])

/-- READ INVOICE (R175). -/
def State.readInvoice (s : State) (b : InvoiceRead) : State × Jobs :=
  match s.inv.find b.inv with
  | none => (s.answer 0x03#8 .unknown [], [])
  | some e =>
      if b.first = 0 ∨ b.first > 120 ∨ b.count > 8 then (s.answer 0x03#8 .range [], [])
      else (s.answer 0x03#8 .ok (e.readBody b.first b.count), [])

/-- READ STATION TABLE (R175). -/
def State.readTable (s : State) : State × Jobs := (s.answer 0x04#8 .ok s.tableBody, [])

/-- READ TALLIES: the four values, set to 0 in the same action (R4). -/
def State.readTallies (s : State) : State × Jobs :=
  (({ s with line := { s.line with tallyShort := 0, tallyLong := 0, tallyCheck := 0, tallyForm := 0 } }).answer
    0x05#8 .ok s.line.tallyBody, [])

/-- RESTART WARM: the answer first, then the start (R176). -/
def State.restartWarm (s : State) : State × Jobs := ((s.answer 0x06#8 .ok []).warmStart .warmRequest, [])

/-- A transfer begins: no answer is ready until it ends (R173, R183). -/
def State.beginTransfer (s : State) (t : Transfer) : State :=
  { s with port := { s.port with answer := none, handling := some t } }

/-- READ CONFIG MEMORY (R183, R189). -/
def State.readMemory (s : State) (b : MemoryRead) : State × Jobs :=
  if b.count = 0 ∨ b.count > 32 ∨ b.offset + b.count > Config.memoryBytes then (s.answer 0x07#8 .range [], [])
  else (s.beginTransfer (.read b.offset b.count), [])

/-- WRITE CONFIG MEMORY (R183). -/
def State.writeMemory (s : State) (b : MemoryWrite) : State × Jobs :=
  if b.offset + b.data.length > Config.memoryBytes then (s.answer 0x08#8 .range [], [])
  else (s.beginTransfer (.write b.offset b.data), [])

/-- CONFIG_READ_TRANSFER_END (R173, R183). -/
def State.readEnds (s : State) : State :=
  match s.port.handling with
  | some (.read o n) =>
      ({ s with port := { s.port with handling := none } }).answer 0x07#8 .ok (Memory.readMany s.cfgMem o n)
  | _ => s

/-- CONFIG_WRITE_TRANSFER_END (R183). -/
def State.writeEnds (s : State) : State :=
  match s.port.handling with
  | some (.write o data) =>
      ({ s with cfgMem := Memory.writeMany s.cfgMem o data, start := { s.start with memChanged := true },
                port := { s.port with handling := none } }).answer 0x08#8 .ok []
  | _ => s

/-! ## Requests of the role blocks -/

/-- A request of the invoice unit. -/
def State.portInv (s : State) (kind : Byte) (r : PortAnswer × Eff Inv) : State × Jobs := (s.answer kind r.1 []).runInv r.2
/-- A request of the blend sequencer. -/
def State.portBlend (s : State) (kind : Byte) (r : PortAnswer × Eff Blend) : State × Jobs :=
  (s.answer kind r.1 []).runBlend r.2
/-- A request of the head controller. -/
def State.portHead (s : State) (kind : Byte) (r : PortAnswer × Eff Head) : State × Jobs :=
  (s.answer kind r.1 []).runHead r.2
/-- A request of the marker; compositions and strokes it lets begin follow (R148, R149). -/
def State.portMark (s : State) (kind : Byte) (r : PortAnswer × Eff Marker) : State × Jobs :=
  (s.answer kind r.1 []).runMark (r.2.andThen (fun m => m.advance s))
/-- A request of the paper unit. -/
def State.portPaper (s : State) (kind : Byte) (r : PortAnswer × Eff Paper) : State × Jobs :=
  (s.answer kind r.1 []).runPaper r.2

/-- PLACE ORDER (R65); a RANGE answer carries the refusal cause (R189). -/
def State.placeOrder (s : State) (o : OrderBody) : State × Jobs :=
  match s.blend.placeOrder s o with
  | (a, cause, e) => (s.answer 0x10#8 a (if a == .range then put1 cause else [])).runBlend e

/-- ZERO (R60): the reading is handed to the head controller. -/
def State.zero (s : State) : State × Jobs :=
  match s.zeroAnswer with
  | (a, none) => (s.answer 0x24#8 a [], [])
  | (a, some f) => (s.answer 0x24#8 a []).handReading f true 0

/-- READ PLATE (R156): 1 for A, 2 for B; the lines of a plate being composed are a free value (log 37). -/
def State.readPlate (s : State) (n : Nat) : State × Jobs :=
  let shown := fun (p : PlateName) =>
    let composing := (s.mark.plate p).cond == .composing
    let lines := if composing then (Config.composingLines s.draws).take 4 |>.map (fun t => t.take 20)
      else (s.mark.plate p).lines
    ({ (s.answer 0x33#8 .ok (s.mark.plateBody p lines)) with draws := if composing then s.draws + 1 else s.draws },
      ([] : Jobs))
  if n = 1 then shown .a else if n = 2 then shown .b else (s.answer 0x33#8 .range [], [])

/-- OPEN SHEET (R165). -/
def State.openSheet (s : State) (o : Option Nat) : State × Jobs :=
  match s.paper.openSheet s.inv o with
  | (a, e, p) => ({ s.answer 0x40#8 a (e.elim [] openBody) with paper := p }, [])

/-- READ SHEET PART (R166). -/
def State.readSheetPart (s : State) (k : Nat) : State × Jobs :=
  match s.paper.readPart s.inv k with
  | (a, e, p) =>
      ({ s.answer 0x41#8 a (e.elim [] (fun e => sheetBody s.cfg.season e.data s.paper.gaps s.paper.gapOver k)) with
        paper := p }, [])

end Sys2Proof.Machine
end

