-- ==== Sys2Proof/Machine/CmdPort.lean ====
section
/-! DEFINITION. The commands of the station port (R173 to R189). -/

namespace Sys2Proof.Machine

/-- A request through the port (R174). -/
def State.request {α : Type} (s : State) (kind : Byte) (g : Group) (r : Req α) (take : α → State → State × Jobs) : State :=
  State.settle (s.portTake kind g r [] take)

/-- PORT_REQUEST_ABORTED (R173). -/
def execPortRequestAborted (bytes : List Byte) (s : State) : Res := .next (s.portAborted bytes)

/-- UNKNOWN_REQUEST (R174). -/
def execUnknownRequest (kind : Byte) (checkGood : Bool) (s : State) : Res := .next (s.portUnknown kind checkGood)

/-- READ STATUS (R175). -/
def execReadStatus (r : Req Unit) (s : State) : Res :=
  .next (s.request 0x01#8 .all r (fun _ s => s.readStatus))

/-- READ REPORT (R177). -/
def execReadReport (r : Req Unit) (s : State) : Res :=
  .next (s.request 0x02#8 .all r (fun _ s => s.readReport))

/-- READ INVOICE (R175). -/
def execReadInvoice (r : Req InvoiceRead) (s : State) : Res :=
  .next (s.request 0x03#8 .all r (fun b s => s.readInvoice b))

/-- READ STATION TABLE (R175). -/
def execReadStationTable (r : Req Unit) (s : State) : Res :=
  .next (s.request 0x04#8 .all r (fun _ s => s.readTable))

/-- READ TALLIES (R4). -/
def execReadTallies (r : Req Unit) (s : State) : Res :=
  .next (s.request 0x05#8 .all r (fun _ s => s.readTallies))

/-- RESTART WARM (R176). -/
def execRestartWarm (r : Req Unit) (s : State) : Res :=
  .next (s.request 0x06#8 .all r (fun _ s => s.restartWarm))

/-- READ CONFIG MEMORY (R183). -/
def execReadConfigMemory (r : Req MemoryRead) (s : State) : Res :=
  .next (s.request 0x07#8 .all r (fun b s => s.readMemory b))

/-- CONFIG_READ_TRANSFER_END (R173). -/
def execConfigReadTransferEnd (s : State) : Res := .next s.readEnds

/-- WRITE CONFIG MEMORY (R183). -/
def execWriteConfigMemory (r : Req MemoryWrite) (s : State) : Res :=
  .next (s.request 0x08#8 .all r (fun b s => s.writeMemory b))

/-- CONFIG_WRITE_TRANSFER_END (R183). -/
def execConfigWriteTransferEnd (s : State) : Res := .next s.writeEnds

/-- FORCE ADOPT (R46). -/
def execForceAdopt (r : Req Nat) (s : State) : Res :=
  .next (s.request 0x09#8 .blendPaper r (fun n s => s.portInv 0x09#8 (s.inv.forceAdopt s n)))

/-- PLACE ORDER (R65, R66). -/
def execPlaceOrder (r : Req OrderBody) (s : State) : Res :=
  .next (State.settle (s.portTake 0x10#8 .blend r [0#8] (fun b s => s.placeOrder b)))

/-- CANCEL (R81). -/
def execCancel (r : Req Unit) (s : State) : Res :=
  .next (s.request 0x11#8 .blend r (fun _ s => s.portBlend 0x11#8 s.blend.cancel))

/-- CONTINUE (R72, R75, R87). -/
def execContinue (r : Req Unit) (s : State) : Res :=
  .next (s.request 0x12#8 .blend r (fun _ s => s.portBlend 0x12#8 s.blend.resume))

/-- REDRAW (R72, R87). -/
def execRedraw (r : Req Nat) (s : State) : Res :=
  .next (s.request 0x13#8 .blend r (fun n s => s.portBlend 0x13#8 (s.blend.redraw n)))

/-- END BATCH (R79). -/
def execEndBatch (r : Req Unit) (s : State) : Res :=
  .next (s.request 0x14#8 .blend r (fun _ s => s.portBlend 0x14#8 s.blend.endBatch))

/-- CONFIRM EMPTY (R82). -/
def execConfirmEmpty (r : Req Unit) (s : State) : Res :=
  .next (s.request 0x15#8 .blend r (fun _ s => s.portBlend 0x15#8 (s.blend.confirmEmpty s.cfg)))

/-- CARRY-OVER SET (R84). -/
def execCarryOverSet (r : Req CarrySet) (s : State) : Res :=
  .next (s.request 0x16#8 .blend r (fun b s => s.portBlend 0x16#8 (s.blend.carrySet b)))

/-- START (R104). -/
def execStart (r : Req Unit) (s : State) : Res :=
  .next (s.request 0x20#8 .head r (fun _ s => s.portHead 0x20#8 (s.head.start s)))

/-- STOP (R104). -/
def execStop (r : Req Unit) (s : State) : Res :=
  .next (s.request 0x21#8 .head r (fun _ s => s.portHead 0x21#8 s.head.stop))

/-- CLEAR with 1, RETRY (R121). -/
def execClearRetry (r : Req Unit) (s : State) : Res :=
  .next (s.request 0x22#8 .head r (fun _ s => s.portHead 0x22#8 (s.head.clearRetry s)))

/-- CLEAR with 2, VOID (R121). -/
def execClearVoid (r : Req Unit) (s : State) : Res :=
  .next (s.request 0x22#8 .head r (fun _ s => s.portHead 0x22#8 (s.head.clearVoid s)))

/-- RESET HEAD (R121). -/
def execResetHead (r : Req Unit) (s : State) : Res :=
  .next (s.request 0x23#8 .head r (fun _ s => s.portHead 0x23#8 (s.head.reset s)))

/-- ZERO (R60). -/
def execZero (r : Req Unit) (s : State) : Res :=
  .next (s.request 0x24#8 .head r (fun _ s => s.zero))

/-- CLEAR LANE (R145). -/
def execClearLane (r : Req Nat) (s : State) : Res :=
  .next (s.request 0x30#8 .mark r (fun k s => s.portMark 0x30#8 (s.mark.clearLane s k)))

/-- REPRINT (R151). -/
def execReprint (r : Req Nat) (s : State) : Res :=
  .next (s.request 0x31#8 .mark r (fun k s => s.portMark 0x31#8 (s.mark.reprint s k)))

/-- HAND, lane form (R152). -/
def execHandLane (r : Req Nat) (s : State) : Res :=
  .next (s.request 0x32#8 .mark r (fun k s => s.portMark 0x32#8 (s.mark.handLane s k)))

/-- HAND, chest form (R152). -/
def execHandChest (r : Req ChestName) (s : State) : Res :=
  .next (s.request 0x32#8 .mark r (fun b s => s.portMark 0x32#8 (s.mark.handChest s b.inv b.ordinal)))

/-- READ PLATE (R156). -/
def execReadPlate (r : Req Nat) (s : State) : Res :=
  .next (s.request 0x33#8 .mark r (fun n s => s.readPlate n))

/-- OPEN SHEET (R165). -/
def execOpenSheet (r : Req (Option Nat)) (s : State) : Res :=
  .next (s.request 0x40#8 .paper r (fun o s => s.openSheet o))

/-- READ SHEET PART (R166). -/
def execReadSheetPart (r : Req Nat) (s : State) : Res :=
  .next (s.request 0x41#8 .paper r (fun k s => s.readSheetPart k))

/-- SHEET DONE (R169). -/
def execSheetDone (r : Req Unit) (s : State) : Res :=
  .next (s.request 0x42#8 .paper r (fun _ s => s.portPaper 0x42#8 (s.paper.sheetDone s.inv)))

end Sys2Proof.Machine
end

