-- ==== Sys2Proof/Machine/Dispatch.lean ====
section
/-! DEFINITION. One arm for each command of spec/opcode_table.json. -/

namespace Sys2Proof.Machine

def exec (i : Instr) (s : State) : Host.Outcome State Fault Refusal :=
  match i with
  | .powerOn => Sys2Proof.Machine.execPowerOn s
  | .resetPinLow => Sys2Proof.Machine.execResetPinLow s
  | .resetPinRelease heldMs => Sys2Proof.Machine.execResetPinRelease heldMs s
  | .configLoadEnd answers => Sys2Proof.Machine.execConfigLoadEnd answers s
  | .joinRetryDelayExpiry => Sys2Proof.Machine.execJoinRetryDelayExpiry s
  | .joinPeriodEnd => Sys2Proof.Machine.execJoinPeriodEnd s
  | .interframeGap => Sys2Proof.Machine.execInterframeGap s
  | .backoffSlot => Sys2Proof.Machine.execBackoffSlot s
  | .collision => Sys2Proof.Machine.execCollision s
  | .frameComplete => Sys2Proof.Machine.execFrameComplete s
  | .invalidFrame bytes => Sys2Proof.Machine.execInvalidFrame bytes s
  | .join e b => Sys2Proof.Machine.execJoin e b s
  | .presence e b => Sys2Proof.Machine.execPresence e b s
  | .claim e b => Sys2Proof.Machine.execClaim e b s
  | .consent e b => Sys2Proof.Machine.execConsent e b s
  | .object e b => Sys2Proof.Machine.execObject e b s
  | .withdraw e b => Sys2Proof.Machine.execWithdraw e b s
  | .header e b => Sys2Proof.Machine.execHeader e b s
  | .recordBlock e b => Sys2Proof.Machine.execRecordBlock e b s
  | .recordAsk e b => Sys2Proof.Machine.execRecordAsk e b s
  | .chestDone e b => Sys2Proof.Machine.execChestDone e b s
  | .chestEntered e b => Sys2Proof.Machine.execChestEntered e b s
  | .chestRefused e b => Sys2Proof.Machine.execChestRefused e b s
  | .fillVoid e b => Sys2Proof.Machine.execFillVoid e b s
  | .markDone e b => Sys2Proof.Machine.execMarkDone e b s
  | .markEntered e b => Sys2Proof.Machine.execMarkEntered e b s
  | .adopt e b => Sys2Proof.Machine.execAdopt e b s
  | .sheetTaken e b => Sys2Proof.Machine.execSheetTaken e b s
  | .leaseAsk e b => Sys2Proof.Machine.execLeaseAsk e b s
  | .leaseGrant e b => Sys2Proof.Machine.execLeaseGrant e b s
  | .leaseDone e b => Sys2Proof.Machine.execLeaseDone e b s
  | .leaseEnd e b => Sys2Proof.Machine.execLeaseEnd e b s
  | .leaseCancel e b => Sys2Proof.Machine.execLeaseCancel e b s
  | .hold e b => Sys2Proof.Machine.execHold e b s
  | .go e b => Sys2Proof.Machine.execGo e b s
  | .noted e b => Sys2Proof.Machine.execNoted e b s
  | .confirmTimerExpiry k => Sys2Proof.Machine.execConfirmTimerExpiry k s
  | .presenceTimerExpiry => Sys2Proof.Machine.execPresenceTimerExpiry s
  | .silenceTimerExpiry station => Sys2Proof.Machine.execSilenceTimerExpiry station s
  | .joinWatchExpiry station => Sys2Proof.Machine.execJoinWatchExpiry station s
  | .claimWindowExpiry => Sys2Proof.Machine.execClaimWindowExpiry s
  | .claimRetryDelayExpiry => Sys2Proof.Machine.execClaimRetryDelayExpiry s
  | .claimStaleTimerExpiry inv => Sys2Proof.Machine.execClaimStaleTimerExpiry inv s
  | .versionedResendDelayExpiry inv => Sys2Proof.Machine.execVersionedResendDelayExpiry inv s
  | .askTimerExpiry inv => Sys2Proof.Machine.execAskTimerExpiry inv s
  | .rebuildTimerExpiry inv => Sys2Proof.Machine.execRebuildTimerExpiry inv s
  | .closedTimerExpiry inv => Sys2Proof.Machine.execClosedTimerExpiry inv s
  | .adoptionDelayExpiry inv => Sys2Proof.Machine.execAdoptionDelayExpiry inv s
  | .settleTimerExpiry inv => Sys2Proof.Machine.execSettleTimerExpiry inv s
  | .sample word bits flightMs => Sys2Proof.Machine.execSample word bits flightMs s
  | .lossTimerExpiry => Sys2Proof.Machine.execLossTimerExpiry s
  | .starveTimerExpiry => Sys2Proof.Machine.execStarveTimerExpiry s
  | .stallTimerExpiry => Sys2Proof.Machine.execStallTimerExpiry s
  | .drumTurnPulse => Sys2Proof.Machine.execDrumTurnPulse s
  | .chestPresenceChange present => Sys2Proof.Machine.execChestPresenceChange present s
  | .holdLapseTimerExpiry => Sys2Proof.Machine.execHoldLapseTimerExpiry s
  | .headSettleTimerExpiry => Sys2Proof.Machine.execHeadSettleTimerExpiry s
  | .laneHoldTimerExpiry lane => Sys2Proof.Machine.execLaneHoldTimerExpiry lane s
  | .laneEyeArrival lane => Sys2Proof.Machine.execLaneEyeArrival lane s
  | .compositionComplete => Sys2Proof.Machine.execCompositionComplete s
  | .strokeEnd => Sys2Proof.Machine.execStrokeEnd s
  | .strokeTimerExpiry => Sys2Proof.Machine.execStrokeTimerExpiry s
  | .portRequestAborted bytes => Sys2Proof.Machine.execPortRequestAborted bytes s
  | .unknownRequest kind checkGood => Sys2Proof.Machine.execUnknownRequest kind checkGood s
  | .readStatus r => Sys2Proof.Machine.execReadStatus r s
  | .readReport r => Sys2Proof.Machine.execReadReport r s
  | .readInvoice r => Sys2Proof.Machine.execReadInvoice r s
  | .readStationTable r => Sys2Proof.Machine.execReadStationTable r s
  | .readTallies r => Sys2Proof.Machine.execReadTallies r s
  | .restartWarm r => Sys2Proof.Machine.execRestartWarm r s
  | .readConfigMemory r => Sys2Proof.Machine.execReadConfigMemory r s
  | .configReadTransferEnd => Sys2Proof.Machine.execConfigReadTransferEnd s
  | .writeConfigMemory r => Sys2Proof.Machine.execWriteConfigMemory r s
  | .configWriteTransferEnd => Sys2Proof.Machine.execConfigWriteTransferEnd s
  | .forceAdopt r => Sys2Proof.Machine.execForceAdopt r s
  | .placeOrder r => Sys2Proof.Machine.execPlaceOrder r s
  | .cancel r => Sys2Proof.Machine.execCancel r s
  | .resume r => Sys2Proof.Machine.execContinue r s
  | .redraw r => Sys2Proof.Machine.execRedraw r s
  | .endBatch r => Sys2Proof.Machine.execEndBatch r s
  | .confirmEmpty r => Sys2Proof.Machine.execConfirmEmpty r s
  | .carryOverSet r => Sys2Proof.Machine.execCarryOverSet r s
  | .start r => Sys2Proof.Machine.execStart r s
  | .stop r => Sys2Proof.Machine.execStop r s
  | .clearRetry r => Sys2Proof.Machine.execClearRetry r s
  | .clearVoid r => Sys2Proof.Machine.execClearVoid r s
  | .resetHead r => Sys2Proof.Machine.execResetHead r s
  | .zero r => Sys2Proof.Machine.execZero r s
  | .clearLane r => Sys2Proof.Machine.execClearLane r s
  | .reprint r => Sys2Proof.Machine.execReprint r s
  | .handLane r => Sys2Proof.Machine.execHandLane r s
  | .handChest r => Sys2Proof.Machine.execHandChest r s
  | .readPlate r => Sys2Proof.Machine.execReadPlate r s
  | .openSheet r => Sys2Proof.Machine.execOpenSheet r s
  | .readSheetPart r => Sys2Proof.Machine.execReadSheetPart r s
  | .sheetDone r => Sys2Proof.Machine.execSheetDone r s
  | .noise => Sys2Proof.Machine.execNoise s

end Sys2Proof.Machine
end

