-- ==== Sys2Proof/Safety.lean ====
section
/-! DEFINITION. What the statements speak of: when a command can be taken with nothing else to do, what hearing a
frame and queueing one leave, what a good state is (its bounds, its memory, its chute). -/

namespace Sys2Proof.Machine

/-! ## Grounds of a command -/

/-- The station works, may transmit, and owes no LEASE-DONE (log 10). -/
abbrev Ready (s : State) : Prop := s.canSend = true ∧ s.head.owedDone = []

/-- The frame of this envelope and message is accepted (R5), its station stands PRESENT, and it confirms no exchange of
this station (R15): hearing it restarts the silence timer and hands it to its blocks, and nothing else. -/
abbrev Hears (s : State) (e : Env) (m : Msg) : Prop :=
  Ready s ∧ e.src ≠ s.self ∧ (e.dst = 0 ∨ e.dst = s.self) ∧ (s.line.peer e.src).state = .present ∧
    s.line.exchanges.all (fun x => !confirms s.self e.src e.dst m x) = true

/-- As `Hears`, but the frame confirms one exchange `x` of this station, whose own frame is no longer queued (R15). -/
abbrev HearsEnd (s : State) (e : Env) (m : Msg) (x : Exchange) : Prop :=
  Ready s ∧ e.src ≠ s.self ∧ (e.dst = 0 ∨ e.dst = s.self) ∧ (s.line.peer e.src).state = .present ∧
    s.line.exchanges.filter (confirms s.self e.src e.dst m) = [x] ∧
    s.line.txq.all (fun f => f.tag != .exch x.id) = true

/-- The frame `f` stands in front of the queue, its transmission to all stations in progress, and it confirms no exchange
of this station. -/
abbrev Completes (s : State) (f : TxFrame) (q : List TxFrame) : Prop :=
  Ready s ∧ s.line.sending = true ∧ s.line.txq = f :: q ∧ f.dst = 0 ∧
    s.line.exchanges.all (fun x => !confirms s.self s.self 0 f.msg x) = true

/-- A reply frame finds a place (R11). -/
abbrev ReplyRoom (s : State) : Prop := s.line.txq.length < Config.replyPlaces

/-- A job frame finds a place (R11). -/
abbrev JobRoom (s : State) : Prop := s.line.txq.length < Config.txPlaces

/-- An exchange finds a place and its frame a place in the queue, and none of its kind and identity runs (R13). -/
abbrev ExRoom (s : State) (k : ExKey) : Prop :=
  JobRoom s ∧ s.line.exchanges.length < Config.exchangePlaces ∧ s.line.exchanges.all (fun x => x.key != k) = true

/-- No replica that records station `n` as its owner is an orphan or a STALE copy with its ask timer stopped, so that the move of
that station's entry to PRESENT has none of them act (R36, R42). -/
abbrev OwnCopiesRest (n : Nat) (i : Inv) : Prop :=
  (i.heldFor n).all (fun e => !e.orphan && (e.copy != .stale || e.askT.on)) = true

/-- The join period of a JOINING station ends, and `k` job frames find places in its queue (R11, R185). -/
abbrev JoinEnds (s : State) (k : Nat) : Prop :=
  Ready s ∧ s.start.state = .joining ∧ s.start.joinT.on = true ∧ s.line.txq.length + k ≤ Config.txPlaces

/-- The table holds no invoice of this station and no orphan, so that the end of the join period finds nothing to resume in it
and starts no adoption delay (R42, R47). -/
abbrev NothingOwned (i : Inv) : Prop := i.table.all (fun e => e.own.isNone && !e.orphan) = true

/-- The end of the join period has nothing to do at the invoice unit (R185): nothing owned, no claim under way, no WITHDRAW
owed. -/
abbrev NothingToResume (i : Inv) : Prop := NothingOwned i ∧ i.phase = .idle ∧ i.withdrawOwed = []

/-- The port takes a request of the group (R174): the pin is high, no request is handled, the station is past LOADING
and holds the group's role, and nothing is owed. -/
abbrev PortTakes (s : State) (g : Group) : Prop :=
  s.start.resetLow = false ∧ s.port.handling = none ∧ s.start.state ≠ .loading ∧ g.allows s.cfg.roles = true ∧
    (g = .all ∨ s.start.state ≠ .offlineConfig) ∧ s.head.owedDone = []

/-! ## What hearing, queueing and opening leave -/

/-- A frame of station `n` was heard: the line is IDLE short of its gap, and the silence timer of `n` runs anew
(R1, R20). -/
def State.heardFrom (s : State) (n : Nat) : State :=
  { s with line := s.line.frameEnd.setPeer n { s.line.peer n with silence := .running s.peerTimeout } }

/-- A frame of station `n` was heard, and it ended the exchange of number `id` (R15). -/
def State.heardEnding (s : State) (n id : Nat) : State :=
  { s.heardFrom n with
    line := { (s.heardFrom n).line with exchanges := s.line.exchanges.filter (fun y => y.id != id) } }

/-- A broadcast of this station has gone out and left `q` in the queue (R1, R10, R18). -/
def State.sent (s : State) (q : List TxFrame) : State :=
  { s with line := { s.line with cond := .busy, gap := false, sending := false, txq := q, attempts := 0, backoff := none,
                                 presence := .running 200 } }

/-- A frame stands at the tail of the transmit queue. -/
def State.queues (s : State) (f : TxFrame) : State := { s with line := { s.line with txq := s.line.txq ++ [f] } }

/-- A confirmed exchange stands in the table and its frame at the tail of the transmit queue (R13). -/
def State.opens (s : State) (k : ExKey) (m : Msg) (dst peer : Nat) (patient : Bool) : State :=
  { s with line := { s.line with
      nextEx := s.line.nextEx + 1,
      exchanges := s.line.exchanges ++ [{ id := s.line.nextEx, key := k, msg := m, dst := dst, peer := peer,
                                          resends := 0, timer := .stopped, patient := patient }],
      txq := s.line.txq ++ [jobFrame dst m (.exch s.line.nextEx)] } }

/-- The station is ACTIVE, PEER_PRESENT reports its own entry, its PRESENCE stands at the tail of the queue, and the block
orders of the event of that entry and of the end-of-join notice are used up (R20, R185, logs 6 and 42). -/
def State.joined (s : State) : State :=
  { (s.report (Report.of .peerPresent none none (some s.self) .absent)).queues
      (jobFrame 0 (.presence { roles := s.cfg.roles, state := .active, mark := s.inv.mark }) .presence) with
    start := { s.start with state := .active, joinT := .stopped }, blockChoice := s.blockChoice / 720 / 720 }

/-- The end of the join period opens the mark report of the lane entry again: it waits for that end, or for the return of an
owner which is this station (R154, R155, R185). -/
def State.joinReopens (s : State) (e : LaneEntry) : Bool :=
  e.state == .printed && (e.waits == .endOfJoin || (e.waits == .owner && s.markTo e.inv e.source == s.self))

/-- The same of a mark report with no entry. -/
def State.joinReopensLoose (s : State) (r : LooseReport) : Bool :=
  r.waits == .endOfJoin || (r.waits == .owner && s.markTo r.inv (r.source.getD 0) == s.self)

/-- The same of a taking (R170). -/
def State.joinReopensTaking (s : State) (k : Taking) : Bool :=
  k.waits == .endOfJoin || (k.waits == .owner && s.ownerIs k.inv s.self)

/-- The report of a PRINTED entry of lane `j` whose mark report found no confirmation: the mark answer noted is its cause,
otherwise NO_CONFIRM (R153). -/
def State.unconfirmedReport (s : State) (n o j : Nat) (e : LaneEntry) : Report :=
  Report.of .markUnconfirmed (some n) (some o) (s.cfg.laneHead j) (.code (match e.answer with
    | .none => .noConfirm
    | .notHeld => .notHeld
    | .full => .full))

/-! ## The requests of the port, for the tests that all share -/

/-- The same request with its operands put in. -/
def Req.fill {α : Type} (a : α) : Req Unit → Req α
  | .badCheck => .badCheck
  | .badLength => .badLength
  | .badValue => .badValue
  | .good _ => .good a

/-- A request kind: its byte, its group and its command. -/
structure PortRow where
  kind : Byte
  group : Group
  cmd : Req Unit → Instr

/-- Every request of the port but PLACE ORDER, whose RANGE answer has a body (R174, R189), with operands `a` to `g`. -/
def portRows (a : InvoiceRead) (b : MemoryRead) (c : MemoryWrite) (n : Nat) (d : CarrySet) (f : ChestName)
    (g : Option Nat) : List PortRow :=
  [⟨0x01#8, .all, .readStatus⟩, ⟨0x02#8, .all, .readReport⟩, ⟨0x03#8, .all, fun r => .readInvoice (Req.fill a r)⟩,
   ⟨0x04#8, .all, .readStationTable⟩, ⟨0x05#8, .all, .readTallies⟩, ⟨0x06#8, .all, .restartWarm⟩,
   ⟨0x07#8, .all, fun r => .readConfigMemory (Req.fill b r)⟩, ⟨0x08#8, .all, fun r => .writeConfigMemory (Req.fill c r)⟩,
   ⟨0x09#8, .blendPaper, fun r => .forceAdopt (Req.fill n r)⟩, ⟨0x11#8, .blend, .cancel⟩, ⟨0x12#8, .blend, .resume⟩,
   ⟨0x13#8, .blend, fun r => .redraw (Req.fill n r)⟩, ⟨0x14#8, .blend, .endBatch⟩, ⟨0x15#8, .blend, .confirmEmpty⟩,
   ⟨0x16#8, .blend, fun r => .carryOverSet (Req.fill d r)⟩, ⟨0x20#8, .head, .start⟩, ⟨0x21#8, .head, .stop⟩,
   ⟨0x22#8, .head, .clearRetry⟩] ++
  [⟨0x22#8, .head, .clearVoid⟩, ⟨0x23#8, .head, .resetHead⟩, ⟨0x24#8, .head, .zero⟩,
   ⟨0x30#8, .mark, fun r => .clearLane (Req.fill n r)⟩, ⟨0x31#8, .mark, fun r => .reprint (Req.fill n r)⟩,
   ⟨0x32#8, .mark, fun r => .handLane (Req.fill n r)⟩, ⟨0x32#8, .mark, fun r => .handChest (Req.fill f r)⟩,
   ⟨0x33#8, .mark, fun r => .readPlate (Req.fill n r)⟩, ⟨0x40#8, .paper, fun r => .openSheet (Req.fill g r)⟩,
   ⟨0x41#8, .paper, fun r => .readSheetPart (Req.fill n r)⟩, ⟨0x42#8, .paper, .sheetDone⟩]

/-! ## A warm start -/

/-- The owner's records of an invoice set back to the copy `r` (R50, R137): fill list and settle timer stay, an ENTERING
short is HELD again or, where the copy has it, gone; what was issued, held back or dumped beyond the copy is lost. -/
def OwnerRec.backTo (o : OwnerRec) (r : Rec) : OwnerRec :=
  { o with
    issued := r.hdr.version, view := r,
    short := o.short.bind (fun k =>
      if k.entering && (r.chestOf k.head k.token).isSome then none else some { k with entering := false }),
    entryVer := o.entryVer.filter (fun p => r.hasOrdinal p.1),
    markVer := o.markVer.filter (fun p => decide (p.2 ≤ r.hdr.version)),
    ahead := [], resend := [], resendDelay := .stopped, dump := none, retiring := false, cancelled := false,
    conflicts := [] }

/-- The invoice unit after a warm start (R50, R137): the station's own CLAIMED entries are gone, and WITHDRAW is owed for each
whose CLAIM had completed; of the others header, lists, orphan flag and timers stay, a REBUILDING copy is STALE, the adoption
delay stops and the owner's records go back to the copy. -/
def InvoicesKept (s t : State) : Prop :=
  t.inv = { s.inv with
    table := (s.inv.table.filter (fun e => !s.inv.ownClaims.contains e.num)).map (fun e => { e with
      copy := if e.copy = .rebuilding then .stale else e.copy, adoptT := .stopped,
      own := e.own.map (fun o => o.backTo e.data) }),
    req := none, phase := .idle, claimWindow := .stopped, claimRetry := .stopped,
    withdrawOwed := s.inv.withdrawOwed ++ s.inv.ownClaims.filter s.inv.claimCompleted }

/-- The marker after a warm start (R155): all of it stays but the stroke timer and the hold timers, which stop, and the mark
reports whose exchange was in flight, which wait for the end of the join period. -/
def LanesKept (s t : State) : Prop :=
  let kept := fun (l : Lane) => { l with
    holdT := .stopped,
    queue := l.queue.map (fun e => { e with
      waits := if e.state = .printed ∧ s.markInFlight e.inv e.ordinal = true then .endOfJoin else e.waits }) }
  t.mark = { s.mark with
    lane1 := kept s.mark.lane1, lane2 := kept s.mark.lane2, stroke := .stopped,
    loose := s.mark.loose.map (fun r => { r with
      waits := if s.markInFlight r.inv r.ordinal = true ∧ r.waits = .nothing then .endOfJoin else r.waits }) }

/-- The gap list with one more number, and its overflow flag (R164). -/
def gapsWith (g : List Nat × Bool) (n : Nat) : List Nat × Bool :=
  if Config.gapPlaces < (placeNumber n g.1).length then ((placeNumber n g.1).drop 1, true) else (placeNumber n g.1, g.2)

/-- The paper unit after a warm start (R164, R171): decision, queue, waiting entries and takings stay but for what named a
CLAIMED entry that the start frees; a taking whose exchange was in flight waits for the end of the join period; an OPEN
window closes with RESTART; and every number so freed joins the gap list (log 59). Without the role it is as it was. -/
def PaperKept (s t : State) : Prop :=
  (s.cfg.roles.paper = false → t.paper = s.paper) ∧
  (s.cfg.roles.paper = true →
    t.paper = { s.paper with
      queue := s.paper.queue.filter (fun k => !s.inv.ownClaims.contains k.inv),
      waiting := s.paper.waiting.filter (fun k => !s.inv.ownClaims.contains k.inv),
      taking := (s.paper.taking.filter (fun k => !s.inv.ownClaims.contains k.inv)).map (fun k => { k with
        waits := if s.takingInFlight k.inv = true then .endOfJoin else k.waits }),
      gaps := (s.inv.ownClaims.foldl gapsWith (s.paper.gaps, s.paper.gapOver)).1,
      gapOver := (s.inv.ownClaims.foldl gapsWith (s.paper.gaps, s.paper.gapOver)).2,
      window := match s.paper.window.shown with
        | none => s.paper.window
        | some (n, _) => { shown := none, cause := if s.inv.ownClaims.contains n then .retired else .restart } })

/-- What a warm start of kind `k` makes of `s` at once (R23, R50, R62, R87, R100, R123, R137, R155, R171, R179, R182): the
station loads; what each block keeps stands, its queues, exchanges, timers of the line and leases are gone. -/
def WarmStarted (s t : State) (k : StartKind) : Prop :=
  t.start = { s.start with
    state := .loading, resetLow := false, kind := k, isCold := false, warmCount := min (s.start.warmCount + 1) 255,
    converted := false, memChanged := false, joinT := .stopped, retryT := .stopped } ∧
  t.cfg = s.cfg ∧ t.cfgMem = s.cfgMem ∧ t.presence = s.presence ∧ t.pending = s.pending ∧
  t.line.txq = [] ∧ t.line.sending = false ∧ t.line.backoff = none ∧ t.line.exchanges = [] ∧
  t.line.presence = .stopped ∧ t.line.table = s.line.table ∧ t.line.tallyShort = s.line.tallyShort ∧
  t.line.tallyLong = s.line.tallyLong ∧ t.line.tallyCheck = s.line.tallyCheck ∧ t.line.tallyForm = s.line.tallyForm ∧
  InvoicesKept s t ∧
  t.fe = { FrontEnd.cold with zero := s.fe.zero } ∧
  t.blend = { s.blend with gate := none, starve := .stopped, stall := .stopped, last := none } ∧
  t.arb = { s.arb with openFlag := false, batch := none, current := none, next := none, queue := [], gate := false } ∧
  t.head = { s.head with last := none, lastWeight := none, owedDone := [] } ∧
  LanesKept s t ∧ PaperKept s t ∧ t.port.reports = []

/-- The load of a warm start that ends good, under the station's own number and roles, with nothing in the line unit, no
claim running and nothing owed. -/
abbrev LoadsWarm (s : State) (c : Cfg) : Prop :=
  s.start.resetLow = false ∧ s.start.state = .loading ∧ s.start.isCold = false ∧ loadMemory s.cfgMem true = .inr c ∧
    c.number = s.cfg.number ∧ c.roles = s.cfg.roles ∧ s.line.txq = [] ∧ s.head.owedDone = [] ∧ s.inv.phase = .idle

/-- What such a load leaves outside the blocks (R180 to R182, R184): the configuration is in force, the station is JOINING
with its JOIN of start kind WARM as the first frame, and the reports `l` of the blocks follow START and the rejected
grades; memory and season mark stay. -/
def WarmLoaded (s t : State) (c : Cfg) (l : List Report) : Prop :=
  t.cfg = c ∧ t.cfgMem = s.cfgMem ∧ t.inv.mark = s.inv.mark ∧ t.inv.table = s.inv.table ∧ t.inv.retired = s.inv.retired ∧
  t.start = { s.start with state := .joining, fault := none, rejected := c.rejected, converted := false } ∧
  t.line.txq = [jobFrame 0 (.join
    { roles := c.roles, start := .warm, blender := if c.roles.head then some c.blender else none,
      lane1 := if c.roles.mark then some c.lane1 else none, lane2 := if c.roles.mark then c.lane2 else none }) .join] ∧
  t.port = { s.port with reports := (loadReports s.start.kind c.rejected ++ l).foldl addReport s.port.reports }

/-- The start faults a lane entry: it was PRINTING, or QUEUED with its job in the arrival queue (R155). -/
def faultedByStart (jobs : List Job) (k : Nat) (e : LaneEntry) : Bool :=
  e.state == .printing || (e.state == .queued && jobs.any (fun j => j.is k e.inv e.ordinal))

/-- A lane with the entries of the chests that the start faults in FAULT with cause RESTART (R155). -/
def Lane.restarted (l : Lane) (jobs : List Job) (k : Nat) : Lane :=
  { l with queue := l.queue.map (fun e =>
      if l.queue.any (fun x => x.is e.inv e.ordinal && faultedByStart jobs k x) then
        { e with state := .fault, cause := some .restart }
      else e) }

/-- A plate that was COMPOSING or READY is EMPTY (R155). -/
def Plate.restarted (p : Plate) : Plate := if p.cond = .composing ∨ p.cond = .ready then Plate.cold else p

/-- CANCEL is answered OK: BATCH_ENDED with cause CANCELLED, and the blender is BLOCKED with its order readable (R81; that
stop pending and the current component stay is log 76). -/
def State.cancels (s : State) (o : Order) : State :=
  { (s.answer 0x11#8 .ok []).report (Report.of .batchEnded o.batch none none (.code .cancelled)) with
    blend := { s.blend with state := .blocked, held := none, gate := none, starve := .stopped, stall := .stopped } }

/-- What a cold start of kind `k` makes of `s` at once: every block at its cold-start values; memory, input pins and the
queue of commands stay (R179). -/
def ColdStarted (s t : State) (k : StartKind) (low : Bool) : Prop :=
  t = { State.reset with
    start := Start.cold k low, cfgMem := s.cfgMem, presence := s.presence, blockChoice := s.blockChoice, draws := s.draws,
    pending := s.pending }

/-! ## Good states -/

/-- The heads that hold a lease or wait in the queue. -/
def Arb.heads (a : Arb) : List Nat :=
  (a.current.map (fun l => l.head)).toList ++ (a.next.map (fun l => l.head)).toList ++ a.queue.map (fun k => k.head)

/-- The line unit's and the port's places: the transmit queue, the exchange table, the four tallies, and the report
queue, whose sixteenth place only OVERFLOW takes (R4, R11, R13, R177, R178). -/
def LineBounded (s : State) : Prop :=
  s.line.txq.length ≤ Config.txPlaces ∧ s.line.exchanges.length ≤ Config.exchangePlaces ∧
    s.line.tallyShort ≤ 255 ∧ s.line.tallyLong ≤ 255 ∧ s.line.tallyCheck ≤ 255 ∧ s.line.tallyForm ≤ 255 ∧
    s.port.reports.length ≤ Config.reportPlaces ∧
    (s.port.reports.any (fun r => r.kind == .overflow) = false → s.port.reports.length < Config.reportPlaces)

/-- The invoice table holds sixteen entries at most, no two of one number, none above the season mark, and none during
the load of a cold start; a fill list names a head once; the retired list holds four numbers at most (R24, R28, R49, R50,
R126). -/
def InvoicesBounded (s : State) : Prop :=
  s.inv.table.length ≤ Config.tableEntries ∧ (s.inv.table.map Entry.num).Nodup ∧
    (∀ e ∈ s.inv.table, e.num ≤ s.inv.mark) ∧
    (s.start.state = .loading → s.start.isCold = true → s.inv.table = []) ∧
    (∀ e ∈ s.inv.table, ∀ o : OwnerRec, e.own = some o → (o.fills.map (fun f => f.head)).Nodup) ∧
    s.inv.retired.length ≤ Config.retiredPlaces

/-- The chute's six places: every head that holds or waits is in the chute table and stands once; none does during a
load (R88, R89, R100). -/
def ChuteBounded (s : State) : Prop :=
  s.cfg.chute.length ≤ 6 ∧ (∀ n ∈ s.arb.heads, s.cfg.inChute n = true) ∧ s.arb.heads.Nodup ∧
    s.arb.queue.length ≤ 6 ∧ (s.start.state = .loading → s.arb.heads = [])

/-- The marker's and the paper unit's places: six chests in a lane queue and six in its done list, an arrival of each
lane at most, sixteen sheets, sixteen gaps (R139, R144, R161, R164). -/
def LanesBounded (s : State) : Prop :=
  s.mark.lane1.queue.length ≤ Config.lanePlaces ∧ s.mark.lane2.queue.length ≤ Config.lanePlaces ∧
    s.mark.lane1.done.length ≤ 6 ∧ s.mark.lane2.done.length ≤ 6 ∧
    (s.mark.arrivals.map (fun j => j.lane)).Nodup ∧ (∀ j ∈ s.mark.arrivals, j.lane = 1 ∨ j.lane = 2) ∧
    s.paper.queue.length + s.paper.waiting.length ≤ Config.tableEntries ∧ s.paper.gaps.length ≤ Config.gapPlaces

/-- The numbers that the manual bounds stay inside their bounds. -/
def Bounded (s : State) : Prop := LineBounded s ∧ InvoicesBounded s ∧ ChuteBounded s ∧ LanesBounded s

/-- The chute is in order: the gate is OPEN exactly while CURRENT holds a lease and the flag is OPEN (R93), a slot is
held only while the flag is OPEN, NEXT only beside CURRENT, and no head stands twice (R88). -/
def Arb.orderly (a : Arb) : Prop :=
  a.gate = (a.current.isSome && a.openFlag) ∧ (a.current.isSome = true → a.openFlag = true) ∧
    (a.next.isSome = true → a.current.isSome = true) ∧ a.heads.Nodup

end Sys2Proof.Machine
end

