-- ==== Sys2Proof/Certificates/Slice0/Obligations.lean ====
section
/-! DEFINITION. The statements for the provers, from the numbered rules of spec/. Each is a proposition; none is proved
here. Where a command's whole next state is written out, all that is not named in it is unchanged. -/

open Sys2Proof Sys2Proof.Machine

/-! ## Chute leases at the blender (R89 to R95) -/

/-- What R89 and R90 answer to a LEASE-ASK that can be granted nothing yet. -/
def Obligations.LeaseAskQueued : Prop :=
  ∀ (s : State) (e : Env) (b : LeaseAskBody), Hears s e (.leaseAsk b) → s.cfg.roles.blend = true → ReplyRoom s →
    (s.cfg.inChute e.src = false →
      exec (.leaseAsk e (some b)) s =
        .next ((s.heardFrom e.src).queues (replyFrame e.src (notedMsg .leaseAsk b.token .notHeld) .plain))) ∧
    (s.cfg.inChute e.src = true → b.purpose = .topup → s.blend.serves b.inv = false →
      exec (.leaseAsk e (some b)) s =
        .next ((s.heardFrom e.src).queues
          (jobFrame e.src (.leaseEnd { lease := 0, reason := .exhausted }) .plain))) ∧
    (s.cfg.inChute e.src = true → b.purpose = .fill → s.arb.openFlag = false → e.src ∉ s.arb.heads →
      exec (.leaseAsk e (some b)) s =
        .next { (s.heardFrom e.src).queues (replyFrame e.src (notedMsg .leaseAsk b.token .queued) .plain) with
          arb := { s.arb with queue := s.arb.queue ++ [{ head := e.src, purpose := .fill, token := b.token }] } })

/-- R92, R93, R126: an ask while discharge runs and the chute is free is granted CURRENT at once. -/
def Obligations.LeaseAskGranted : Prop :=
  ∀ (s : State) (e : Env) (b : LeaseAskBody) (n : Nat) (o : OwnerRec) (p : Nat),
    Hears s e (.leaseAsk b) → s.cfg.roles.blend = true → s.cfg.position e.src = some p →
    (b.purpose = .fill ∨ s.blend.serves b.inv = true) →
    s.arb.openFlag = true → s.arb.batch = some n → s.arb.current = none → s.arb.next = none → s.arb.queue = [] →
    ExRoom s (.leaseGrant (nextLease s.arb.counter)) →
    s.inv.phase ≠ .waitFree → s.inv.owned n = some o → o.view.hdr.state = .opened →
    o.fills.all (fun f => f.head != e.src) = true →
    exec (.leaseAsk e (some b)) s =
      .next { (s.heardFrom e.src).opens (.leaseGrant (nextLease s.arb.counter))
          (.leaseGrant { slot := .current, inv := n, lease := nextLease s.arb.counter }) e.src e.src false with
        arb := { s.arb with
          current := some { head := e.src, token := b.token, purpose := b.purpose, inv := n,
                            number := nextLease s.arb.counter },
          counter := nextLease s.arb.counter, gate := true, diverter := some p },
        inv := s.inv.updOwn n (fun x => { x with
          fills := o.fills ++ [{ head := e.src, token := b.token, leases := 1, lost := false }] }) }

/-- R89, R94: LEASE-DONE of the CURRENT lease closes the gate where nothing waits, and promotes NEXT under a new number
otherwise, the gate staying OPEN and the diverter moving; one that fits no lease is only noted. -/
def Obligations.LeaseDoneTaken : Prop :=
  (∀ (s : State) (e : Env) (n : Nat), Hears s e (.leaseDone n) → s.cfg.roles.blend = true → ReplyRoom s →
     (s.cfg.inChute e.src = false →
       exec (.leaseDone e (some n)) s =
         .next ((s.heardFrom e.src).queues (replyFrame e.src (notedMsg .leaseDone n .notHeld) .plain))) ∧
     (s.cfg.inChute e.src = true → e.src ∉ s.arb.heads →
       exec (.leaseDone e (some n)) s =
         .next ((s.heardFrom e.src).queues (replyFrame e.src (notedMsg .leaseDone n .ok) .plain))) ∧
     (∀ l : Lease, s.cfg.inChute e.src = true → s.arb.current = some l → l.head = e.src → l.number = n →
       s.arb.next = none → s.arb.queue = [] →
       exec (.leaseDone e (some n)) s =
         .next { (s.heardFrom e.src).queues (replyFrame e.src (notedMsg .leaseDone n .ok) .plain) with
           arb := { s.arb with current := none, gate := false } })) ∧
  (∀ (s : State) (e : Env) (n p : Nat) (l m : Lease) (o : OwnerRec),
     Hears s e (.leaseDone n) → s.cfg.roles.blend = true → s.line.txq.length + 1 < Config.replyPlaces →
     s.cfg.inChute e.src = true → s.arb.openFlag = true → s.arb.queue = [] →
     s.arb.current = some l → l.head = e.src → l.number = n → s.arb.next = some m → m.head ≠ e.src →
     s.cfg.position m.head = some p → ExRoom s (.leaseGrant (nextLease s.arb.counter)) →
     s.inv.phase ≠ .waitFree → s.inv.owned m.inv = some o → o.view.hdr.state = .opened →
     o.fills.all (fun f => f.head != m.head) = true →
     exec (.leaseDone e (some n)) s =
       .next { ((s.heardFrom e.src).opens (.leaseGrant (nextLease s.arb.counter))
           (.leaseGrant { slot := .current, inv := m.inv, lease := nextLease s.arb.counter }) m.head m.head false).queues
           (replyFrame e.src (notedMsg .leaseDone n .ok) .plain) with
         arb := { s.arb with current := some { m with number := nextLease s.arb.counter }, next := none,
                             counter := nextLease s.arb.counter, gate := true, diverter := some p },
         inv := s.inv.updOwn m.inv (fun x => { x with
           fills := o.fills ++ [{ head := m.head, token := m.token, leases := 1, lost := false }] }) })

/-- R89, R95: LEASE-CANCEL frees what the head holds for the token: a place in the queue, NEXT, or CURRENT. -/
def Obligations.LeaseCancelFrees : Prop :=
  ∀ (s : State) (e : Env) (t : Nat), Hears s e (.leaseCancel t) → s.cfg.roles.blend = true → ReplyRoom s →
    (s.cfg.inChute e.src = false →
      exec (.leaseCancel e (some t)) s =
        .next ((s.heardFrom e.src).queues (replyFrame e.src (notedMsg .leaseCancel t .notHeld) .plain))) ∧
    (s.cfg.inChute e.src = true → s.arb.holdsCurrent e.src = false → s.arb.holdsNext e.src = false →
      exec (.leaseCancel e (some t)) s =
        .next { (s.heardFrom e.src).queues (replyFrame e.src (notedMsg .leaseCancel t .ok) .plain) with
          arb := { s.arb with queue := s.arb.queue.filter (fun k => !(k.head == e.src && k.token == t)) } }) ∧
    (∀ l : Lease, s.cfg.inChute e.src = true → s.arb.holdsCurrent e.src = false → s.arb.next = some l →
      l.head = e.src → l.token = t → s.arb.queue = [] →
      exec (.leaseCancel e (some t)) s =
        .next { (s.heardFrom e.src).queues (replyFrame e.src (notedMsg .leaseCancel t .ok) .plain) with
          arb := { s.arb with next := none } }) ∧
    (∀ l : Lease, s.cfg.inChute e.src = true → s.arb.current = some l → l.head = e.src → l.token = t →
      s.arb.next = none → s.arb.queue = [] →
      exec (.leaseCancel e (some t)) s =
        .next { (s.heardFrom e.src).queues (replyFrame e.src (notedMsg .leaseCancel t .ok) .plain) with
          arb := { s.arb with current := none, gate := false } })

/-! ## Lease frames and answers at the head (R107, R109, R110, R117) -/

/-- R107: HOLD sets the flag and its lapse timer; GO clears them, and a head that HOLD kept waiting without a lease asks;
where HOLD was not in force GO opens nothing. That a head which waits for its ABSENT blender or its own JOIN asks at the end
of HOLD too is the model's choice (log 79), and that a HOLD or GO to all stations is taken is too (log 90). -/
def Obligations.HoldAndGo : Prop :=
  ∀ (s : State) (e : Env) (n : Nat), s.cfg.roles.head = true →
    (Hears s e (.hold n) →
      exec (.hold e (some n)) s =
        .next { s.heardFrom e.src with head := { s.head with hold := true, lapse := .running Config.holdLapse } }) ∧
    (Hears s e (.go n) → (s.head.hold = false ∨ s.head.state ≠ .waiting ∨ s.head.lease ≠ .none) →
      exec (.go e (some n)) s =
        .next { s.heardFrom e.src with head := { s.head with hold := false, lapse := .stopped } }) ∧
    (∀ c : ChestNow, Hears s e (.go n) → s.head.hold = true → s.head.state = .waiting → s.head.lease = .none →
      s.head.chest = some c → ExRoom s (.leaseAsk c.token) →
      exec (.go e (some n)) s =
        .next { (s.heardFrom e.src).opens (.leaseAsk c.token)
            (.leaseAsk { purpose := .fill, token := c.token, inv := 0 }) s.cfg.blender s.cfg.blender false with
          head := { s.head with hold := false, lapse := .stopped, lease := .asked, waitBlender := false,
                                waitJoin := false } })

/-- R109: what a LEASE-GRANT of the head's blender does: NOT_HELD without a chest; NEXT taken while asking; CURRENT
starts the feed of a chest whose tare fits the granted invoice's grade, and of a top-up. R103: at every CURRENT grant the
granted invoice's grade becomes the reference grade, where the station's copy gives it. -/
def Obligations.LeaseGrantStarts : Prop :=
  ∀ (s : State) (e : Env) (b : LeaseGrantBody), Hears s e (.leaseGrant b) → s.cfg.roles.head = true →
    e.src = s.cfg.blender → ReplyRoom s →
    (s.head.chest = none →
      exec (.leaseGrant e (some b)) s =
        .next ((s.heardFrom e.src).queues (replyFrame e.src (notedMsg .leaseGrant b.lease .notHeld) .plain))) ∧
    (∀ c : ChestNow, s.head.chest = some c → s.head.state = .waiting → s.head.lease = .asked → b.slot = .next →
      exec (.leaseGrant e (some b)) s =
        .next { (s.heardFrom e.src).queues (replyFrame e.src (notedMsg .leaseGrant b.lease .ok) .plain) with
          head := { s.head with lease := .next, chest := some { c with lease := some b.lease } } }) ∧
    (∀ (c : ChestNow) (g : Nat) (r : Reading), s.head.chest = some c → s.head.state = .waiting →
      (s.head.lease = .asked ∨ s.head.lease = .next) → b.slot = .current →
      g = (s.invoiceGrade b.inv).getD s.head.refGrade → inTareWindow (s.gradeRec g) c.tare = true →
      s.head.last = some r → r.weight.isSome = true →
      exec (.leaseGrant e (some b)) s =
        .next { (s.heardFrom e.src).queues (replyFrame e.src (notedMsg .leaseGrant b.lease .ok) .plain) with
          head := { s.head with state := .fast, lease := .current, refGrade := g,
                                chest := some { c with inv := some (c.inv.getD b.inv), lease := some b.lease,
                                                       purpose := .fill } } }) ∧
    (∀ (c : ChestNow) (r : Reading), s.head.chest = some c → s.head.state = .topupWait →
      (s.head.lease = .topupAsked ∨ s.head.lease = .next) → b.slot = .current → c.inv = some b.inv →
      s.head.last = some r → r.weight.isSome = true →
      exec (.leaseGrant e (some b)) s =
        .next { (s.heardFrom e.src).queues (replyFrame e.src (notedMsg .leaseGrant b.lease .ok) .plain) with
          head := { s.head with state := .fast, lease := .current,
                                refGrade := (s.invoiceGrade b.inv).getD s.head.refGrade,
                                chest := some { c with topups := c.topups + 1, lease := some b.lease,
                                                       purpose := .topup } } })

/-- R110, R116: LEASE-END of the held lease for an exhausted, stopped or restarted blender starves a head that feeds: it
settles with the starved flag set. One that names another lease changes nothing. -/
def Obligations.LeaseEndStarves : Prop :=
  ∀ (s : State) (e : Env) (b : LeaseEndBody) (c : ChestNow), Hears s e (.leaseEnd b) → s.cfg.roles.head = true →
    e.src = s.cfg.blender → s.head.chest = some c →
    (b.lease ≠ 0 → c.lease ≠ some b.lease → exec (.leaseEnd e (some b)) s = .next (s.heardFrom e.src)) ∧
    (c.lease = some b.lease → (s.head.state = .fast ∨ s.head.state = .dribble) →
      (b.reason = .exhausted ∨ b.reason = .stopped ∨ b.reason = .blenderRestart) →
      exec (.leaseEnd e (some b)) s =
        .next { s.heardFrom e.src with
          head := { s.head with state := .settling, lease := .none, flight := .running 0,
                                settle := .running Config.headSettle,
                                chest := some { c with starved := true, flight := none, lease := none } } })

/-- R15, R117, R120: CHEST-REFUSED for the chest of a REPORTED head holds it with cause REFUSED and the reason reported,
whether the CHEST-DONE exchange is over or is ended by this frame. -/
def Obligations.ChestRefusedHolds : Prop :=
  (∀ (s : State) (e : Env) (b : RefusedBody) (c : ChestNow) (x : Exchange), HearsEnd s e (.chestRefused b) x →
    s.cfg.roles.head = true → s.head.chest = some c → c.inv = some b.inv → c.token = b.token →
    x.key = .chestDone b.inv b.token → s.head.state = .reported → s.head.lease = .none → s.head.flight = .stopped →
    exec (.chestRefused e (some b)) s =
      .next { (s.heardEnding e.src x.id).report
          (Report.of .headFault (some b.inv) none none (.code (reasonCode b.reason))) with
        fe := { s.fe with tracking := false },
        head := { s.head with state := .held, cause := some .refused, flight := .stopped, settle := .stopped,
                              sendFrame := none, refusedVoid := false, waitOwner := false, waitBlender := false,
                              waitJoin := false, chest := some { c with lease := none } } }) ∧
  ∀ (s : State) (e : Env) (b : RefusedBody) (c : ChestNow), Hears s e (.chestRefused b) → s.cfg.roles.head = true →
    s.head.chest = some c →
    ((c.inv ≠ some b.inv ∨ c.token ≠ b.token) → exec (.chestRefused e (some b)) s = .next (s.heardFrom e.src)) ∧
    (c.inv = some b.inv → c.token = b.token → s.head.state = .reported → s.head.lease = .none →
      s.head.flight = .stopped →
      exec (.chestRefused e (some b)) s =
        .next { (s.heardFrom e.src).report
            (Report.of .headFault (some b.inv) none none (.code (reasonCode b.reason))) with
          fe := { s.fe with tracking := false },
          head := { s.head with state := .held, cause := some .refused, flight := .stopped, settle := .stopped,
                                sendFrame := none, refusedVoid := false, waitOwner := false, waitBlender := false,
                                waitJoin := false, chest := some { c with lease := none } } })

/-- R15, R26, R117: the CHEST-ENTERED of a REPORTED head's own chest is applied to the head's copy of the invoice, and the
head releases the chest, whether the CHEST-DONE exchange is over or is ended by this frame. The station's other role
blocks are absent. R26, R140, R142, R143: at a marker the CHEST-ENTERED of a lane's head puts the chest into the lane
queue, with HOLD from the fifth chest on; a full lane keeps it aside and reports LANE_OVERFLOW. The block order used up is
the model's (log 6). -/
def Obligations.ChestEnteredReleases : Prop :=
  (∀ (s : State) (e : Env) (b : ChestEnteredBody) (c : ChestNow) (x : Entry) (y : Exchange),
    HearsEnd s e (.chestEntered b) y → s.cfg.roles = { blend := false, head := true, mark := false, paper := false } →
    s.inv.phase ≠ .waitFree → s.inv.find b.inv = some x → x.own = none → x.copy = .complete →
    x.data.hdr.owner = e.src → b.version = x.data.hdr.version + 1 → b.ordinal = x.data.hdr.entered + 1 →
    y.key = .chestDone b.inv b.token → s.head.state = .reported → s.head.chest = some c → c.inv = some b.inv →
    c.token = b.token → b.head = s.self →
    exec (.chestEntered e (some b)) s =
      .next { (s.heardEnding e.src y.id).report
          (Report.of .chestEntered (some b.inv) (some b.ordinal) none .absent) with
        blockChoice := s.blockChoice / 720,
        inv := s.inv.upd b.inv (fun z =>
          { z with data := (x.data.addChest (enteredChest b)).atVersion b.version }),
        head := { s.head with state := .releasing, cause := none, sendFrame := none, waitOwner := false,
                              waitJoin := false } }) ∧
  (∀ (s : State) (e : Env) (b : ChestEnteredBody) (x : Entry) (k : Nat), Hears s e (.chestEntered b) →
    s.cfg.roles = { blend := false, head := false, mark := true, paper := false } → s.inv.phase ≠ .waitFree →
    s.inv.find b.inv = some x → x.own = none → x.copy = .complete → x.data.hdr.owner = e.src →
    b.version = x.data.hdr.version + 1 → b.ordinal = x.data.hdr.entered + 1 →
    x.data.chests.all (fun c => c.ordinal != b.ordinal) = true →
    s.cfg.lanes.filter (fun j => s.cfg.laneHead j == some b.head) = [k] →
    (s.mark.lane k).find b.inv b.ordinal = none → (s.mark.lane k).keeps b.inv b.ordinal = false →
    (s.mark.lane k).done.contains (b.inv, b.ordinal) = false → s.mark.arrivals = [] →
    (s.mark.plate s.mark.compose).cond = .empty →
    ((s.mark.lane k).overflow = none → (s.mark.lane k).queue.length < 4 →
      exec (.chestEntered e (some b)) s =
        .next { s.heardFrom e.src with
          blockChoice := s.blockChoice / 720,
          inv := s.inv.upd b.inv (fun z =>
            { z with data := (x.data.addChest (enteredChest b)).atVersion b.version }),
          mark := s.mark.setLane k (fun l => { l with queue := l.queue ++
            [{ inv := b.inv, ordinal := b.ordinal, state := .queued, source := e.src, cause := none, how := none,
               answer := .none, elsewhere := false, byMark := false, waits := .nothing }] }) }) ∧
    ((s.mark.lane k).overflow = none → 4 ≤ (s.mark.lane k).queue.length → (s.mark.lane k).queue.length < 6 →
      JobRoom s →
      exec (.chestEntered e (some b)) s =
        .next { (s.heardFrom e.src).queues (jobFrame b.head (.hold k) .plain) with
          blockChoice := s.blockChoice / 720,
          inv := s.inv.upd b.inv (fun z =>
            { z with data := (x.data.addChest (enteredChest b)).atVersion b.version }),
          mark := s.mark.setLane k (fun l => { l with holdFlag := true, holdT := .running 200, queue := l.queue ++
            [{ inv := b.inv, ordinal := b.ordinal, state := .queued, source := e.src, cause := none, how := none,
               answer := .none, elsewhere := false, byMark := false, waits := .nothing }] }) }) ∧
    ((s.mark.lane k).overflow = none → 6 ≤ (s.mark.lane k).queue.length →
      exec (.chestEntered e (some b)) s =
        .next { (s.heardFrom e.src).report
            (Report.of .laneOverflow (some b.inv) (some b.ordinal) (some b.head) (.code .kept)) with
          blockChoice := s.blockChoice / 720,
          inv := s.inv.upd b.inv (fun z =>
            { z with data := (x.data.addChest (enteredChest b)).atVersion b.version }),
          mark := s.mark.setLane k (fun l => { l with
            laneOver := true, overflow := some { inv := b.inv, ordinal := b.ordinal, source := e.src } }) }) ∧
    (∀ o : Overflow, (s.mark.lane k).overflow = some o →
      exec (.chestEntered e (some b)) s =
        .next { (s.heardFrom e.src).report
            (Report.of .laneOverflow (some b.inv) (some b.ordinal) (some b.head) (.code .lost)) with
          blockChoice := s.blockChoice / 720,
          inv := s.inv.upd b.inv (fun z =>
            { z with data := (x.data.addChest (enteredChest b)).atVersion b.version }),
          mark := s.mark.setLane k (fun l => { l with laneOver := true }) })) ∧
  ∀ (s : State) (e : Env) (b : ChestEnteredBody) (c : ChestNow) (x : Entry), Hears s e (.chestEntered b) →
    s.cfg.roles = { blend := false, head := true, mark := false, paper := false } → s.inv.phase ≠ .waitFree →
    s.inv.find b.inv = some x → x.own = none → x.copy = .complete → x.data.hdr.owner = e.src →
    b.version = x.data.hdr.version + 1 → b.ordinal = x.data.hdr.entered + 1 →
    s.head.state = .reported → s.head.chest = some c → c.inv = some b.inv → c.token = b.token → b.head = s.self →
    exec (.chestEntered e (some b)) s =
      .next { (s.heardFrom e.src).report (Report.of .chestEntered (some b.inv) (some b.ordinal) none .absent) with
        blockChoice := s.blockChoice / 720,
        inv := s.inv.upd b.inv (fun y =>
          { y with data := (x.data.addChest (enteredChest b)).atVersion b.version }),
        head := { s.head with state := .releasing, cause := none, sendFrame := none, waitOwner := false,
                              waitJoin := false } }

/-! ## Copies (R26, R36 to R39, R44) -/

/-- R26, R36, R44: MARK-ENTERED at a copy: the next version marks the chest, a version not above the copy's changes
nothing, a later one makes the copy STALE and asks the owner. An ADOPT at the next version gives a copy its new owner.
The block order used up is the model's (log 6). -/
def Obligations.CopyFollowsMarksAndAdoption : Prop :=
  (∀ (s : State) (e : Env) (b : MarkEnteredBody) (x : Entry), Hears s e (.markEntered b) →
     s.cfg.roles.mark = false → s.cfg.roles.paper = false → s.inv.phase ≠ .waitFree →
     s.inv.find b.inv = some x → x.own = none → x.copy = .complete → x.data.hdr.owner = e.src →
     (b.version ≤ x.data.hdr.version →
       exec (.markEntered e (some b)) s = .next { s.heardFrom e.src with blockChoice := s.blockChoice / 720 }) ∧
     (b.version = x.data.hdr.version + 1 → x.data.hasOrdinal b.ordinal = true →
       exec (.markEntered e (some b)) s =
         .next { s.heardFrom e.src with
           blockChoice := s.blockChoice / 720,
           inv := s.inv.upd b.inv (fun y =>
             { y with data := (x.data.setMark b.ordinal b.how b.marker).atVersion b.version }) }) ∧
     (x.data.hdr.version + 1 < b.version → x.askT = .stopped → x.orphan = false → JobRoom s →
       exec (.markEntered e (some b)) s =
         .next { (s.heardFrom e.src).queues (jobFrame e.src (.recordAsk b.inv) (.ask b.inv)) with
           blockChoice := s.blockChoice / 720,
           inv := s.inv.upd b.inv (fun y => { y with copy := .stale, askT := .running Config.askTime }) })) ∧
  (∀ (s : State) (e : Env) (b : AdoptBody) (x : Entry), Hears s e (.adopt b) →
     s.cfg.roles.mark = false → s.cfg.roles.paper = false → s.inv.phase ≠ .waitFree →
     s.blend.batchInv ≠ some b.inv → s.head.chestInv ≠ some b.inv →
     s.line.txq.all (fun f => f.tag != .adopt b.inv) = true →
     s.inv.find b.inv = some x → x.own = none → x.copy = .complete → b.forced = false →
     b.version = x.data.hdr.version + 1 →
     ∃ i : Inv, exec (.adopt e (some b)) s = .next { s.heardFrom e.src with inv := i } ∧
       i = { s.inv with table := i.table } ∧
       i.find b.inv = some { x with
         orphan := false, adoptT := .stopped,
         data := { x.data with hdr := { x.data.hdr with owner := e.src, version := b.version, adoption := .plain } } } ∧
       ∀ k, k ≠ b.inv → i.find k = s.inv.find k)

/-- R24, R28, R36, R37: a HEADER of the owner at the next version is applied to a COMPLETE copy; one for an invoice that
the table does not hold makes a COMPLETE entry where it has entered nothing and a place is free. Both raise the season
mark. R159, R161, R163, R168: at the acting paper station HEADER(CLOSED) puts the invoice at the tail of the paper queue,
and HEADER(RETIRED) takes it out of queue, taking set and window, and makes no gap of a CLAIMED one (the model's choice, log
105). A
queued copy that a HEADER takes out of CLOSED leaves the queue (the model's inference, log 84). R45, R47: the HEADER or
ADOPT of a second owner: below the issued version it is passed over; otherwise the lower number issues a HEADER above both
versions, and the higher one becomes a STALE replica and asks; a JOINING station yields to a higher version of another
owner, passes a lower one over, and keeps the sender of an equal one, beside those kept before, for the end of the join period (log
14). -/
def Obligations.HeaderTaken : Prop :=
  (∀ (s : State) (e : Env) (b : HeaderBody) (x : Entry), Hears s e (.header b) →
     s.cfg.roles.mark = false → s.cfg.roles.paper = false → s.inv.phase ≠ .waitFree →
     s.inv.find b.hdr.inv = some x → x.own = none → x.copy = .complete → b.dump = false →
     x.data.hdr.owner = b.hdr.owner → b.hdr.inv ≤ s.cfg.last →
     b.hdr.version = x.data.hdr.version + 1 → b.hdr.voidCount = x.data.voids.length →
     (b.hdr.state = .opened ∨ b.hdr.state = .ending ∨ b.hdr.state = .marking) →
     exec (.header e (some b)) s =
       .next { s.heardFrom e.src with
         inv := { s.inv.upd b.hdr.inv (fun _ => { x with
             data := { x.data with hdr := b.hdr }, orphan := false, adoptT := .stopped, staleT := .stopped,
             closedT := .stopped, rebuild := none }) with
           mark := max s.inv.mark b.hdr.inv } }) ∧
  (∀ (s : State) (e : Env) (b : HeaderBody), Hears s e (.header b) →
     s.cfg.roles.mark = false → s.cfg.roles.paper = false → s.inv.phase ≠ .waitFree →
     s.inv.find b.hdr.inv = none → s.inv.table.length < Config.tableEntries →
     s.cfg.first ≤ b.hdr.inv → b.hdr.inv ≤ s.cfg.last → b.dump = false → b.hdr.state = .opened →
     b.hdr.entered = 0 → b.hdr.voidCount = 0 →
     exec (.header e (some b)) s =
       .next { s.heardFrom e.src with
         inv := { s.inv with table := s.inv.table ++ [Entry.made b.hdr .complete], mark := max s.inv.mark b.hdr.inv } }) ∧
  (∀ (s : State) (e : Env) (b : HeaderBody) (x : Entry), Hears s e (.header b) →
     s.cfg.roles = { blend := false, head := false, mark := false, paper := true } → s.inv.phase ≠ .waitFree →
     s.inv.find b.hdr.inv = some x → x.own = none → b.hdr.inv ≤ s.cfg.last →
     (x.copy = .complete → x.rebuild = none → b.dump = false → x.data.hdr.owner = b.hdr.owner →
       b.hdr.version = x.data.hdr.version + 1 → b.hdr.voidCount = x.data.voids.length → b.hdr.state = .closed →
       x.data.hdr.state ≠ .closed → s.paper.acting = true → s.paper.lists b.hdr.inv = false →
       s.paper.queue.length + s.paper.waiting.length < 16 →
       s.paper.queue.all (fun k => decide (k.seq ≤ s.paper.nextSeq)) = true →
       exec (.header e (some b)) s =
         .next { (s.heardFrom e.src).report (Report.of .sheetReady (some b.hdr.inv) none none .absent) with
           inv := { s.inv.upd b.hdr.inv (fun _ => { x with
               data := { x.data with hdr := b.hdr }, orphan := false, adoptT := .stopped, staleT := .stopped,
               closedT := .running 10000, rebuild := none }) with
             mark := max s.inv.mark b.hdr.inv },
           paper := { s.paper with
             queue := s.paper.queue ++ [{ inv := b.hdr.inv, seq := s.paper.nextSeq }],
             nextSeq := s.paper.nextSeq + 1 } }) ∧
     (b.hdr.state = .retired →
       exec (.header e (some b)) s =
         .next { s.heardFrom e.src with
           inv := { s.inv with table := s.inv.table.filter (fun y => y.num != b.hdr.inv),
                               mark := max s.inv.mark b.hdr.inv },
           paper := { s.paper with
             queue := s.paper.queue.filter (fun k => k.inv != b.hdr.inv),
             waiting := s.paper.waiting.filter (fun k => k.inv != b.hdr.inv),
             taking := s.paper.taking.filter (fun t => t.inv != b.hdr.inv),
             window := match s.paper.window.shown with
               | some (n, _) => if n = b.hdr.inv then { shown := none, cause := .retired } else s.paper.window
               | none => s.paper.window } }) ∧
     (x.copy = .complete → b.dump = false → x.data.hdr.owner = b.hdr.owner →
       b.hdr.version = x.data.hdr.version + 1 → b.hdr.voidCount = x.data.voids.length →
       (b.hdr.state = .opened ∨ b.hdr.state = .ending ∨ b.hdr.state = .marking) →
       exec (.header e (some b)) s =
         .next { s.heardFrom e.src with
           inv := { s.inv.upd b.hdr.inv (fun _ => { x with
               data := { x.data with hdr := b.hdr }, orphan := false, adoptT := .stopped, staleT := .stopped,
               closedT := .stopped, rebuild := none }) with
             mark := max s.inv.mark b.hdr.inv },
           paper := { s.paper with
             queue := s.paper.queue.filter (fun k => k.inv != b.hdr.inv),
             waiting := s.paper.waiting.filter (fun k => k.inv != b.hdr.inv) } })) ∧
  (∀ (s : State) (e : Env) (b : HeaderBody) (x : Entry) (o : OwnerRec), Hears s e (.header b) →
     s.cfg.roles.mark = false → s.cfg.roles.paper = false → s.inv.phase = .idle → s.inv.find b.hdr.inv = some x →
     x.own = some o → b.hdr.inv ≤ s.cfg.last → b.hdr.state ≠ .retired →
     (s.isJoining = false → b.hdr.version < o.issued →
       exec (.header e (some b)) s =
         .next { s.heardFrom e.src with inv := { s.inv with mark := max s.inv.mark b.hdr.inv } }) ∧
     (s.isJoining = true → (b.hdr.owner = s.self ∨ b.hdr.version < o.issued) →
       exec (.header e (some b)) s =
         .next { s.heardFrom e.src with inv := { s.inv with mark := max s.inv.mark b.hdr.inv } }) ∧
     (s.isJoining = true → b.hdr.owner ≠ s.self → b.hdr.version = o.issued →
       exec (.header e (some b)) s =
         .next { s.heardFrom e.src with
           inv := { s.inv.updOwn b.hdr.inv (fun y => { y with
               conflicts := if e.src ∈ y.conflicts then y.conflicts else y.conflicts ++ [e.src] }) with
             mark := max s.inv.mark b.hdr.inv } }) ∧
     (s.isJoining = false → o.issued ≤ b.hdr.version → b.hdr.version < Config.maxVersion → s.self < e.src →
       o.resendDelay = .stopped → JobRoom s →
       ∃ h : Header, h = { o.view.hdr with version := b.hdr.version + 1, owner := s.self } ∧
         exec (.header e (some b)) s =
           .next { (s.heardFrom e.src).queues
               (jobFrame 0 (headerMsg h false none) (.versioned b.hdr.inv (b.hdr.version + 1))) with
             inv := { s.inv.updOwn b.hdr.inv (fun y => { y with
                 issued := b.hdr.version + 1, view := { o.view with hdr := h } }) with
               mark := max s.inv.mark b.hdr.inv } }) ∧
     (((s.isJoining = false ∧ o.issued ≤ b.hdr.version ∧ e.src < s.self) ∨
         (s.isJoining = true ∧ b.hdr.owner ≠ s.self ∧ o.issued < b.hdr.version)) →
       s.line.txq.all (fun f => !(Unsend.versionedAll b.hdr.inv).hits f) = true → x.askT = .stopped → x.orphan = false →
       s.blend.batchInv ≠ some b.hdr.inv → s.head.chestInv ≠ some b.hdr.inv → JobRoom s →
       exec (.header e (some b)) s =
         .next { (s.heardFrom e.src).queues (jobFrame e.src (.recordAsk b.hdr.inv) (.ask b.hdr.inv)) with
           inv := { s.inv.upd b.hdr.inv (fun y => { y with
               own := none, copy := .stale, askT := .running 500,
               data := { y.data with hdr := { y.data.hdr with owner := e.src } } }) with
             mark := max s.inv.mark b.hdr.inv } })) ∧
  (∀ (s : State) (e : Env) (b : AdoptBody) (x : Entry) (o : OwnerRec), Hears s e (.adopt b) →
     s.cfg.roles.mark = false → s.cfg.roles.paper = false → s.inv.phase = .idle → s.inv.find b.inv = some x →
     x.own = some o → s.isJoining = false →
     (b.version < o.issued → exec (.adopt e (some b)) s = .next (s.heardFrom e.src)) ∧
     (o.issued ≤ b.version → b.version < Config.maxVersion → s.self < e.src → o.resendDelay = .stopped → JobRoom s →
       ∃ h : Header, h = { o.view.hdr with version := b.version + 1, owner := s.self } ∧
         exec (.adopt e (some b)) s =
           .next { (s.heardFrom e.src).queues
               (jobFrame 0 (headerMsg h false none) (.versioned b.inv (b.version + 1))) with
             inv := s.inv.updOwn b.inv (fun y => { y with
               issued := b.version + 1, view := { o.view with hdr := h } }) })) ∧
  (∀ (s : State) (e : Env) (b : AdoptBody) (x : Entry) (o : OwnerRec), Hears s e (.adopt b) →
     s.cfg.roles.mark = false → s.cfg.roles.paper = false → s.inv.phase = .idle → s.inv.find b.inv = some x →
     x.own = some o →
     (s.isJoining = true → b.version < o.issued → exec (.adopt e (some b)) s = .next (s.heardFrom e.src)) ∧
     (s.isJoining = true → b.version = o.issued →
       exec (.adopt e (some b)) s =
         .next { s.heardFrom e.src with inv := s.inv.updOwn b.inv (fun y => { y with
           conflicts := if e.src ∈ y.conflicts then y.conflicts else y.conflicts ++ [e.src] }) }) ∧
     (((s.isJoining = false ∧ o.issued ≤ b.version ∧ e.src < s.self) ∨ (s.isJoining = true ∧ o.issued < b.version)) →
       s.line.txq.all (fun f => !(Unsend.versionedAll b.inv).hits f) = true → x.askT = .stopped → x.orphan = false →
       s.blend.batchInv ≠ some b.inv → s.head.chestInv ≠ some b.inv → JobRoom s →
       exec (.adopt e (some b)) s =
         .next { (s.heardFrom e.src).queues (jobFrame e.src (.recordAsk b.inv) (.ask b.inv)) with
           inv := s.inv.upd b.inv (fun y => { y with
             own := none, copy := .stale, askT := .running 500,
             data := { y.data with hdr := { y.data.hdr with owner := e.src } } }) }))

/-- R39: a RECORD-BLOCK of the dump that a copy rebuilds from appends its items; the last makes the copy COMPLETE at the
dump's version. -/
def Obligations.DumpRebuildsCopy : Prop :=
  ∀ (s : State) (e : Env) (b : BlockBody) (x : Entry) (r : Rebuild), Hears s e (.recordBlock b) →
    s.cfg.roles.mark = false → s.cfg.roles.paper = false → s.inv.phase ≠ .waitFree →
    s.inv.find b.inv = some x → x.own = none → x.copy = .rebuilding → x.rebuild = some r → r.version = b.version →
    (r.got + b.items.length < r.count →
      exec (.recordBlock e (some b)) s =
        .next { s.heardFrom e.src with
          inv := s.inv.upd b.inv (fun _ => { x with
            data := b.items.foldl Rec.addItem x.data, rebuildT := .running Config.rebuildTime,
            rebuild := some { r with got := r.got + b.items.length } }) }) ∧
    (r.count ≤ r.got + b.items.length → x.orphan = false → x.data.hdr.state ≠ .closed →
      exec (.recordBlock e (some b)) s =
        .next { s.heardFrom e.src with
          inv := s.inv.upd b.inv (fun _ => { x with
            data := (b.items.foldl Rec.addItem x.data).atVersion r.version, copy := .complete, rebuildT := .stopped,
            rebuild := none }) })

/-- R38: RECORD-ASK is answered NOT_HELD where the station owns no such invoice; the owner opens a dump. -/
def Obligations.RecordAskAnswered : Prop :=
  ∀ (s : State) (e : Env) (n : Nat), Hears s e (.recordAsk n) → s.inv.phase ≠ .waitFree → ReplyRoom s →
    (s.inv.owned n = none →
      exec (.recordAsk e (some n)) s =
        .next ((s.heardFrom e.src).queues (replyFrame e.src (notedMsg .recordAsk n .notHeld) .plain))) ∧
    (∀ o : OwnerRec, s.inv.owned n = some o → o.dump.isSome = true →
      exec (.recordAsk e (some n)) s = .next (s.heardFrom e.src)) ∧
    (∀ o : OwnerRec, s.inv.owned n = some o → o.dump = none →
      exec (.recordAsk e (some n)) s =
        .next { (s.heardFrom e.src).queues (replyFrame 0 (.header
            { hdr := { o.view.hdr with version := o.issued }, dump := true, resumed := false, newVoid := none,
              entryCount := o.view.chests.length + o.view.voids.length }) (.dump n)) with
          inv := s.inv.updOwn n (fun y =>
            { y with dump := some { version := y.issued, rest := blocksOf y.view.items } }) })

/-! ## The owner of an invoice (R49, R128, R129, R132, R133) -/

/-- R128, R129: a CHEST-DONE of class FULL for an OPEN invoice of this station is entered at the next ordinal and the
next version; a chest of an invoice the station does not own is refused UNKNOWN; one already entered is answered with
the frame it was entered by. R130, R131: one of class SHORT waits in the short slot of an OPEN invoice, a repeat changes
nothing, a second one is refused SHORT_TAKEN; in an ENDING invoice with nothing else outstanding it is entered at once. A
top-up count above 3 is kept whole (the model's choice, log 82). -/
def Obligations.ChestDoneEntered : Prop :=
  ∀ (s : State) (e : Env) (b : ChestDoneBody), Hears s e (.chestDone b) → s.inv.phase ≠ .waitFree → JobRoom s →
    (s.inv.owned b.inv = none →
      exec (.chestDone e (some b)) s =
        .next ((s.heardFrom e.src).queues
          (jobFrame e.src (.chestRefused { inv := b.inv, token := b.token, reason := .unknown }) .plain))) ∧
    (∀ (o : OwnerRec) (c : Chest) (v : Nat), s.inv.owned b.inv = some o → o.resendDelay = .stopped →
      o.view.hdr.state ≠ .claimed → o.view.chestOf e.src b.token = some c → verOf o.entryVer c.ordinal = some v →
      stillQueued s o b.inv (chestMsg b.inv v c) = false →
      exec (.chestDone e (some b)) s =
        .next ((s.heardFrom e.src).queues (jobFrame 0 (chestMsg b.inv v c) (.repeated b.inv v)))) ∧
    (∀ o : OwnerRec, s.inv.owned b.inv = some o → o.resendDelay = .stopped → o.view.hdr.state = .opened →
      b.cls = .full → o.short = none → o.view.chests.any (fun c => c.short) = false →
      o.view.chestOf e.src b.token = none → o.view.voidOf e.src b.token = none → o.holdsLost e.src b.token = false →
      o.view.hdr.entered < Config.maxChests → o.issued < Config.maxVersion →
      ∃ i : Inv,
        exec (.chestDone e (some b)) s =
          .next { (s.heardFrom e.src).queues (jobFrame 0 (.chestEntered
              { inv := b.inv, version := o.issued + 1, ordinal := o.view.hdr.entered + 1, head := e.src,
                token := b.token, gross := b.gross, tare := b.tare, net := b.net, short := false, topups := b.topups,
                flightLong := b.flightLong }) (.versioned b.inv (o.issued + 1))) with inv := i } ∧
        i = { s.inv with table := i.table } ∧ (∀ k, k ≠ b.inv → i.find k = s.inv.find k) ∧
        (i.find b.inv).map (fun x => x.data) = (s.inv.find b.inv).map (fun x => x.data) ∧
        i.owned b.inv = some { o with
          issued := o.issued + 1,
          view := { o.view with
            chests := o.view.chests ++ [doneChest b e.src (o.view.hdr.entered + 1)],
            hdr := { o.view.hdr with entered := o.view.hdr.entered + 1, version := o.issued + 1,
                                     netTotal := min (o.view.hdr.netTotal + b.net) 500000 } },
          fills := o.fills.filter (fun f => !f.is e.src b.token),
          entryVer := o.entryVer ++ [(o.view.hdr.entered + 1, o.issued + 1)] }) ∧
    (∀ o : OwnerRec, s.inv.owned b.inv = some o → b.cls = .short → o.view.chestOf e.src b.token = none →
      o.view.hdr.state ≠ .claimed →
      (o.slotIs e.src b.token = true → exec (.chestDone e (some b)) s = .next (s.heardFrom e.src)) ∧
      (o.slotIs e.src b.token = false → o.short.isSome = true → o.view.hdr.state = .opened →
        o.view.voidOf e.src b.token = none → o.holdsLost e.src b.token = false → o.issued < Config.maxVersion →
        exec (.chestDone e (some b)) s =
          .next { (s.heardFrom e.src).queues
              (jobFrame e.src (.chestRefused { inv := b.inv, token := b.token, reason := .shortTaken }) .plain) with
            inv := s.inv.updOwn b.inv (fun y => { y with fills := y.fills.filter (fun f => !f.is e.src b.token) }) }) ∧
      (o.short = none → o.view.chests.any (fun c => c.short) = false → o.view.voidOf e.src b.token = none →
        o.holdsLost e.src b.token = false → o.view.hdr.entered < Config.maxChests → o.issued < Config.maxVersion →
        (o.view.hdr.state = .opened →
          exec (.chestDone e (some b)) s =
            .next { s.heardFrom e.src with
              inv := s.inv.updOwn b.inv (fun y => { y with
                short := some { entering := false, head := e.src, token := b.token, gross := b.gross, tare := b.tare,
                                net := b.net, topups := b.topups, flightLong := b.flightLong } }) }) ∧
        (o.view.hdr.state = .ending → o.settle = .stopped → o.resendDelay = .stopped →
          o.fills.all (fun f => f.lost || f.is e.src b.token) = true →
          ∃ i : Inv,
            exec (.chestDone e (some b)) s =
              .next { (s.heardFrom e.src).queues (jobFrame 0 (.chestEntered
                  { inv := b.inv, version := o.issued + 1, ordinal := o.view.hdr.entered + 1, head := e.src,
                    token := b.token, gross := b.gross, tare := b.tare, net := b.net, short := true,
                    topups := b.topups, flightLong := b.flightLong }) (.versioned b.inv (o.issued + 1))) with inv := i } ∧
            i = { s.inv with table := i.table } ∧ (∀ k, k ≠ b.inv → i.find k = s.inv.find k) ∧
            (i.find b.inv).map (fun x => x.data) = (s.inv.find b.inv).map (fun x => x.data) ∧
            i.owned b.inv = some { o with
              issued := o.issued + 1,
              view := { o.view with
                chests := o.view.chests ++ [{ doneChest b e.src (o.view.hdr.entered + 1) with short := true }],
                hdr := { o.view.hdr with entered := o.view.hdr.entered + 1, version := o.issued + 1,
                                         netTotal := min (o.view.hdr.netTotal + b.net) 500000 } },
              fills := o.fills.filter (fun f => !f.is e.src b.token),
              short := some { entering := true, head := e.src, token := b.token, gross := b.gross, tare := b.tare,
                              net := b.net, topups := b.topups, flightLong := b.flightLong },
              entryVer := o.entryVer ++ [(o.view.hdr.entered + 1, o.issued + 1)] })))

/-- R132: a FILL-VOID for an OPEN invoice of this station is recorded by a HEADER at the next version and noted OK; a
repeat is noted OK and changes nothing. -/
def Obligations.FillVoidRecorded : Prop :=
  ∀ (s : State) (e : Env) (b : VoidBody) (o : OwnerRec), Hears s e (.fillVoid b) → s.inv.phase ≠ .waitFree →
    s.line.txq.length + 1 < Config.replyPlaces → s.inv.owned b.inv = some o → o.resendDelay = .stopped →
    o.view.hdr.state = .opened →
    ((o.view.voidOf e.src b.token).isSome = true →
      exec (.fillVoid e (some b)) s =
        .next ((s.heardFrom e.src).queues (replyFrame e.src (notedMsg .fillVoid b.token .ok) .plain))) ∧
    (o.view.voidOf e.src b.token = none → o.view.chestOf e.src b.token = none → o.holdsLost e.src b.token = false →
      o.slotIs e.src b.token = false → o.view.voids.length < Config.maxVoids → o.issued < Config.maxVersion →
      ∃ (i : Inv) (h : Header),
        h = { o.view.hdr with version := o.issued + 1, voidTotal := min (o.view.hdr.voidTotal + b.net) 500000,
                              voidCount := o.view.hdr.voidCount + 1 } ∧
        exec (.fillVoid e (some b)) s =
          .next { ((s.heardFrom e.src).queues
              (jobFrame 0 (headerMsg h false (some { head := e.src, token := b.token, net := b.net }))
                (.versioned b.inv (o.issued + 1)))).queues
              (replyFrame e.src (notedMsg .fillVoid b.token .ok) .plain) with inv := i } ∧
        i = { s.inv with table := i.table } ∧ (∀ k, k ≠ b.inv → i.find k = s.inv.find k) ∧
        (i.find b.inv).map (fun x => x.data) = (s.inv.find b.inv).map (fun x => x.data) ∧
        i.owned b.inv = some { o with
          issued := o.issued + 1,
          view := { o.view with hdr := h, voids := o.view.voids ++ [{ head := e.src, token := b.token, net := b.net }] },
          fills := o.fills.filter (fun f => !f.is e.src b.token) })

/-- R133: a MARK-DONE for a PENDING chest of an invoice of this station is entered at the next version; one for an
invoice it does not own is noted NOT_HELD. -/
def Obligations.MarkDoneEntered : Prop :=
  ∀ (s : State) (e : Env) (b : MarkDoneBody), Hears s e (.markDone b) → s.inv.phase ≠ .waitFree → ReplyRoom s →
    (s.inv.owned b.inv = none →
      exec (.markDone e (some b)) s =
        .next ((s.heardFrom e.src).queues (replyFrame e.src (notedMsg .markDone b.ordinal .notHeld) .plain))) ∧
    (∀ (o : OwnerRec) (c : Chest), s.inv.owned b.inv = some o → o.resendDelay = .stopped →
      (o.view.hdr.state = .opened ∨ o.view.hdr.state = .ending) →
      o.view.chests.find? (fun c => c.ordinal == b.ordinal) = some c → c.stencil = .pending →
      o.issued < Config.maxVersion →
      ∃ i : Inv,
        exec (.markDone e (some b)) s =
          .next { (s.heardFrom e.src).queues
              (jobFrame 0 (markMsg b.inv (o.issued + 1) b.ordinal b.how b.marker)
                (.versioned b.inv (o.issued + 1))) with inv := i } ∧
        i = { s.inv with table := i.table } ∧ (∀ k, k ≠ b.inv → i.find k = s.inv.find k) ∧
        (i.find b.inv).map (fun x => x.data) = (s.inv.find b.inv).map (fun x => x.data) ∧
        i.owned b.inv = some { o with
          issued := o.issued + 1,
          view := (o.view.setMark b.ordinal b.how b.marker).atVersion (o.issued + 1),
          markVer := o.markVer ++ [(b.ordinal, o.issued + 1)] })

/-- R35, R49, R168: SHEET-TAKEN retires an invoice that is CLOSED in its owner's issued view, closes another paper
station's window on it, and is answered by the HEADER(RETIRED) of a number in the retired list, one such frame at a time.
The block order used up is the model's (log 6). -/
def Obligations.SheetTakenRetires : Prop :=
  (∀ (s : State) (e : Env) (n : Nat) (r : Retired), Hears s e (.sheetTaken n) → s.inv.phase ≠ .waitFree →
    s.cfg.roles.paper = false → s.inv.owned n = none → s.inv.retired.find? (fun r => r.inv == n) = some r →
    (r.queued s = true →
      exec (.sheetTaken e (some n)) s = .next { s.heardFrom e.src with blockChoice := s.blockChoice / 720 }) ∧
    (r.queued s = false → JobRoom s →
      exec (.sheetTaken e (some n)) s =
        .next { (s.heardFrom e.src).queues (jobFrame 0 (.header r.frame) .plain) with
          blockChoice := s.blockChoice / 720 })) ∧
  ∀ (s : State) (e : Env) (n : Nat) (x : Entry), Hears s e (.sheetTaken n) → s.inv.phase ≠ .waitFree →
    s.inv.find n = some x →
    (∀ v, s.cfg.roles.paper = true → x.own = none → s.inv.retired.all (fun r => r.inv != n) = true →
      s.paper.takes n = false → s.paper.window.shown = some (n, v) →
      exec (.sheetTaken e (some n)) s =
        .next { s.heardFrom e.src with
          blockChoice := s.blockChoice / 720,
          paper := { s.paper with window := { shown := none, cause := .takenElsewhere } } }) ∧
    (∀ o : OwnerRec, s.cfg.roles.paper = false → x.own = some o → o.retiring = false → o.resendDelay = .stopped →
      o.view.hdr.state = .closed → o.issued < Config.maxVersion → JobRoom s →
      ∃ (i : Inv) (h : Header), h = { o.view.hdr with state := .retired, version := o.issued + 1 } ∧
        exec (.sheetTaken e (some n)) s =
          .next { (s.heardFrom e.src).queues (jobFrame 0 (headerMsg h false none) (.versioned n (o.issued + 1))) with
            blockChoice := s.blockChoice / 720, inv := i } ∧
        i = { s.inv with table := i.table } ∧ (∀ k, k ≠ n → i.find k = s.inv.find k) ∧
        i.owned n = some { o with issued := o.issued + 1, view := { o.view with hdr := h }, retiring := true })

/-! ## Claims (R28 to R34) -/

/-- R28, R31: what a blender answers to another station's CLAIM. A number that stands in the gap list and is claimed again
stays there (the model's choice, log 106). -/
def Obligations.ClaimAnswered : Prop :=
  ∀ (s : State) (e : Env) (b : ClaimBody), Hears s e (.claim b) → s.cfg.roles.blend = true → s.isJoining = false →
    s.inv.phase ≠ .waitFree → ReplyRoom s →
    (s.inSeason b.inv = false →
      exec (.claim e (some b)) s =
        .next ((s.heardFrom e.src).queues
          (replyFrame e.src (.object { inv := b.inv, claimant := e.src, reason := .range }) .plain))) ∧
    (s.inSeason b.inv = true → s.inv.find b.inv = none → s.inv.table.length < Config.tableEntries →
      exec (.claim e (some b)) s =
        .next { (s.heardFrom e.src).queues (replyFrame e.src (.consent { inv := b.inv, claimant := e.src }) .plain) with
          inv := { s.inv with
            mark := max s.inv.mark b.inv,
            table := s.inv.table ++ [{ Entry.made (s.claimHeader b.inv e.src b.order b.grade b.net b.garden) .complete with
              staleT := .running Config.claimStale }] } }) ∧
    (s.inSeason b.inv = true → s.inv.find b.inv = none → Config.tableEntries ≤ s.inv.table.length →
      exec (.claim e (some b)) s =
        .next { (s.heardFrom e.src).queues
            (replyFrame e.src (.object { inv := b.inv, claimant := e.src, reason := .full }) .plain) with
          inv := { s.inv with mark := max s.inv.mark b.inv } }) ∧
    (∀ x : Entry, s.inSeason b.inv = true → s.inv.find b.inv = some x → x.own = none → x.data.hdr.owner = e.src →
      exec (.claim e (some b)) s =
        .next { (s.heardFrom e.src).queues (replyFrame e.src (.consent { inv := b.inv, claimant := e.src }) .plain) with
          inv := { s.inv with mark := max s.inv.mark b.inv } }) ∧
    (∀ x : Entry, s.inSeason b.inv = true → s.inv.find b.inv = some x → x.own = none → x.data.hdr.owner ≠ e.src →
      exec (.claim e (some b)) s =
        .next { (s.heardFrom e.src).queues
            (replyFrame e.src (.object { inv := b.inv, claimant := e.src, reason := .held }) .plain) with
          inv := { s.inv with mark := max s.inv.mark b.inv } })

/-- R32: a CONSENT for the own claim takes its station out of the consent set; the last one makes the claim firm and
queues the HEADER that opens the invoice. That one naming another claimant changes nothing is read from the rule (log
58). -/
def Obligations.ConsentCounted : Prop :=
  ∀ (s : State) (e : Env) (b : ConsentBody) (second : Bool) (l : List Nat), Hears s e (.consent b) →
    s.inv.phase = .window b.inv second l →
    (b.claimant ≠ s.self → exec (.consent e (some b)) s = .next (s.heardFrom e.src)) ∧
    (b.claimant = s.self → l.filter (fun m => m != e.src) ≠ [] →
      exec (.consent e (some b)) s =
        .next { s.heardFrom e.src with
          inv := { s.inv with phase := .window b.inv second (l.filter (fun m => m != e.src)) } }) ∧
    (∀ o : OwnerRec, b.claimant = s.self → l.filter (fun m => m != e.src) = [] → s.inv.owned b.inv = some o →
      o.resendDelay = .stopped → o.issued < Config.maxVersion → JobRoom s →
      ∃ (i : Inv) (h : Header), h = { o.view.hdr with state := .opened, version := o.issued + 1 } ∧
        exec (.consent e (some b)) s =
          .next { (s.heardFrom e.src).queues
              (jobFrame 0 (headerMsg h false none) (.versioned b.inv (o.issued + 1))) with inv := i } ∧
        i = { s.inv with table := i.table, phase := .firm b.inv, claimWindow := .stopped } ∧
        (∀ k, k ≠ b.inv → i.find k = s.inv.find k) ∧
        i.owned b.inv = some { o with issued := o.issued + 1, view := { o.view with hdr := h } })

/-- R29, R32, R34: an OBJECT to the own claim withdraws it, frees its entry, and claims the next number (a blender
alone); the claimant's WITHDRAW, and the stale timer, free a CLAIMED entry, and one that is OPEN or later, or another
station's, stays. R81: the invoice of a claim cancelled when firm ends CANCELLED when its opening HEADER completes, and
closes at once where it has no chests, fills or short; that CLAIM_FIRM is reported there and the blend sequencer is not told
is the model's choice (log 52). -/
def Obligations.ClaimsGivenUp : Prop :=
  (∀ (s : State) (e : Env) (b : ObjectBody) (second : Bool) (l : List Nat) (q : ClaimReq), Hears s e (.object b) →
     s.cfg.roles.mark = false → s.cfg.roles.paper = false → s.inv.phase = .window b.inv second l →
     b.claimant = s.self → s.inv.req = some q → s.isActive = true → s.inv.mark < s.cfg.last →
     (s.inv.table.filter (fun x => x.num != b.inv)).length < Config.tableEntries →
     s.blend.batchInv ≠ some b.inv → s.line.txq.all (fun f => f.tag != .claim b.inv) = true →
     s.line.txq.length + 1 < Config.txPlaces →
     exec (.object e (some b)) s =
       .next { ((s.heardFrom e.src).queues (jobFrame 0 (.withdraw b.inv) .withdraw)).queues
           (jobFrame 0 (.claim { inv := s.inv.mark + 1, order := q.order, grade := q.grade, garden := q.garden,
                                 net := q.charged }) (.claim (s.inv.mark + 1))) with
         inv := { s.inv with
           mark := s.inv.mark + 1, claimWindow := .stopped, phase := .queued (s.inv.mark + 1) false [],
           table := s.inv.table.filter (fun x => x.num != b.inv) ++
             [{ Entry.made (s.claimHeader (s.inv.mark + 1) s.self q.order q.grade q.charged q.garden) .complete with
                 own := some (OwnerRec.start (Entry.made
                   (s.claimHeader (s.inv.mark + 1) s.self q.order q.grade q.charged q.garden) .complete).data) }] } }) ∧
  (∀ (s : State) (n : Nat) (x : Entry), s.cfg.roles.mark = false → s.cfg.roles.paper = false →
     s.inv.phase ≠ .waitFree → s.inv.find n = some x → x.own = none → s.blend.batchInv ≠ some n →
     (∀ e : Env, Hears s e (.withdraw n) → x.late = false → x.data.hdr.owner = e.src →
       exec (.withdraw e (some n)) s =
         .next { s.heardFrom e.src with inv := { s.inv with table := s.inv.table.filter (fun y => y.num != n) } }) ∧
     (∀ e : Env, Hears s e (.withdraw n) → (x.late = true ∨ x.data.hdr.owner ≠ e.src) →
       exec (.withdraw e (some n)) s = .next (s.heardFrom e.src)) ∧
     (Ready s → x.late = false → x.staleT.on = true →
       exec (.claimStaleTimerExpiry n) s =
         .next (State.tryTransmit { s with inv := { s.inv with table := s.inv.table.filter (fun y => y.num != n) } }))) ∧
  (∀ (s : State) (f : TxFrame) (q : List TxFrame) (n v : Nat) (b : HeaderBody) (x : Entry) (o : OwnerRec) (h : Header),
    Completes s f q → f.tag = .versioned n v → f.msg = .header b → s.cfg.roles.mark = false →
    s.cfg.roles.paper = false → s.inv.phase ≠ .waitFree → s.inv.find n = some x → x.own = some o → o.ahead = [] →
    lowerOut (s.sent q) o n v = false → b.hdr.state = .opened → x.data.hdr.state = .claimed →
    s.inv.phase ≠ .firm n → o.cancelled = true →
    o.view.hdr.state = .opened → o.view.chests = [] → o.fills = [] → o.short = none → o.settle = .stopped →
    o.resendDelay = .stopped → o.issued + 3 ≤ Config.maxVersion → q.length + 3 ≤ Config.txPlaces →
    h = { o.view.hdr with state := .closed, endCause := some .cancelled, residue := none, version := o.issued + 3 } →
    exec .frameComplete s =
      .next { State.report ((((s.sent q).queues (jobFrame 0
            (headerMsg { h with state := .ending, version := o.issued + 1 } false none) (.versioned n (o.issued + 1)))).queues
          (jobFrame 0 (headerMsg { h with state := .marking, version := o.issued + 2 } false none)
            (.versioned n (o.issued + 2)))).queues
          (jobFrame 0 (headerMsg h false none) (.versioned n (o.issued + 3))))
          (Report.of .claimFirm (some n) none none .absent) with
        inv := s.inv.upd n (fun y => { y with
          data := { y.data with hdr := { b.hdr with inv := n }, voids := x.data.voids ++ b.newVoid.toList },
          own := some { o with issued := o.issued + 3, view := { o.view with hdr := h }, cancelled := false } }) })

/-! ## NOTED, JOIN, PRESENCE and the station table (R15, R18 to R22, R38) -/

/-- R15, R38, R42, R118: NOTED(NOT_HELD) for a RECORD-ASK makes an invoice that is not CLOSED an orphan, from whichever
station it comes (the model's choice, log 60), and starts the adoption delay where none runs (log 54); NOTED for a
FILL-VOID ends its exchange and confirms the void; a NOTED that ends no exchange and notes neither a RECORD-ASK nor a
MARK-DONE changes nothing. -/
def Obligations.NotedTaken : Prop :=
  ∀ (s : State) (e : Env) (b : NotedBody),
    (Hears s e (.noted b) → b.kind ≠ .recordAsk → b.kind ≠ .markDone →
      exec (.noted e (some b)) s = .next (s.heardFrom e.src)) ∧
    (∀ x : Entry, Hears s e (.noted b) → s.inv.phase ≠ .waitFree → b.kind = .recordAsk → b.result = .notHeld →
      s.inv.find b.number = some x → x.own = none → x.data.hdr.state ≠ .closed →
      exec (.noted e (some b)) s =
        .next { s.heardFrom e.src with
          inv := s.inv.upd b.number (fun y =>
            if y.adoptT.on then { y with orphan := true }
            else if s.eligible { y with orphan := true } then
              { y with orphan := true, adoptT := .running (100 * s.self) }
            else { y with orphan := true }) }) ∧
    (∀ (x : Exchange) (c : ChestNow) (n : Nat), Ready s → e.src ≠ s.self → (e.dst = 0 ∨ e.dst = s.self) →
      (s.line.peer e.src).state = .present → s.cfg.roles.head = true → s.line.exchanges = [x] →
      x.key = .fillVoid n c.token → x.peer = e.src → s.line.txq.all (fun f => f.tag != .exch x.id) = true →
      b.kind = .fillVoid → b.number = c.token → s.head.state = .voiding → s.head.voidOk = false →
      s.head.emptied = false → s.head.chest = some c → c.inv = some n →
      exec (.noted e (some b)) s =
        .next { s.heardFrom e.src with
          line := { (s.heardFrom e.src).line with exchanges := [] },
          head := { s.head with voidOk := true } })

/-- R18, R20, R187: a JOIN brings its station's entry to JOINING with the JOIN's fields and both timers, and every other
entry stays; a field that is not valid leaves the entry's value (log 31). At a blender with nothing else to do one
PRESENCE answers a JOIN with every field valid, and none answers another. The block order used up is the model's
(log 6). -/
def Obligations.JoinHeard : Prop :=
  (∀ (s : State) (e : Env) (b : JoinRead), s.canSend = true → e.src ≠ s.self → 1 ≤ e.src → e.src ≤ 24 →
    (e.dst = 0 ∨ e.dst = s.self) →
    (∃ t : State, exec (.join e b) s = .next t ∧
      t.line.peer e.src =
        { s.line.peer e.src with
          state := .joining, roles := some b.roles, blender := b.blender.getD (s.line.peer e.src).blender,
          lane1 := b.lane1.getD (s.line.peer e.src).lane1, lane2 := b.lane2.getD (s.line.peer e.src).lane2,
          silence := .running s.peerTimeout, watch := .running s.peerTimeout } ∧
      (∀ n, n ≠ e.src → t.line.peer n = s.line.peer n) ∧
      t.cfg = s.cfg ∧ t.cfgMem = s.cfgMem ∧ t.start.state = s.start.state ∧ t.presence = s.presence) ∧
    (b.body = none → s.head.owedDone = [] → s.cfg.roles = { blend := true, head := false, mark := false, paper := false } →
      s.cfg.inChute e.src = false → s.inv.table = [] → s.inv.phase = .idle →
      exec (.join e b) s =
        .next { s with
          blockChoice := s.blockChoice / 720,
          line := s.line.frameEnd.setPeer e.src
              { s.line.peer e.src with
                state := .joining, roles := some b.roles, blender := b.blender.getD (s.line.peer e.src).blender,
                lane1 := b.lane1.getD (s.line.peer e.src).lane1, lane2 := b.lane2.getD (s.line.peer e.src).lane2,
                silence := .running s.peerTimeout, watch := .running s.peerTimeout } })) ∧
  ∀ (s : State) (e : Env) (b : JoinBody), s.canSend = true → e.src ≠ s.self → 1 ≤ e.src → e.src ≤ 24 →
    (e.dst = 0 ∨ e.dst = s.self) →
    (∃ t : State, exec (.join e b.read) s = .next t ∧
      t.line.peer e.src =
        { s.line.peer e.src with
          state := .joining, roles := some b.roles, blender := b.blender, lane1 := b.lane1, lane2 := b.lane2,
          silence := .running s.peerTimeout, watch := .running s.peerTimeout } ∧
      (∀ n, n ≠ e.src → t.line.peer n = s.line.peer n) ∧
      t.cfg = s.cfg ∧ t.cfgMem = s.cfgMem ∧ t.start.state = s.start.state ∧ t.presence = s.presence) ∧
    (s.head.owedDone = [] → s.cfg.roles = { blend := true, head := false, mark := false, paper := false } →
      s.cfg.inChute e.src = false → s.inv.table = [] → s.inv.phase = .idle → s.line.presenceQueued = false →
      ReplyRoom s → s.line.exchanges = [] →
      exec (.join e b.read) s =
        .next { s with
          blockChoice := s.blockChoice / 720,
          line := { s.line.frameEnd.setPeer e.src
              { s.line.peer e.src with
                state := .joining, roles := some b.roles, blender := b.blender, lane1 := b.lane1, lane2 := b.lane2,
                silence := .running s.peerTimeout, watch := .running s.peerTimeout } with
            txq := s.line.txq ++ [replyFrame 0 s.presenceMsg .presence] } })

/-- R18, R20, R28: PRESENCE(ACTIVE) brings its station's entry to PRESENT and may raise the season mark;
PRESENCE(JOINING) brings it to JOINING with its watch. R20, R187: one whose state is not valid gives roles and mark, and
acts on the state as any other frame (log 31). R6: a frame from the station's own number takes the station OFFLINE with
cause DUPLICATE_NUMBER, which empties its transmit queue and ends its exchanges, and at a blender clears the chute (R99);
once there such a frame changes nothing more. The block order used up is the model's (log 6). -/
def Obligations.PresenceHeard : Prop :=
  (∀ (s : State) (e : Env) (r : Roles) (m : Nat), s.canSend = true → e.src ≠ s.self → 1 ≤ e.src → e.src ≤ 24 →
    (e.dst = 0 ∨ e.dst = s.self) →
    ∃ t : State, exec (.presence e { roles := r, state := none, mark := m }) s = .next t ∧
      t.line.peer e.src =
        { s.line.peer e.src with
          state := if (s.line.peer e.src).state = .joining then .joining else .present,
          roles := some r, mark := some m, silence := .running s.peerTimeout } ∧
      (∀ n, n ≠ e.src → t.line.peer n = s.line.peer n) ∧
      t.cfg = s.cfg ∧ t.cfgMem = s.cfgMem ∧ t.start.state = s.start.state ∧ t.presence = s.presence) ∧
  (∀ (s : State) (e : Env) (b : PresenceRead), e.src = s.self →
    (s.canSend = true →
      ∃ t : State, exec (.presence e b) s = .next t ∧
        t.line = { s.line.frameEnd with txq := [], sending := false, attempts := 0, backoff := none, exchanges := [] } ∧
        t.start = { s.start with state := .offlineDup s.isActive, joinT := .stopped, retryT := .stopped } ∧
        t.cfg = s.cfg ∧ t.cfgMem = s.cfgMem ∧ t.presence = s.presence) ∧
    (s.canSend = true → s.head.owedDone = [] →
      s.cfg.roles = { blend := true, head := false, mark := false, paper := false } → s.line.txq = [] →
      s.line.exchanges = [] → s.inv.phase ≠ .waitFree →
      exec (.presence e b) s =
        .next { s.report (Report.of .duplicateNumber none none (some s.self) .absent) with
          blockChoice := s.blockChoice / 720,
          line := { s.line.frameEnd with txq := [], sending := false, attempts := 0, backoff := none, exchanges := [] },
          start := { s.start with state := .offlineDup s.isActive, joinT := .stopped, retryT := .stopped },
          arb := { s.arb with openFlag := false, batch := none, current := none, next := none, queue := [],
                              gate := false } }) ∧
    (s.working = true → s.dupOffline = true → s.head.owedDone = [] →
      exec (.presence e b) s = .next { s with line := s.line.frameEnd })) ∧
  ∀ (s : State) (e : Env) (b : PresenceBody), s.canSend = true → e.src ≠ s.self → 1 ≤ e.src → e.src ≤ 24 →
    (e.dst = 0 ∨ e.dst = s.self) →
    (b.state = .active →
      ∃ t : State, exec (.presence e b.read) s = .next t ∧
        t.line.peer e.src =
          { s.line.peer e.src with
            state := .present, roles := some b.roles, mark := some b.mark, silence := .running s.peerTimeout,
            watch := .stopped } ∧
        (∀ n, n ≠ e.src → t.line.peer n = s.line.peer n) ∧
        t.cfg = s.cfg ∧ t.cfgMem = s.cfgMem ∧ t.start.state = s.start.state ∧ t.presence = s.presence) ∧
    (b.state = .joining → (s.line.peer e.src).state ≠ .joining →
      ∃ t : State, exec (.presence e b.read) s = .next t ∧
        t.line.peer e.src =
          { s.line.peer e.src with
            state := .joining, roles := some b.roles, mark := some b.mark, silence := .running s.peerTimeout,
            watch := .running s.peerTimeout } ∧
        (∀ n, n ≠ e.src → t.line.peer n = s.line.peer n) ∧
        t.cfg = s.cfg ∧ t.cfgMem = s.cfgMem ∧ t.start.state = s.start.state ∧ t.presence = s.presence) ∧
    (b.state = .active → Hears s e (.presence b) → s.inv.phase ≠ .waitFree →
      exec (.presence e b.read) s =
        .next { s with
          line := s.line.frameEnd.setPeer e.src
            { s.line.peer e.src with
              state := .present, roles := some b.roles, mark := some b.mark, silence := .running s.peerTimeout,
              watch := .stopped },
          inv := { s.inv with mark := if b.mark ≤ s.cfg.last then max s.inv.mark b.mark else s.inv.mark } })

/-- R20, R21: the silence timer of a station's entry takes it to ABSENT, the join watch to PRESENT; every other entry
stays, on a station OFFLINE for a duplicate number too (the model's choice, log 49). At a blender that holds no invoice
and does not serve the station, nothing else happens but the report. R160 to R162: a paper station decides anew which
station is acting, the lowest-numbered one present (itself if ACTIVE) that holds PAPER; the one that becomes acting queues
its CLOSED invoices in ascending number, the one that stops acting empties its queue. What the absence means for one
invoice: R34, a CLAIMED one is freed; R42, one that is OPEN or later becomes an orphan, and an eligible station's adoption
delay starts where none runs (log 54); R127, the fill of the absent head is LOST in an OPEN invoice of this station, whose
lost-fill count a HEADER raises, queued at a count of 255 too (the model's choice, log 94). R98: the absent head's lease or queue entry is removed and it is sent
LEASE-END(HEAD_ABSENT); CURRENT without a NEXT closes the gate. The block order used up is the model's (log 6). -/
def Obligations.StationTimers : Prop :=
  (∀ (s : State) (n : Nat), s.actingStation = some n ↔
     1 ≤ n ∧ n ≤ 24 ∧ s.paperCounts n = true ∧ ∀ m, 1 ≤ m → m < n → s.paperCounts m = false) ∧
  (∀ (s : State) (n : Nat), s.paperCounts n = true ↔
     (n = s.self ∧ s.start.state = .active ∧ s.cfg.roles.paper = true) ∨
     (n ≠ s.self ∧ (s.line.peer n).state = .present ∧ ∃ r, (s.line.peer n).roles = some r ∧ r.paper = true)) ∧
  (∀ i : Inv, i.closedEntries.Pairwise (fun x y => x.num ≤ y.num) ∧
     i.closedEntries.Perm (i.table.filter (fun x => x.data.hdr.state == .closed))) ∧
  (∀ (s t : State) (n : Nat), Ready s → s.cfg.roles = { blend := false, head := false, mark := false, paper := true } →
     s.isJoining = false → n ≠ s.self → s.inv.phase = .idle → s.line.exchanges = [] →
     (s.line.peer n).silence.on = true → (s.line.peer n).state = .present →
     s.inv.table.all (fun x => x.own.isNone && x.data.hdr.owner != n) = true →
     t = { s.report (Report.of .peerAbsent none none (some n) .absent) with
       blockChoice := s.blockChoice / 720,
       line := s.line.setPeer n { s.line.peer n with state := .absent, silence := .stopped, watch := .stopped } } →
     ((t.actingStation = some s.self ↔ s.paper.acting = true) →
       exec (.silenceTimerExpiry n) s =
         .next (State.tryTransmit { t with paper := { s.paper with found := t.actingStation } })) ∧
     (t.actingStation ≠ some s.self → s.paper.acting = true →
       exec (.silenceTimerExpiry n) s =
         .next (State.tryTransmit { t with
           paper := { s.paper with found := t.actingStation, acting := false, queue := [], waiting := [] } })) ∧
     (t.actingStation = some s.self → s.paper.acting = false →
       (∀ x y : Entry, s.inv.closedEntries = [x, y] → x.copy = .complete → y.copy = .complete →
         exec (.silenceTimerExpiry n) s =
           .next (State.tryTransmit { (t.report (Report.of .sheetReady (some x.num) none none .absent)).report
               (Report.of .sheetReady (some y.num) none none .absent) with
             paper := { s.paper with
               found := some s.self, acting := true, waiting := [], nextSeq := s.paper.nextSeq + 2,
               queue := [{ inv := x.num, seq := s.paper.nextSeq }, { inv := y.num, seq := s.paper.nextSeq + 1 }] } })) ∧
       (∀ x : Entry, s.inv.closedEntries = [x] → x.copy ≠ .complete → x.askT.on = true → s.inv.find x.num = some x →
         exec (.silenceTimerExpiry n) s =
           .next (State.tryTransmit { t with
             paper := { s.paper with
               found := some s.self, acting := true, queue := [], nextSeq := s.paper.nextSeq + 1,
               waiting := [{ inv := x.num, seq := s.paper.nextSeq }] } })))) ∧
  (∀ (s t : State) (n : Nat), Ready s → s.cfg.roles = { blend := true, head := false, mark := false, paper := false } →
     n ≠ s.self → s.inv.phase = .idle → s.line.exchanges = [] → (s.line.peer n).silence.on = true →
     (s.line.peer n).state = .present →
     t = { s.report (Report.of .peerAbsent none none (some n) .absent) with
       blockChoice := s.blockChoice / 720,
       line := s.line.setPeer n { s.line.peer n with state := .absent, silence := .stopped, watch := .stopped } } →
     (∀ x : Entry, n ∉ s.arb.heads → s.inv.table = [x] → x.own = none → x.data.hdr.owner = n →
       (x.late = false → s.blend.batchInv ≠ some x.num →
         exec (.silenceTimerExpiry n) s =
           .next (State.tryTransmit { t with inv := { s.inv with table := [] } })) ∧
       (x.late = true →
         exec (.silenceTimerExpiry n) s =
           .next (State.tryTransmit { t with inv := { s.inv with table := [
             if x.adoptT.on then { x with orphan := true }
             else if s.eligible { x with orphan := true } then
               { x with orphan := true, adoptT := .running (100 * s.self) }
             else { x with orphan := true }] } }))) ∧
     (∀ (x : Entry) (o : OwnerRec) (f : Fill) (h : Header), n ∉ s.arb.heads → JobRoom s → s.inv.table = [x] →
       x.own = some o → o.view.hdr.state = .opened → o.fills = [f] → f.head = n → f.lost = false → o.short = none →
       o.resendDelay = .stopped → o.issued < Config.maxVersion →
       h = { o.view.hdr with lostFills := min (o.view.hdr.lostFills + 1) 255, version := o.issued + 1 } →
       exec (.silenceTimerExpiry n) s =
         .next (State.tryTransmit { t.queues (jobFrame 0 (headerMsg h false none) (.versioned x.num (o.issued + 1))) with
           inv := { s.inv with table := [{ x with own := some { o with
             fills := [{ f with lost := true }], issued := o.issued + 1, view := { o.view with hdr := h } } }] } })) ∧
     (s.cfg.inChute n = true → JobRoom s → s.inv.table = [] → s.arb.queue = [] →
       (∀ l : Lease, s.arb.current = some l → l.head = n → s.arb.next = none →
         exec (.silenceTimerExpiry n) s =
           .next (State.tryTransmit
             { t.queues (jobFrame n (.leaseEnd { lease := l.number, reason := .headAbsent }) .plain) with
               arb := { s.arb with current := none, gate := false } })) ∧
       (∀ k l : Lease, s.arb.current = some k → k.head ≠ n → s.arb.next = some l → l.head = n →
         exec (.silenceTimerExpiry n) s =
           .next (State.tryTransmit
             { t.queues (jobFrame n (.leaseEnd { lease := l.number, reason := .headAbsent }) .plain) with
               arb := { s.arb with next := none } }))) ∧
     (∀ k : Ask, s.cfg.inChute n = true → JobRoom s → s.inv.table = [] → s.arb.queue = [k] → k.head = n →
       s.arb.current.all (fun l => l.head != n) = true → s.arb.next.all (fun l => l.head != n) = true →
       exec (.silenceTimerExpiry n) s =
         .next (State.tryTransmit
           { t.queues (jobFrame n (.leaseEnd { lease := 0, reason := .headAbsent }) .plain) with
             arb := { s.arb with queue := [] } }))) ∧
  ∀ (s : State) (n : Nat), s.working = true → n ≠ s.self →
    ((s.line.peer n).silence.on = true →
      ∃ t : State, exec (.silenceTimerExpiry n) s = .next t ∧
        t.line.peer n = { s.line.peer n with state := .absent, silence := .stopped, watch := .stopped } ∧
        (∀ k, k ≠ n → t.line.peer k = s.line.peer k) ∧
        t.cfg = s.cfg ∧ t.cfgMem = s.cfgMem ∧ t.start.state = s.start.state ∧ t.presence = s.presence) ∧
    ((s.line.peer n).watch.on = true → (s.line.peer n).state = .joining →
      ∃ t : State, exec (.joinWatchExpiry n) s = .next t ∧
        t.line.peer n = { s.line.peer n with state := .present, watch := .stopped } ∧
        (∀ k, k ≠ n → t.line.peer k = s.line.peer k) ∧
        t.cfg = s.cfg ∧ t.cfgMem = s.cfgMem ∧ t.start.state = s.start.state ∧ t.presence = s.presence) ∧
    (s.head.owedDone = [] → s.cfg.roles = { blend := true, head := false, mark := false, paper := false } →
      s.cfg.inChute n = false → s.inv.table = [] → s.inv.phase = .idle → s.line.exchanges = [] →
      ((s.line.peer n).silence.on = true →
        exec (.silenceTimerExpiry n) s =
          .next (State.tryTransmit { s.report (Report.of .peerAbsent none none (some n) .absent) with
            blockChoice := if (s.line.peer n).state = .absent then s.blockChoice else s.blockChoice / 720,
            line := s.line.setPeer n
              { s.line.peer n with state := .absent, silence := .stopped, watch := .stopped } })) ∧
      ((s.line.peer n).watch.on = true → (s.line.peer n).state = .joining →
        exec (.joinWatchExpiry n) s =
          .next (State.tryTransmit { s.report (Report.of .peerPresent none none (some n) .absent) with
            blockChoice := s.blockChoice / 720,
            line := s.line.setPeer n { s.line.peer n with state := .present, watch := .stopped } })))

/-! ## The line unit (R1, R7 to R10, R14, R18) -/

/-- R1, R7, R8: the gap makes the line IDLE, and a waiting frame without a backoff begins; noise takes the gap away. A
slot of idle line counts a backoff down; at its end the transmission begins at once. That the gap is no event while the
station itself sends is read from the rules (log 3). R2: what the station drives is the front frame with its own number as
the source, and nothing while it does not send; that the output shows the frame whole is the model's choice (log 4). -/
def Obligations.LineIdleAndBackoff : Prop :=
  (∀ s : State, Ready s →
     (s.line.sending = false → (s.line.txq = [] ∨ s.line.backoff ≠ none) →
       exec .interframeGap s = .next { s with line := { s.line with cond := .idle, gap := true } }) ∧
     (s.line.sending = false → s.line.txq ≠ [] → s.line.backoff = none →
       exec .interframeGap s =
         .next { s with line := { s.line with cond := .busy, gap := false, sending := true,
                                              attempts := s.line.attempts + 1 } }) ∧
     (s.line.sending = true → exec .interframeGap s = .next s) ∧
     exec .noise s = .next { s with line := { s.line with cond := .busy, gap := false } }) ∧
  (∀ (s : State) (k : Nat), Ready s → s.line.sending = false → s.line.gap = true → s.line.backoff = some (k + 1) →
     (0 < k → exec .backoffSlot s = .next { s with line := { s.line with backoff := some k } }) ∧
     (k = 0 → s.line.txq ≠ [] →
       exec .backoffSlot s =
         .next { s with line := { s.line with backoff := none, cond := .busy, gap := false, sending := true,
                                              attempts := s.line.attempts + 1 } })) ∧
  (∀ s : State, s.canSend = true →
     (s.line.sending = false → s.outputs.shedLine = none) ∧
     (∀ (f : TxFrame) (q : List TxFrame), s.line.sending = true → s.line.txq = f :: q →
       s.outputs.shedLine = some (wholeFrame { dst := f.dst, src := s.cfg.number } f.msg)))

/-- R8, R9, R12: a collision ends the attempt. A frame asked back is removed; at the end of the budget the frame is
dropped and LINE_CONGESTED queued; otherwise the backoff is one of the numbers below 2^min(a, 6), which one is a free
value (log 8). -/
def Obligations.CollisionBacksOff : Prop :=
  ∀ (s : State) (f : TxFrame) (q : List TxFrame), Ready s → s.line.sending = true → s.line.txq = f :: q →
    (f.cancel = true →
      exec .collision s =
        .next { s with line := { s.line with cond := .busy, gap := false, sending := false, txq := q, attempts := 0,
                                             backoff := none } }) ∧
    (f.cancel = false → 12 * (1 + s.cfg.retryK) ≤ s.line.attempts → (f.tag = .plain ∨ f.tag = .presence) →
      exec .collision s =
        .next { s.report (Report.of .lineCongested none none none (.code .budget)) with
          line := { s.line with cond := .busy, gap := false, sending := false, txq := q, attempts := 0,
                                backoff := none } }) ∧
    (f.cancel = false → s.line.attempts < 12 * (1 + s.cfg.retryK) →
      ∃ d : Nat, d < 2 ^ min s.line.attempts 6 ∧
        exec .collision s =
          .next { s with
            draws := s.draws + 1,
            line := { s.line with cond := .busy, gap := false, sending := false,
                                  backoff := if d = 0 then none else some d } })

/-- R10, R14, R18: a completed frame leaves the queue; a broadcast restarts the presence timer, and the frame of an
exchange starts its confirm timer. A station's own frames take effect at their completion. R30, R33: CLAIM fixes the
consent set and opens the window, or makes the claim firm where no other blender is present. R32, R35, R49, R136, R159:
a HEADER is applied to the owner's own copy: the one that opens the invoice makes the order's claim firm, the one that
closes it books its voids, the one that retires it frees the entry and joins the retired list. R35: CHEST-ENTERED
enters its chest in the own copy. R43: ADOPT makes the station owner, and it ends an OPEN invoice with cause
OWNER_LOST. R76: the order in MIXING is bound to its batch. R100, R184: JOIN starts the join period, and a blender
tells every head that it restarted. That a broadcast before any JOIN has completed starts the presence timer too is the
model's choice (log 66), as is the block order used up (log 6). -/
def Obligations.FrameCompletes : Prop :=
  (∀ (s : State) (f : TxFrame) (q : List TxFrame) (n : Nat) (b : ClaimBody) (l : List Nat), Completes s f q →
    f.tag = .claim n → f.msg = .claim b →
    (s.inv.phase = .queued n false l → s.consentSet ≠ [] →
      exec .frameComplete s =
        .next { s.sent q with
          inv := { s.inv with phase := .window n false s.consentSet, claimWindow := .running 400 } }) ∧
    (s.inv.phase = .queued n true l → l ≠ [] →
      exec .frameComplete s =
        .next { s.sent q with inv := { s.inv with phase := .window n true l, claimWindow := .running 400 } }) ∧
    (∀ o : OwnerRec, s.inv.phase = .queued n false l → s.consentSet = [] → s.inv.owned n = some o →
      o.resendDelay = .stopped → o.issued < Config.maxVersion → q.length < Config.txPlaces →
      ∃ h : Header, h = { o.view.hdr with state := .opened, version := o.issued + 1 } ∧
        exec .frameComplete s =
          .next { (s.sent q).queues (jobFrame 0 (headerMsg h false none) (.versioned n (o.issued + 1))) with
            inv := { s.inv.updOwn n (fun y => { y with issued := o.issued + 1, view := { o.view with hdr := h } }) with
              phase := .firm n, claimWindow := .stopped } })) ∧
  (∀ (s : State) (f : TxFrame) (q : List TxFrame) (n v : Nat) (b : HeaderBody) (x : Entry) (o : OwnerRec),
    Completes s f q → f.tag = .versioned n v → f.msg = .header b → s.cfg.roles.mark = false →
    s.cfg.roles.paper = false → s.inv.phase ≠ .waitFree → s.inv.find n = some x → x.own = some o → o.ahead = [] →
    lowerOut (s.sent q) o n v = false →
    ((b.hdr.state = .ending ∨ b.hdr.state = .marking ∨ (b.hdr.state = .opened ∧ x.data.hdr.state ≠ .claimed)) →
      exec .frameComplete s =
        .next { s.sent q with
          inv := s.inv.upd n (fun y => { y with data := { y.data with
            hdr := { b.hdr with inv := n }, voids := x.data.voids ++ b.newVoid.toList } }) }) ∧
    (∀ p : Order, b.hdr.state = .opened → x.data.hdr.state = .claimed → s.inv.phase = .firm n →
      s.cfg.roles.blend = true → s.blend.state = .mixing → s.blend.order = some p →
      exec .frameComplete s =
        .next { (s.sent q).report (Report.of .claimFirm (some n) none none .absent) with
          inv := { s.inv.upd n (fun y => { y with data := { y.data with
              hdr := { b.hdr with inv := n }, voids := x.data.voids ++ b.newVoid.toList } }) with
            phase := .idle, req := none },
          blend := { s.blend with order := some { p with claim := .firm, batch := some n } } }) ∧
    (b.hdr.state = .closed → x.data.hdr.state ≠ .closed → s.cfg.roles.blend = true →
      exec .frameComplete s =
        .next { s.sent q with
          inv := s.inv.upd n (fun y => { y with
            data := { y.data with hdr := { b.hdr with inv := n }, voids := x.data.voids ++ b.newVoid.toList },
            own := y.own.map (fun o => { o with fills := [], short := none }) }),
          blend := if b.hdr.batch = s.self ∧ 0 < b.hdr.voidTotal then
              { s.blend with
                book := s.blend.book.setIfInBounds b.hdr.grade {
                  weight := min ((s.blend.bookOf b.hdr.grade).weight + b.hdr.voidTotal) 500000,
                  count := min ((s.blend.bookOf b.hdr.grade).count + 1) 255 } }
            else s.blend }) ∧
    (b.hdr.state = .retired → s.blend.batchInv ≠ some n → s.inv.retired.length < 4 →
      exec .frameComplete s =
        .next { s.sent q with
          inv := { s.inv with
            table := s.inv.table.filter (fun y => y.num != n),
            retired := s.inv.retired ++ [{ inv := n, version := b.hdr.version, frame := b }] } })) ∧
  (∀ (s : State) (f : TxFrame) (q : List TxFrame) (n v : Nat) (b : ChestEnteredBody) (x : Entry) (o : OwnerRec),
    Completes s f q → f.tag = .versioned n v → f.msg = .chestEntered b → s.cfg.roles.head = false →
    s.cfg.roles.mark = false → s.cfg.roles.paper = false → s.inv.phase ≠ .waitFree → s.inv.find n = some x →
    x.own = some o → o.ahead = [] → lowerOut (s.sent q) o n v = false → b.short = false →
    exec .frameComplete s =
      .next { s.sent q with
        blockChoice := s.blockChoice / 720,
        inv := s.inv.upd n (fun y => { y with data := (y.data.addChest (enteredChest b)).atVersion v }) }) ∧
  (∀ (s : State) (f : TxFrame) (q : List TxFrame) (n : Nat) (b : AdoptBody) (x : Entry) (r : Rec), Completes s f q →
    f.tag = .adopt n → f.msg = .adopt b → b.forced = false → s.cfg.roles.mark = false → s.cfg.roles.paper = false →
    s.inv.phase ≠ .waitFree → s.inv.find n = some x → x.own = none → s.blend.batchInv ≠ some n →
    s.head.chestInv ≠ some n →
    r = { x.data with hdr := { x.data.hdr with version := b.version, owner := s.self, adoption := .plain } } →
    (x.data.hdr.state = .ending →
      exec .frameComplete s =
        .next { (s.sent q).report (Report.of .adopted (some n) none (some b.oldOwner) .absent) with
          inv := s.inv.upd n (fun _ => { x with
            data := r, copy := .complete, orphan := false, adoptT := .stopped, closedT := .stopped, askT := .stopped,
            rebuildT := .stopped, staleT := .stopped, rebuild := none,
            own := some { OwnerRec.start r with settle := .running 500 } }) }) ∧
    (x.data.hdr.state = .opened → b.version < Config.maxVersion → q.length < Config.txPlaces →
      ∃ h : Header, h = { r.hdr with state := .ending, endCause := some .ownerLost, version := b.version + 1 } ∧
        exec .frameComplete s =
          .next { ((s.sent q).queues (jobFrame 0 (headerMsg h false none) (.versioned n (b.version + 1)))).report
              (Report.of .adopted (some n) none (some b.oldOwner) .absent) with
            inv := s.inv.upd n (fun _ => { x with
              data := r, copy := .complete, orphan := false, adoptT := .stopped, closedT := .stopped, askT := .stopped,
              rebuildT := .stopped, staleT := .stopped, rebuild := none,
              own := some { OwnerRec.start r with
                issued := b.version + 1, view := { r with hdr := h }, settle := .running 500 } }) })) ∧
  (∀ (s : State) (f : TxFrame) (q : List TxFrame) (b : JoinBody), Completes s f q → f.tag = .join → f.msg = .join b →
    s.start.state = .joining → s.cfg.roles = { blend := true, head := false, mark := false, paper := false } →
    s.inv.phase ≠ .waitFree → q.length < Config.txPlaces →
    exec .frameComplete s =
      .next { (s.sent q).queues (jobFrame 0 (.leaseEnd { lease := 0, reason := .blenderRestart }) .plain) with
        blockChoice := s.blockChoice / 720,
        start := { s.start with joinT := .running s.peerTimeout, retryT := .stopped } }) ∧
  ∀ (s : State) (f : TxFrame) (q : List TxFrame), Ready s → s.line.sending = true → s.line.txq = f :: q →
    (∀ b : PresenceBody, f.tag = .presence → f.dst = 0 → f.msg = .presence b → s.inv.phase ≠ .waitFree →
      exec .frameComplete s =
        .next { s with line := { s.line with cond := .busy, gap := false, sending := false, txq := q, attempts := 0,
                                             backoff := none, presence := .running 200 } }) ∧
    (∀ id : Nat, f.tag = .exch id → f.dst ≠ 0 → f.dst ≠ s.self →
      exec .frameComplete s =
        .next { s with line := { s.line with
          cond := .busy, gap := false, sending := false, txq := q, attempts := 0, backoff := none,
          exchanges := s.line.exchanges.map (fun (x : Exchange) => if x.id = id then { x with timer := .running 80 } else x) } })

/-- R13, R14, R16: an expired confirm timer sends the frame again up to three times; after that a patient exchange waits
with its timer stopped, and another fails with EXCHANGE_FAILED. What else the failure does: R97, the lease of a grant is
freed with LEASE_LOST and LEASE-END(HEAD_ABSENT), unless its number is retired; R153, the lane of the PRINTED chest is
MARK_UNCONFIRMED, with the mark answer as cause where one was noted, whatever entry of the pair another lane holds; where both
lanes hold the pair PRINTED, both are, lane 1 first (the model's choice, log 119); R170, the taking of a sheet leaves the set.
R18: an expired presence timer starts again and queues one PRESENCE where none is queued. -/
def Obligations.ConfirmAndPresenceTimers : Prop :=
  (∀ (s : State) (k : ExKey) (x : Exchange), Ready s →
     s.line.exchanges.find? (fun y => y.key == k && y.timer.on) = some x →
     (x.resends < 3 → JobRoom s →
       exec (.confirmTimerExpiry k) s =
         .next (State.tryTransmit ({ s with line := { s.line with exchanges := s.line.exchanges.map (fun (y : Exchange) =>
             if y.id = x.id then { y with resends := y.resends + 1, timer := .stopped } else y) } }.queues
           (jobFrame x.dst x.msg (.exch x.id))))) ∧
     (3 ≤ x.resends → x.patient = true →
       exec (.confirmTimerExpiry k) s =
         .next (State.tryTransmit { s with line := { s.line with exchanges := s.line.exchanges.map (fun (y : Exchange) =>
             if y.id = x.id then { y with timer := .stopped } else y) } })) ∧
     (∀ t : Nat, 3 ≤ x.resends → x.patient = false → k = .leaseCancel t →
       exec (.confirmTimerExpiry k) s =
         .next (State.tryTransmit { s.report (Report.of .exchangeFailed x.invoice none (some x.peer) (.code .noConfirm)) with
           line := { s.line with exchanges := s.line.exchanges.filter (fun (y : Exchange) => y.id != x.id) } }))) ∧
  (∀ (s t : State) (k : ExKey) (x : Exchange), Ready s →
     s.line.exchanges.find? (fun y => y.key == k && y.timer.on) = some x → 3 ≤ x.resends → x.patient = false →
     t = { s.report (Report.of .exchangeFailed x.invoice none (some x.peer) (.code .noConfirm)) with
       line := { s.line with exchanges := s.line.exchanges.filter (fun (y : Exchange) => y.id != x.id) } } →
     (∀ n : Nat, k = .leaseGrant n → s.cfg.roles.blend = true →
       (s.arb.current.all (fun l => l.number != n) = true → s.arb.next.all (fun l => l.number != n) = true →
         exec (.confirmTimerExpiry k) s = .next (State.tryTransmit t)) ∧
       (∀ l : Lease, JobRoom s → s.arb.queue = [] → s.arb.current = some l → l.number = n → s.arb.next = none →
         exec (.confirmTimerExpiry k) s =
           .next (State.tryTransmit { (t.report (Report.of .leaseLost (some l.inv) none (some l.head) .absent)).queues
               (jobFrame l.head (.leaseEnd { lease := n, reason := .headAbsent }) .plain) with
             arb := { s.arb with current := none, gate := false } })) ∧
       (∀ m l : Lease, JobRoom s → s.arb.queue = [] → s.arb.current = some m → m.number ≠ n → s.arb.next = some l →
         l.number = n →
         exec (.confirmTimerExpiry k) s =
           .next (State.tryTransmit { (t.report (Report.of .leaseLost (some l.inv) none (some l.head) .absent)).queues
               (jobFrame l.head (.leaseEnd { lease := n, reason := .headAbsent }) .plain) with
             arb := { s.arb with next := none } }))) ∧
     (∀ (n o j : Nat) (e : LaneEntry), k = .markDone n o → s.cfg.roles.mark = true → s.mark.arrivals = [] →
       (s.mark.plate s.mark.compose).cond = .empty → j ∈ s.cfg.lanes → (s.mark.lane j).find n o = some e →
       e.state = .printed →
       ((∀ i ∈ s.cfg.lanes, i ≠ j → ((s.mark.lane i).find n o).all (fun d => d.state != .printed) = true) →
         exec (.confirmTimerExpiry k) s =
           .next (State.tryTransmit { t.report (s.unconfirmedReport n o j e) with
             mark := s.mark.setLane j (fun l => { l with unconfirmed := true }) })) ∧
       (∀ d : LaneEntry, j = 1 → 2 ∈ s.cfg.lanes → (s.mark.lane 2).find n o = some d → d.state = .printed →
         exec (.confirmTimerExpiry k) s =
           .next (State.tryTransmit { (t.report (s.unconfirmedReport n o 1 e)).report (s.unconfirmedReport n o 2 d) with
             mark := { s.mark with
               lane1 := { s.mark.lane1 with unconfirmed := true },
               lane2 := { s.mark.lane2 with unconfirmed := true } } }))) ∧
     (∀ n : Nat, k = .sheetTaken n → s.cfg.roles.paper = true →
       exec (.confirmTimerExpiry k) s =
         .next (State.tryTransmit { t with
           paper := { s.paper with taking := s.paper.taking.filter (fun y => y.inv != n) } }))) ∧
  (∀ s : State, Ready s → s.line.presence.on = true →
     (s.line.presenceQueued = true →
       exec .presenceTimerExpiry s = .next (State.tryTransmit { s with line := { s.line with presence := .running 200 } })) ∧
     (s.line.presenceQueued = false → JobRoom s →
       exec .presenceTimerExpiry s =
         .next (State.tryTransmit ({ s with line := { s.line with presence := .running 200 } }.queues
           (jobFrame 0 s.presenceMsg .presence)))))

/-! ## Timers of the invoice unit (R33, R35, R36, R39, R40, R43) -/

/-- R33: the first claim window repeats the CLAIM; the second withdraws it, reports NO_CONSENT and waits 2 s, after
which the request is claimed again. -/
def Obligations.ClaimTimers : Prop :=
  ∀ s : State, Ready s → s.line.txq.length + 1 < Config.txPlaces →
    (∀ (n : Nat) (l : List Nat) (x : Entry), s.inv.phase = .window n false l → s.inv.claimWindow.on = true →
      s.inv.find n = some x →
      exec .claimWindowExpiry s =
        .next (State.tryTransmit { s.queues (jobFrame 0 (.claim
            { inv := n, order := x.data.hdr.order, grade := x.data.hdr.grade, garden := x.data.hdr.garden,
              net := x.data.hdr.charged }) (.claim n)) with
          inv := { s.inv with phase := .queued n true l, claimWindow := .stopped } })) ∧
    (∀ (n : Nat) (l : List Nat), s.cfg.roles.mark = false → s.cfg.roles.paper = false →
      s.blend.batchInv ≠ some n → s.line.txq.all (fun f => f.tag != .claim n) = true →
      s.inv.phase = .window n true l → s.inv.claimWindow.on = true →
      exec .claimWindowExpiry s =
        .next (State.tryTransmit { (s.queues (jobFrame 0 (.withdraw n) .withdraw)).report
            (Report.of .claimStalled (some n) none none (.code .noConsent)) with
          inv := { s.inv with table := s.inv.table.filter (fun y => y.num != n), claimWindow := .stopped,
                              phase := .retry, claimRetry := .running 2000 } })) ∧
    (∀ q : ClaimReq, s.inv.phase = .retry → s.inv.claimRetry.on = true → s.inv.req = some q → s.isActive = true →
      s.inv.table.length < Config.tableEntries → s.inv.mark < s.cfg.last →
      exec .claimRetryDelayExpiry s =
        .next (State.tryTransmit { s.queues (jobFrame 0 (.claim
            { inv := s.inv.mark + 1, order := q.order, grade := q.grade, garden := q.garden, net := q.charged })
            (.claim (s.inv.mark + 1))) with
          inv := { s.inv with
            mark := s.inv.mark + 1, claimRetry := .stopped, phase := .queued (s.inv.mark + 1) false [],
            table := s.inv.table ++
              [{ Entry.made (s.claimHeader (s.inv.mark + 1) s.self q.order q.grade q.charged q.garden) .complete with
                  own := some (OwnerRec.start (Entry.made
                    (s.claimHeader (s.inv.mark + 1) s.self q.order q.grade q.charged q.garden) .complete).data) }] } }))

/-- R36, R37, R39, R40: a STALE copy asks its PRESENT owner again, and the timer kept for the number while it was not held is
over with that expiry (the model's choice, log 96); an interrupted rebuild goes back to STALE and asks; a
CLOSED copy asks after its closed timer, which starts again. -/
def Obligations.CopyTimers : Prop :=
  ∀ (s : State) (n : Nat) (x : Entry), Ready s → JobRoom s → s.inv.phase ≠ .waitFree → s.inv.find n = some x →
    x.own = none →
    (x.askT.on = true → x.copy = .stale → s.present x.data.hdr.owner = true →
      exec (.askTimerExpiry n) s =
        .next (State.tryTransmit { s.queues (jobFrame x.data.hdr.owner (.recordAsk n) (.ask n)) with
          inv := { s.inv.upd n (fun y => { y with askT := .running 500 }) with
            askOther := s.inv.askOther.filter (fun m => m != n) } })) ∧
    (x.askT.on = true → x.copy = .complete →
      exec (.askTimerExpiry n) s =
        .next (State.tryTransmit { s with
          inv := { s.inv.upd n (fun y => { y with askT := .stopped }) with
            askOther := s.inv.askOther.filter (fun m => m != n) } })) ∧
    (s.cfg.roles.mark = false → s.cfg.roles.paper = false → x.copy = .rebuilding → x.rebuildT.on = true →
      x.askT = .stopped → x.orphan = false →
      exec (.rebuildTimerExpiry n) s =
        .next (State.tryTransmit { s.queues (jobFrame x.data.hdr.owner (.recordAsk n) (.ask n)) with
          inv := s.inv.upd n (fun y =>
            { y with copy := .stale, rebuildT := .stopped, askT := .running 500 }) })) ∧
    (x.closedT.on = true → x.data.hdr.state = .closed → s.cfg.roles.paper = false →
      s.absent x.data.hdr.owner = false →
      exec (.closedTimerExpiry n) s =
        .next (State.tryTransmit { s.queues (jobFrame x.data.hdr.owner (.recordAsk n) (.ask n)) with
          inv := s.inv.upd n (fun y => { y with closedT := .running 10000, askT := .running 500 }) }))

/-- R35, R43, R134, R135: the adoption delay of an eligible station queues its ADOPT; the settle timer of an adopted
invoice that waits for nothing else moves it to MARKING; frames held for a re-send are queued again. R45, R47: what
Inv.resume does to an owned invoice of any table: where a station of a lower number sent a frame at the issued version, this
station yields to the lowest such number; where all were higher, it issues a HEADER and then HEADER(RESUMED) (that both go out
is the model's inference, and that the lowest decides its choice, log 51); with none, HEADER(RESUMED) alone comes first. R47,
R137, R158, R185: JOIN_PERIOD_END itself, at a station of the BLEND role alone whose table holds one invoice, its own: behind
PRESENCE it queues RECORD-ASK to the new owner where it yields, the two HEADERs where it keeps the invoice against others, and
HEADER(RESUMED) alone without a conflict; then the owner's tests move an invoice in ENDING with no fill to MARKING, a settle
timer counting as expired and its OUTSTANDING fill as lost, and close one in MARKING whose chests are all marked. That the
HEADER of a lost fill is queued also where the count stands at 255 and cannot rise is the model's choice (log 94). R20: in each
PEER_PRESENT reports the own entry. The block orders used up are the model's (log 6). -/
def Obligations.OwnerTimers : Prop :=
  (∀ (s : State) (n : Nat), Ready s → JobRoom s → s.inv.phase ≠ .waitFree →
    (∀ x : Entry, s.inv.find n = some x → x.adoptT.on = true → x.orphan = true → s.eligible x = true → x.own = none →
      s.adoptQueued n = false → x.data.hdr.version < Config.maxVersion →
      exec (.adoptionDelayExpiry n) s =
        .next (State.tryTransmit { s.queues (jobFrame 0 (.adopt
            { inv := n, oldOwner := x.data.hdr.owner, version := x.data.hdr.version + 1, forced := false })
            (.adopt n)) with
          inv := s.inv.upd n (fun y => { y with adoptT := .stopped }) })) ∧
    (∀ o : OwnerRec, s.inv.owned n = some o → o.settle.on = true → s.isJoining = false → o.fills = [] →
      o.view.hdr.state ≠ .ending →
      exec (.settleTimerExpiry n) s =
        .next (State.tryTransmit { s with inv := s.inv.updOwn n (fun y => { y with settle := .stopped }) })) ∧
    (∀ o : OwnerRec, s.inv.owned n = some o → o.settle.on = true → s.isJoining = false → o.fills = [] →
      o.short = none → o.view.hdr.state = .ending → o.issued < Config.maxVersion → o.resendDelay = .stopped →
      o.view.chests.any (fun c => c.stencil == .pending) = true →
      ∃ (i : Inv) (h : Header), h = { o.view.hdr with state := .marking, version := o.issued + 1 } ∧
        exec (.settleTimerExpiry n) s =
          .next (State.tryTransmit
            { s.queues (jobFrame 0 (headerMsg h false none) (.versioned n (o.issued + 1))) with inv := i }) ∧
        i = { s.inv with table := i.table } ∧ (∀ k, k ≠ n → i.find k = s.inv.find k) ∧
        i.owned n = some { o with issued := o.issued + 1, view := { o.view with hdr := h }, settle := .stopped }) ∧
    (∀ (o : OwnerRec) (f : TxFrame), s.inv.owned n = some o → o.resendDelay.on = true → o.resend = [f] →
      f.reply = false →
      exec (.versionedResendDelayExpiry n) s =
        .next (State.tryTransmit { s.queues f with
          inv := s.inv.updOwn n (fun y => { y with resend := [], resendDelay := .stopped }) }))) ∧
  (∀ (i : Inv) (s : State) (n : Nat) (x : Entry) (o : OwnerRec), i.phase = .idle → i.find n = some x → x.own = some o →
    (∀ c : Nat, c ∈ o.conflicts → (∀ d ∈ o.conflicts, c ≤ d) →
      (c < s.self → x.askT = .stopped → x.orphan = false →
        (i.resume s n).st.find n = some { x with
          own := none, copy := .stale, askT := .running 500,
          data := { x.data with hdr := { x.data.hdr with owner := c } } } ∧
        (i.resume s n).acts = [.unsend (.versionedAll n), .send (jobFrame c (.recordAsk n) (.ask n))] ++
          ownerNotice n ++ copyNotice n) ∧
      (s.self < c → o.issued + 2 ≤ Config.maxVersion → o.resendDelay = .stopped →
        ∃ (h : Header) (l : List Act), h = { o.view.hdr with version := o.issued + 1, owner := s.self } ∧
          (i.resume s n).acts =
            [.send (jobFrame 0 (headerMsg h false none) (.versioned n (o.issued + 1))),
             .send (jobFrame 0 (headerMsg { h with version := o.issued + 2 } true none) (.versioned n (o.issued + 2)))] ++
              l)) ∧
    (o.conflicts = [] → o.issued < Config.maxVersion → o.resendDelay = .stopped →
      ∃ (h : Header) (l : List Act), h = { o.view.hdr with version := o.issued + 1, owner := s.self } ∧
        (i.resume s n).acts = .send (jobFrame 0 (headerMsg h true none) (.versioned n (o.issued + 1))) :: l)) ∧
  (∀ (s : State) (n : Nat) (x : Entry) (o : OwnerRec) (h : Header), JoinEnds s 4 →
    s.cfg.roles = { blend := true, head := false, mark := false, paper := false } → s.blend.batchInv = none →
    s.inv.table = [x] → x.num = n → x.own = some o → s.inv.phase = .idle → s.inv.withdrawOwed = [] →
    o.resendDelay = .stopped → h = { o.view.hdr with owner := s.self } → o.issued + 3 ≤ Config.maxVersion →
    (∀ c : Nat, c ∈ o.conflicts → (∀ d ∈ o.conflicts, c ≤ d) →
      (c < s.self → x.askT = .stopped → x.orphan = false →
        s.line.txq.all (fun f => !(Unsend.versionedAll n).hits f) = true →
        exec .joinPeriodEnd s =
          .next (State.tryTransmit { s.joined.queues (jobFrame c (.recordAsk n) (.ask n)) with
            inv := { s.inv with table := [{ x with
              own := none, copy := .stale, askT := .running 500,
              data := { x.data with hdr := { x.data.hdr with owner := c } } }] } })) ∧
      (s.self < c → o.settle = .stopped → o.view.hdr.state = .opened →
        exec .joinPeriodEnd s =
          .next (State.tryTransmit
            { (s.joined.queues (jobFrame 0 (headerMsg { h with version := o.issued + 1 } false none)
                (.versioned n (o.issued + 1)))).queues
              (jobFrame 0 (headerMsg { h with version := o.issued + 2 } true none) (.versioned n (o.issued + 2))) with
              inv := { s.inv with table := [{ x with own := some { o with
                issued := o.issued + 2, conflicts := [],
                view := { o.view with hdr := { h with version := o.issued + 2 } } } }] } }))) ∧
    (o.conflicts = [] → o.settle = .stopped → o.view.hdr.state = .opened →
      exec .joinPeriodEnd s =
        .next (State.tryTransmit
          { s.joined.queues (jobFrame 0 (headerMsg { h with version := o.issued + 1 } true none)
              (.versioned n (o.issued + 1))) with
            inv := { s.inv with table := [{ x with own := some { o with
              issued := o.issued + 1, view := { o.view with hdr := { h with version := o.issued + 1 } } } }] } })) ∧
    (o.conflicts = [] → o.view.hdr.state = .ending → o.fills = [] → o.short = none →
      o.view.chests.any (fun c => c.stencil == .pending) = true →
      exec .joinPeriodEnd s =
        .next (State.tryTransmit
          { (s.joined.queues (jobFrame 0 (headerMsg { h with version := o.issued + 1 } true none)
              (.versioned n (o.issued + 1)))).queues
            (jobFrame 0 (headerMsg { h with version := o.issued + 2, state := .marking } false none)
              (.versioned n (o.issued + 2))) with
            inv := { s.inv with table := [{ x with own := some { o with
              issued := o.issued + 2, settle := .stopped,
              view := { o.view with hdr := { h with version := o.issued + 2, state := .marking } } } }] } })) ∧
    (∀ (f : Fill) (g : Header), o.conflicts = [] → o.view.hdr.state = .ending → o.settle.on = true → o.fills = [f] →
      f.lost = false → o.short = none → o.view.chests.any (fun c => c.stencil == .pending) = true →
      g = { h with lostFills := min (h.lostFills + 1) 255 } →
      exec .joinPeriodEnd s =
        .next (State.tryTransmit
          { ((s.joined.queues (jobFrame 0 (headerMsg { h with version := o.issued + 1 } true none)
              (.versioned n (o.issued + 1)))).queues
            (jobFrame 0 (headerMsg { g with version := o.issued + 2 } false none) (.versioned n (o.issued + 2)))).queues
            (jobFrame 0 (headerMsg { g with version := o.issued + 3, state := .marking } false none)
              (.versioned n (o.issued + 3))) with
            inv := { s.inv with table := [{ x with own := some { o with
              issued := o.issued + 3, settle := .stopped, fills := [{ f with lost := true }],
              view := { o.view with hdr := { g with version := o.issued + 3, state := .marking } } } }] } })) ∧
    (o.conflicts = [] → o.settle = .stopped → o.view.hdr.state = .marking →
      o.view.chests.all (fun c => c.stencil != .pending) = true →
      exec .joinPeriodEnd s =
        .next (State.tryTransmit
          { (s.joined.queues (jobFrame 0 (headerMsg { h with version := o.issued + 1 } true none)
              (.versioned n (o.issued + 1)))).queues
            (jobFrame 0 (headerMsg { h with version := o.issued + 2, state := .closed } false none)
              (.versioned n (o.issued + 2))) with
            inv := { s.inv with table := [{ x with own := some { o with
              issued := o.issued + 2,
              view := { o.view with hdr := { h with version := o.issued + 2, state := .closed } } } }] } })))

/-! ## Weighing (R51 to R56) -/

/-- R52: the working weight is the distance of the averaged count from the zero count, times the span, over 65536
rounded toward zero, held within −500000 and 500000. -/
def Obligations.CalibrationConverts : Prop :=
  ∀ (zero avg : Int) (span : Nat),
    (0 ≤ avg - zero →
      calibrate zero span avg = min 500000 ((avg - zero) * (span : Int) / 65536)) ∧
    (avg - zero < 0 →
      calibrate zero span avg = max (-500000) (-(((zero - avg) * (span : Int)) / 65536))) ∧
    -500000 ≤ calibrate zero span avg ∧ calibrate zero span avg ≤ 500000

/-- R54: the stability test on a new averaged weight; what empties the window clears it, and a zero re-taken at a head
moves its reference. -/
def Obligations.StabilityDecides : Prop :=
  ∀ (f : FrontEnd) (band : Nat) (v : Int),
    (∀ r : Int, f.ref = some r → (v - r).natAbs ≤ band → f.count < 12 →
      f.stability band v = { f with count := f.count + 1, stable := decide (f.count + 1 = 12) }) ∧
    (∀ r : Int, f.ref = some r → (v - r).natAbs ≤ band → f.count = 12 →
      f.stability band v = { f with count := 12, stable := true }) ∧
    ((f.ref = none ∨ ∃ r : Int, f.ref = some r ∧ band < (v - r).natAbs) →
      f.stability band v = { f with ref := some v, count := 1, stable := false }) ∧
    f.emptied = { f with window := [], avg := none, weight := none, ref := none, count := 0, stable := false } ∧
    ∀ avg w : Int, f.zeroed avg w = { f with zero := avg, weight := some 0, ref := f.ref.map (fun r => r - w) }

/-- R53, R55, R56: what one accepted sample does to a front end that is not at a head: beyond limits it sets OVERLOAD
and empties the window, or changes nothing more; within limits it clears OVERLOAD and joins the window of the latest
four, whose average is weighed once it is full. R59: at a head whose tracking is permitted a stable weight from −50 to 50
re-takes the zero at the averaged count; at a blender, and at any other weight, it does not. Overload and a window that is
not full are the same at a head. -/
def Obligations.SampleJoinsWindow : Prop :=
  (∀ (f g : FrontEnd) (cfg : Cfg) (c a b d : Int), c ≤ (cfg.overload : Int) → -(cfg.overload : Int) ≤ c →
    (f.window = [a, b, d] ∨ ∃ z : Int, f.window = [z, a, b, d]) →
    g = FrontEnd.stability { f with
      window := [a, b, d, c], avg := some ((a + b + d + c).tdiv 4),
      weight := some (calibrate f.zero cfg.span ((a + b + d + c).tdiv 4)), overload := false, lost := false,
      loss := .running 100 } cfg.band (calibrate f.zero cfg.span ((a + b + d + c).tdiv 4)) →
    ((f.tracking = true ∧ g.stable = true ∧ -50 ≤ calibrate f.zero cfg.span ((a + b + d + c).tdiv 4) ∧
        calibrate f.zero cfg.span ((a + b + d + c).tdiv 4) ≤ 50) →
      f.accept cfg true c =
        ({ g with
            zero := (a + b + d + c).tdiv 4, weight := some 0,
            ref := g.ref.map (fun r => r - calibrate f.zero cfg.span ((a + b + d + c).tdiv 4)) }, true)) ∧
    ((f.tracking = false ∨ g.stable = false ∨ calibrate f.zero cfg.span ((a + b + d + c).tdiv 4) < -50 ∨
        50 < calibrate f.zero cfg.span ((a + b + d + c).tdiv 4)) →
      f.accept cfg true c = (g, false))) ∧
  (∀ (f : FrontEnd) (cfg : Cfg) (c : Int),
    ((c > (cfg.overload : Int) ∨ c < -(cfg.overload : Int)) → f.overload = false →
      f.accept cfg true c = ({ f.emptied with overload := true, lost := false, loss := .running 100 }, false)) ∧
    ((c > (cfg.overload : Int) ∨ c < -(cfg.overload : Int)) → f.overload = true →
      f.accept cfg true c = ({ f with lost := false, loss := .running 100 }, false)) ∧
    (c ≤ (cfg.overload : Int) → -(cfg.overload : Int) ≤ c → f.window.length < 3 →
      f.accept cfg true c =
        ({ f with window := f.window ++ [c], overload := false, lost := false, loss := .running 100 }, false))) ∧
  ∀ (f : FrontEnd) (cfg : Cfg) (c : Int),
    ((c > (cfg.overload : Int) ∨ c < -(cfg.overload : Int)) → f.overload = false →
      (f.accept cfg false c).1 =
        { f.emptied with overload := true, lost := false, loss := .running 100 }) ∧
    ((c > (cfg.overload : Int) ∨ c < -(cfg.overload : Int)) → f.overload = true →
      (f.accept cfg false c).1 = { f with lost := false, loss := .running 100 }) ∧
    (c ≤ (cfg.overload : Int) → -(cfg.overload : Int) ≤ c → f.window.length < 3 →
      (f.accept cfg false c).1 =
        { f with window := f.window ++ [c], overload := false, lost := false, loss := .running 100 }) ∧
    (∀ a b d : Int, c ≤ (cfg.overload : Int) → -(cfg.overload : Int) ≤ c →
      (f.window = [a, b, d] ∨ ∃ z : Int, f.window = [z, a, b, d]) →
      (f.accept cfg false c).1 =
        FrontEnd.stability { f with
          window := [a, b, d, c], avg := some ((a + b + d + c).tdiv 4),
          weight := some (calibrate f.zero cfg.span ((a + b + d + c).tdiv 4)), overload := false, lost := false,
          loss := .running 100 } cfg.band (calibrate f.zero cfg.span ((a + b + d + c).tdiv 4)))

/-- R51, R56, R57: a word whose check is wrong or which is cut short changes nothing; an accepted sample, and the loss
timer, change the front end and hand one reading to the user. The station is a blender that is IDLE. -/
def Obligations.ReadingsHandedOn : Prop :=
  ∀ (s : State) (word : BitVec 32) (bits ms : Nat), Ready s → s.cfg.roles.blend = true → s.cfg.roles.head = false →
    s.blend.state = .idle →
    (sampleCount word bits = none → exec (.sample word bits ms) s = .next s.tryTransmit) ∧
    (∀ c : Int, sampleCount word bits = some c →
      exec (.sample word bits ms) s =
        .next (State.tryTransmit { s with
          fe := (s.fe.accept s.cfg false c).1,
          blend := { s.blend with
            last := some (readingOf s.fe (s.fe.accept s.cfg false c).1 (s.fe.accept s.cfg false c).2) } })) ∧
    (s.fe.loss.on = true →
      exec .lossTimerExpiry s =
        .next (State.tryTransmit { s with
          fe := { s.fe with window := [], avg := none, weight := none, ref := none, count := 0, stable := false,
                            lost := true, loss := .stopped },
          blend := { s.blend with
            last := some { weight := none, stable := false, becameStable := false, becameUnstable := s.fe.stable,
                           overload := s.fe.overload, overloadMark := false, lost := true, lostMark := !s.fe.lost,
                           zeroTaken := false } } }))

/-! ## The drum (R65, R71 to R77) -/

/-- R71, R74, R75, R77, R87: starvation holds a draw with cause SHORTFALL; a stalled drum is held with cause MIX_STALL;
each turn counts and restarts the stall timer, and the last one leads to WAIT_CLAIM, or to DISCHARGING on a firm claim, of
which the arbiter is told at once, but during the join period only at its end. -/
def Obligations.DrumTimersAndTurns : Prop :=
  ∀ (s : State) (o : Order), Ready s → s.cfg.roles.blend = true → s.blend.order = some o →
    (∀ (k : Nat) (c : Comp), s.blend.state = .charging → s.blend.starve.on = true → o.cur = some k →
      o.comps[k]? = some c → s.blend.stableNow = none →
      exec .starveTimerExpiry s =
        .next (State.tryTransmit { s.report (Report.of .shortfall none (some (k + 1)) none (.number c.bin)) with
          blend := { s.blend with
            state := .held, held := some .shortfall, gate := none, starve := .stopped,
            order := some { o with draw := .settling,
                                   comps := o.comps.modify k (fun c => { c with state := .shortfall }) } } })) ∧
    (s.blend.state = .mixing → s.blend.stall.on = true →
      exec .stallTimerExpiry s =
        .next (State.tryTransmit { s.report (Report.of .mixStall none none none (.number o.turns)) with
          blend := { s.blend with state := .held, held := some .mixStall, stall := .stopped } })) ∧
    (s.blend.state = .mixing → s.blend.stop = none → o.turns + 1 < o.mix →
      exec .drumTurnPulse s =
        .next (State.tryTransmit { s with
          blend := { s.blend with order := some { o with turns := o.turns + 1 }, stall := .running 10000 } })) ∧
    (s.blend.state = .mixing → s.blend.stop = none → o.mix ≤ o.turns + 1 → o.claim ≠ .firm →
      exec .drumTurnPulse s =
        .next (State.tryTransmit { s with
          blend := { s.blend with state := .waitClaim, order := some { o with turns := o.turns + 1 },
                                  stall := .stopped } })) ∧
    (s.isJoining = true → s.blend.state = .mixing → s.blend.stop = none → o.mix ≤ o.turns + 1 → o.claim = .firm →
      exec .drumTurnPulse s =
        .next (State.tryTransmit { s with
          blend := { s.blend with state := .discharging, order := some { o with turns := o.turns + 1 },
                                  stall := .stopped } })) ∧
    (∀ n : Nat, s.isJoining = false → s.blend.state = .mixing → s.blend.stop = none → o.mix ≤ o.turns + 1 →
      o.claim = .firm → o.batch = some n → s.arb.queue = [] →
      exec .drumTurnPulse s =
        .next (State.tryTransmit { s with
          blend := { s.blend with state := .discharging, order := some { o with turns := o.turns + 1 },
                                  stall := .stopped },
          arb := { s.arb with openFlag := true, batch := some n } }))

/-! ## The head's platform, timers and requests (R60, R104, R105, R107, R112, R118, R120, R121) -/

/-- R105, R107, R112: a change of the presence input that an EMPTY head sees as a chest starts taring; the input's level
is kept by every station, and a level it has already is no event (log 3). HOLD lapses, and a head it kept waiting asks, one
that waits for its ABSENT blender or its own JOIN too (the model's choice, log 79); a chest that does not settle is held UNSTABLE with a long flight, one whose flight was still running with no flight measured
(log 44). R59: a reading of an EMPTY head may re-take the zero. R105, R106: a stable reading of a tared chest takes its
tare: inside the tare window of the reference grade the chest takes the next free token and asks for the chute, unless HOLD
is in force; outside it the head is held TARE_RANGE. That a tare outside 0 to 65535 is held at the nearer of the two is the
model's choice (log 89). -/
def Obligations.HeadInputsAndTimers : Prop :=
  ∀ s : State,
    exec (.chestPresenceChange s.presence) s = .next s ∧
    (∀ p : Bool, s.working = false → exec (.chestPresenceChange p) s = .next { s with presence := p }) ∧
    (∀ w : Int, Ready s → s.cfg.roles.head = true → s.presence = false → s.head.state = .empty →
      s.head.weight = some w → (s.cfg.headEmpty : Int) < w →
      exec (.chestPresenceChange true) s =
        .next (State.tryTransmit { s with
          presence := true, fe := { s.fe with tracking := false }, head := { s.head with state := .taring } })) ∧
    (Ready s → s.cfg.roles.head = true → s.head.lapse.on = true →
      (s.head.state ≠ .waiting ∨ s.head.lease ≠ .none) →
      exec .holdLapseTimerExpiry s =
        .next (State.tryTransmit { s with head := { s.head with hold := false, lapse := .stopped } })) ∧
    (∀ c : ChestNow, Ready s → s.cfg.roles.head = true → s.head.lapse.on = true → s.head.hold = true →
      s.head.state = .waiting → s.head.lease = .none → s.head.chest = some c → ExRoom s (.leaseAsk c.token) →
      exec .holdLapseTimerExpiry s =
        .next (State.tryTransmit { s.opens (.leaseAsk c.token)
            (.leaseAsk { purpose := .fill, token := c.token, inv := 0 }) s.cfg.blender s.cfg.blender false with
          head := { s.head with hold := false, lapse := .stopped, lease := .asked, waitBlender := false,
                                waitJoin := false } })) ∧
    (∀ (word : BitVec 32) (bits ms : Nat) (k : Int) (f : FrontEnd), Ready s → s.cfg.roles.head = true →
      s.head.state = .empty → sampleCount word bits = some k → s.fe.accept s.cfg true k = (f, true) →
      exec (.sample word bits ms) s =
        .next (State.tryTransmit { s with
          fe := f,
          head := { s.head with
            last := some { weight := some 0, stable := true, becameStable := !s.fe.stable, becameUnstable := false,
                           overload := false, overloadMark := s.fe.overload, lost := false, lostMark := s.fe.lost,
                           zeroTaken := true },
            lastWeight := some 0 } })) ∧
    (∀ (word : BitVec 32) (bits ms t : Nat) (k w : Int) (f : FrontEnd) (z : Bool), Ready s → s.cfg.roles.head = true →
      s.head.state = .taring → s.presence = true → sampleCount word bits = some k →
      s.fe.accept s.cfg true k = (f, z) → f.weight = some w → f.stable = true → (s.cfg.headEmpty : Int) < w →
      t = (if s.tokenUsed ((s.head.lastToken + 1) % 256) then (s.head.lastToken + 2) % 256
        else (s.head.lastToken + 1) % 256) → s.tokenUsed t = false →
      (inTareWindow (s.gradeRec s.head.refGrade) w = true → s.head.hold = false → ExRoom s (.leaseAsk t) →
        exec (.sample word bits ms) s =
          .next (State.tryTransmit { s.opens (.leaseAsk t) (.leaseAsk { purpose := .fill, token := t, inv := 0 })
              s.cfg.blender s.cfg.blender false with
            fe := f,
            head := { s.head with
              state := .waiting, lease := .asked, waitBlender := false, waitJoin := false, lastToken := t,
              chest := some { token := t, inv := none, tare := (max 0 (min 65535 w)).toNat, gross := none, net := none,
                              topups := 0, limit := s.cfg.topups, starved := false, flight := none, flightLong := false,
                              cls := none, lease := none, purpose := .fill, voided := none },
              last := some (readingOf s.fe f z), lastWeight := some w } })) ∧
      (inTareWindow (s.gradeRec s.head.refGrade) w = true → s.head.hold = true →
        exec (.sample word bits ms) s =
          .next (State.tryTransmit { s with
            fe := f,
            head := { s.head with
              state := .waiting, lease := .none, lastToken := t,
              chest := some { token := t, inv := none, tare := (max 0 (min 65535 w)).toNat, gross := none, net := none,
                              topups := 0, limit := s.cfg.topups, starved := false, flight := none, flightLong := false,
                              cls := none, lease := none, purpose := .fill, voided := none },
              last := some (readingOf s.fe f z), lastWeight := some w } })) ∧
      (inTareWindow (s.gradeRec s.head.refGrade) w = false → s.head.chest = none → s.head.flight = .stopped →
        exec (.sample word bits ms) s =
          .next (State.tryTransmit { s.report (Report.of .headFault none none none (.code .tareRange)) with
            fe := { f with tracking := false },
            head := { s.head with
              state := .held, lease := .none, cause := some .tareRange, settle := .stopped, sendFrame := none,
              refusedVoid := false, waitOwner := false, waitBlender := false, waitJoin := false,
              last := some (readingOf s.fe f z), lastWeight := some w } }))) ∧
    (∀ c : ChestNow, Ready s → s.cfg.roles.head = true → s.head.state = .settling → s.head.settle.on = true →
      s.head.lease = .none → s.head.chest = some c →
      exec .headSettleTimerExpiry s =
        .next (State.tryTransmit { s.report (Report.of .headFault c.inv none none (.code .unstable)) with
          fe := { s.fe with tracking := false },
          head := { s.head with
            state := .held, cause := some .unstable, flight := .stopped, settle := .stopped, sendFrame := none,
            refusedVoid := false, waitOwner := false, waitBlender := false, waitJoin := false,
            chest := some { c with
              flightLong := true, lease := none, flight := if s.head.flight.on then none else c.flight } } }))

/-- R104: START leaves STOPPED for EMPTY on an ACTIVE station, STOP leaves EMPTY for STOPPED; in every other state the
answer is STATE and nothing changes, for START on a station OFFLINE for a duplicate number by the model's choice (log 88). R60: ZERO of an idle stable platform within 20.00 kg of zero takes the averaged count
as zero, in STOPPED, in EMPTY, and in HELD where the reading it hands on makes no double fault (R122); further off it is
answered RANGE; with a chest present, in another state or without a stable weight STATE. -/
def Obligations.HeadStartStopZero : Prop :=
  ∀ s : State, PortTakes s .head →
    (s.head.state = .stopped → s.isActive = true →
      exec (.start (.good ())) s =
        .next (State.tryTransmit { s.answer 0x20#8 .ok [] with
          fe := { s.fe with tracking := true },
          head := { s.head with state := .empty, lease := .none, cause := none, chest := none, sendFrame := none,
                                refusedVoid := false, waitOwner := false, waitBlender := false, waitJoin := false,
                                voidOk := false, emptied := false } })) ∧
    ((s.head.state ≠ .stopped ∨ s.isActive = false) →
      exec (.start (.good ())) s = .next (State.tryTransmit (s.answer 0x20#8 .state []))) ∧
    ((s.head.state = .empty ∨ s.head.state = .stopped) →
      exec (.stop (.good ())) s =
        .next (State.tryTransmit { s.answer 0x21#8 .ok [] with
          fe := { s.fe with tracking := false }, head := { s.head with state := .stopped } })) ∧
    (s.head.state ≠ .empty → s.head.state ≠ .stopped →
      exec (.stop (.good ())) s = .next (State.tryTransmit (s.answer 0x21#8 .state []))) ∧
    ((s.presence = true ∨ s.fe.stable = false ∨ s.fe.overload = true ∨ s.fe.lost = true ∨ s.fe.weight = none ∨
        (s.head.state ≠ .stopped ∧ s.head.state ≠ .empty ∧ s.head.state ≠ .held)) →
      exec (.zero (.good ())) s = .next (State.tryTransmit (s.answer 0x24#8 .state []))) ∧
    (∀ a w : Int, s.working = true → s.presence = false →
      (s.head.state = .stopped ∨ s.head.state = .empty ∨
        (s.head.state = .held ∧
          (s.head.chest = none ∨ s.head.cause = some .chestLost ∨ s.head.cause = some .tareRange))) →
      s.fe.overload = false → s.fe.lost = false → s.fe.stable = true → s.fe.avg = some a → s.fe.weight = some w →
      ((w < -2000 ∨ 2000 < w) →
        exec (.zero (.good ())) s = .next (State.tryTransmit (s.answer 0x24#8 .range []))) ∧
      (-2000 ≤ w → w ≤ 2000 →
        ∃ r : Reading, r.weight = some 0 ∧ r.stable = true ∧ r.zeroTaken = true ∧
          exec (.zero (.good ())) s =
            .next (State.tryTransmit { s.answer 0x24#8 .ok [] with
              fe := { s.fe with zero := a, weight := some 0, ref := s.fe.ref.map (fun q => q - w) },
              head := { s.head with last := some r, lastWeight := some 0 } })))

/-- R118, R121: CLEAR(RETRY) of a chest held OVER or UNSTABLE returns it to SETTLING; CLEAR(VOID) of a chest with an
invoice, and RESET HEAD, open its FILL-VOID, whose net the chest keeps, and go to VOIDING. A head held SEND for its
LEASE-ASK(FILL) asks again by RETRY, or voids the chest, which has no invoice and needs no confirmation; that the RETRY
only returns to WAITING while HOLD is in force is the model's choice (log 61). One held SEND for its CHEST-DONE opens it
again by RETRY and answers VOID with STATE. Outside HELD the clears are answered STATE. -/
def Obligations.HeadClears : Prop :=
  ∀ s : State, PortTakes s .head →
    (s.head.state ≠ .held →
      exec (.clearRetry (.good ())) s = .next (State.tryTransmit (s.answer 0x22#8 .state [])) ∧
      exec (.clearVoid (.good ())) s = .next (State.tryTransmit (s.answer 0x22#8 .state []))) ∧
    (∀ c : ChestNow, s.head.state = .held → (s.head.cause = some .overLimit ∨ s.head.cause = some .unstable) →
      s.head.chest = some c →
      exec (.clearRetry (.good ())) s =
        .next (State.tryTransmit { s.answer 0x22#8 .ok [] with
          head := { s.head with state := .settling, lease := .none, cause := none, sendFrame := none,
                                flight := .stopped, settle := .running 4000,
                                chest := some { c with lease := none } } })) ∧
    (∀ (c : ChestNow) (n : Nat), s.canSend = true → s.head.state = .held →
      (s.head.cause = some .overLimit ∨ s.head.cause = some .unstable) → s.head.chest = some c → c.inv = some n →
      ExRoom s (.fillVoid n c.token) →
      exec (.clearVoid (.good ())) s =
        .next (State.tryTransmit { (s.answer 0x22#8 .ok []).opens (.fillVoid n c.token)
            (.fillVoid { inv := n, token := c.token, net := s.head.voidNet c }) (s.reportTo n) (s.reportTo n) false with
          head := { s.head with
            state := .voiding, lease := .none, cause := none, sendFrame := none, refusedVoid := false,
            waitOwner := false, waitJoin := false, voidOk := false, emptied := false,
            chest := some { c with voided := some (s.head.voidNet c) } } })) ∧
    (∀ c : ChestNow, s.head.state = .held → s.head.cause = some .send → s.head.sendFrame = some .askFill →
      s.head.chest = some c → c.inv = none →
      exec (.clearVoid (.good ())) s =
        .next (State.tryTransmit { s.answer 0x22#8 .ok [] with
          head := { s.head with state := .voiding, lease := .none, cause := none, sendFrame := none,
                                refusedVoid := false, waitOwner := false, waitJoin := false, voidOk := true,
                                emptied := false } }) ∧
      (s.canSend = true → s.head.hold = false → ExRoom s (.leaseAsk c.token) →
        exec (.clearRetry (.good ())) s =
          .next (State.tryTransmit { (s.answer 0x22#8 .ok []).opens (.leaseAsk c.token)
              (.leaseAsk { purpose := .fill, token := c.token, inv := 0 }) s.cfg.blender s.cfg.blender false with
            head := { s.head with state := .waiting, lease := .asked, cause := none, sendFrame := none,
                                  waitBlender := false, waitJoin := false } })) ∧
      (s.head.hold = true →
        exec (.clearRetry (.good ())) s =
          .next (State.tryTransmit { s.answer 0x22#8 .ok [] with
            head := { s.head with state := .waiting, lease := .none, cause := none, sendFrame := none } }))) ∧
    (∀ (c : ChestNow) (n : Nat), s.head.state = .held → s.head.cause = some .send →
      s.head.sendFrame = some .chestDone → s.head.chest = some c → c.inv = some n →
      exec (.clearVoid (.good ())) s = .next (State.tryTransmit (s.answer 0x22#8 .state [])) ∧
      (s.canSend = true → ExRoom s (.chestDone n c.token) →
        exec (.clearRetry (.good ())) s =
          .next (State.tryTransmit { (s.answer 0x22#8 .ok []).opens (.chestDone n c.token)
              (.chestDone { inv := n, token := c.token, gross := c.gross.getD 0, tare := c.tare, net := c.net.getD 0,
                            topups := c.topups, cls := c.cls.getD .full, flightLong := c.flightLong })
              (s.reportTo n) (s.reportTo n) (c.cls == some .short) with
            head := { s.head with state := .reported, cause := none, sendFrame := none, waitOwner := false,
                                  waitJoin := false } }))) ∧
    (s.head.state ≠ .held → s.head.state ≠ .locked →
      exec (.resetHead (.good ())) s = .next (State.tryTransmit (s.answer 0x23#8 .state []))) ∧
    (∀ (c : ChestNow) (n : Nat), s.canSend = true → (s.head.state = .held ∨ s.head.state = .locked) →
      s.head.chest = some c → c.inv = some n → ExRoom s (.fillVoid n c.token) →
      exec (.resetHead (.good ())) s =
        .next (State.tryTransmit { (s.answer 0x23#8 .ok []).opens (.fillVoid n c.token)
            (.fillVoid { inv := n, token := c.token, net := s.head.voidNet c }) (s.reportTo n) (s.reportTo n) false with
          head := { s.head with
            state := .voiding, lease := .none, cause := none, sendFrame := none, refusedVoid := false,
            waitOwner := false, waitJoin := false, voidOk := false, emptied := false,
            chest := some { c with voided := some (s.head.voidNet c) } } }))

/-! ## The marker's inputs, timers and requests (R143 to R145, R148 to R152) -/

/-- R143, R144, R148: the hold timer of a lane with five chests or more sends HOLD again, of another stops; a chest at
the eye of a lane puts that lane's first QUEUED entry into the arrival queue, or sets STRAY; a composition that ends
leaves the plate READY. No composition or stroke can begin. R148: with the compose plate free, the arrival whose record the
copy holds is composed at once; with the head IDLE, a plate that becomes READY is struck at once, its lines sent over the
stencil head link (R149). R26, R141, R143: a MARK-ENTERED takes a printed chest out of its lane, be it of the next version, which marks
the copy, or of one not above the copy's, and be the exchange of the MARK-DONE over or ended by this frame (R15, R153); four
chests left stop the hold timer, three or fewer after a HOLD send GO. That the fall from six to five sends nothing is
DEDUCED (log 47). The block order used up is the model's (log 6). -/
def Obligations.LaneInputs : Prop :=
  (∀ (s : State) (k head : Nat) (x : LaneEntry) (y : Entry) (c : Chest), Ready s → s.cfg.roles.mark = true →
    s.cfg.laneHead k = some head → s.mark.head = .stroking →
    ((s.mark.plate s.mark.compose).cond = .empty ∨ (s.mark.plate s.mark.compose).cond = .spent) →
    s.mark.arrivals = [] → (s.mark.lane k).stray = false →
    (s.mark.lane k).queue.find? (fun e => e.state == .queued) = some x → s.inv.find x.inv = some y →
    y.data.chests.find? (fun c => c.ordinal == x.ordinal && c.net.isSome) = some c →
    s.start.rejected.contains y.data.hdr.grade = false →
    exec (.laneEyeArrival k) s =
      .next (State.tryTransmit { s with
        mark := { s.mark.setPlate s.mark.compose (fun p => { p with
            job := some { lane := k, inv := x.inv, ordinal := x.ordinal }, cond := .composing,
            building := renderPlate s y.data.hdr c (s.layoutOf y.data.hdr.grade) }) with
          arrivals := [{ lane := k, inv := x.inv, ordinal := x.ordinal }] } })) ∧
  (∀ (s : State) (j : Job), Ready s → s.cfg.roles.mark = true → s.mark.head = .idle →
    (s.mark.plate s.mark.compose).cond = .composing → (s.mark.plate s.mark.compose).job = some j →
    s.mark.arrivals = [j] →
    exec .compositionComplete s =
      .next (State.tryTransmit { s with
        mark := { (s.mark.setPlate s.mark.compose (fun p =>
            { p with lines := p.building, building := [], cond := .inUse })).setLane j.lane (fun l =>
              l.upd j.inv j.ordinal (fun e => { e with state := .printing })) with
          compose := s.mark.compose.other, arrivals := [], head := .stroking, stroke := .running 3000,
          link := (s.mark.plate s.mark.compose).building } })) ∧
  (∀ (s : State) (e : Env) (b : MarkEnteredBody) (y : Entry) (k head : Nat) (x : LaneEntry), Hears s e (.markEntered b) →
    s.cfg.roles = { blend := false, head := false, mark := true, paper := false } → s.inv.phase ≠ .waitFree →
    s.inv.find b.inv = some y → y.own = none → y.copy = .complete → y.data.hdr.owner = e.src →
    b.version ≤ y.data.hdr.version → s.cfg.laneHead k = some head → s.mark.head = .stroking →
    (s.mark.plate s.mark.compose).cond = .empty → s.mark.arrivals = [] → (s.mark.lane k).overflow = none →
    (s.mark.lane k).queue.filter (fun z => z.is b.inv b.ordinal) = [x] → x.state = .printed →
    (s.mark.lane k).done.length < 6 →
    (∀ j ∈ s.cfg.lanes, j ≠ k → (s.mark.lane j).find b.inv b.ordinal = none) →
    ((s.mark.lane k).queue.length = 5 →
      exec (.markEntered e (some b)) s =
        .next { s.heardFrom e.src with
          blockChoice := s.blockChoice / 720,
          mark := s.mark.setLane k (fun l => { l with
            queue := l.queue.filter (fun z => !z.is b.inv b.ordinal), done := l.done ++ [(b.inv, b.ordinal)],
            holdT := .stopped }) }) ∧
    ((s.mark.lane k).queue.length ≤ 4 → (s.mark.lane k).holdFlag = true → JobRoom s →
      exec (.markEntered e (some b)) s =
        .next { (s.heardFrom e.src).queues (jobFrame head (.go k) .plain) with
          blockChoice := s.blockChoice / 720,
          mark := s.mark.setLane k (fun l => { l with
            queue := l.queue.filter (fun z => !z.is b.inv b.ordinal), done := l.done ++ [(b.inv, b.ordinal)],
            holdFlag := false, holdT := .stopped }) })) ∧
  (∀ (s : State) (e : Env) (b : MarkEnteredBody) (y : Entry) (k head : Nat) (x : LaneEntry) (t : State) (i : Inv),
    ((Hears s e (.markEntered b) ∧ t = s.heardFrom e.src) ∨
      ∃ z : Exchange, HearsEnd s e (.markEntered b) z ∧ z.key = .markDone b.inv b.ordinal ∧
        t = s.heardEnding e.src z.id) →
    ((b.version ≤ y.data.hdr.version ∧ i = s.inv) ∨
      (b.version = y.data.hdr.version + 1 ∧ y.data.hasOrdinal b.ordinal = true ∧
        i = s.inv.upd b.inv (fun u => { u with data := (y.data.setMark b.ordinal b.how b.marker).atVersion b.version }))) →
    s.cfg.roles = { blend := false, head := false, mark := true, paper := false } → s.inv.phase ≠ .waitFree →
    s.inv.find b.inv = some y → y.own = none → y.copy = .complete → y.data.hdr.owner = e.src →
    s.cfg.laneHead k = some head → s.mark.head = .stroking →
    (s.mark.plate s.mark.compose).cond = .empty → s.mark.arrivals = [] → (s.mark.lane k).overflow = none →
    (s.mark.lane k).queue.filter (fun z => z.is b.inv b.ordinal) = [x] → x.state = .printed →
    (s.mark.lane k).done.length < 6 →
    (∀ j ∈ s.cfg.lanes, j ≠ k → (s.mark.lane j).find b.inv b.ordinal = none) →
    ((s.mark.lane k).queue.length = 5 →
      exec (.markEntered e (some b)) s =
        .next { t with
          blockChoice := s.blockChoice / 720, inv := i,
          mark := s.mark.setLane k (fun l => { l with
            queue := l.queue.filter (fun z => !z.is b.inv b.ordinal), done := l.done ++ [(b.inv, b.ordinal)],
            holdT := .stopped }) }) ∧
    (((s.mark.lane k).queue.length = 6 ∨ (s.mark.lane k).queue.length ≤ 4 ∧ (s.mark.lane k).holdFlag = false) →
      exec (.markEntered e (some b)) s =
        .next { t with
          blockChoice := s.blockChoice / 720, inv := i,
          mark := s.mark.setLane k (fun l => { l with
            queue := l.queue.filter (fun z => !z.is b.inv b.ordinal), done := l.done ++ [(b.inv, b.ordinal)] }) }) ∧
    ((s.mark.lane k).queue.length ≤ 4 → (s.mark.lane k).holdFlag = true → JobRoom s →
      exec (.markEntered e (some b)) s =
        .next { t.queues (jobFrame head (.go k) .plain) with
          blockChoice := s.blockChoice / 720, inv := i,
          mark := s.mark.setLane k (fun l => { l with
            queue := l.queue.filter (fun z => !z.is b.inv b.ordinal), done := l.done ++ [(b.inv, b.ordinal)],
            holdFlag := false, holdT := .stopped }) })) ∧
  ∀ (s : State) (k head : Nat), Ready s → s.cfg.roles.mark = true → s.cfg.laneHead k = some head →
    s.mark.head = .stroking → (s.mark.plate s.mark.compose).cond = .composing →
    (5 ≤ (s.mark.lane k).queue.length → (s.mark.lane k).holdT.on = true → JobRoom s →
      exec (.laneHoldTimerExpiry k) s =
        .next (State.tryTransmit { s.queues (jobFrame head (.hold k) .plain) with
          mark := s.mark.setLane k (fun l => { l with holdFlag := true, holdT := .running 200 }) })) ∧
    ((s.mark.lane k).queue.length < 5 → (s.mark.lane k).holdT.on = true →
      exec (.laneHoldTimerExpiry k) s =
        .next (State.tryTransmit { s with mark := s.mark.setLane k (fun l => { l with holdT := .stopped }) })) ∧
    ((s.mark.lane k).stray = true → exec (.laneEyeArrival k) s = .next s.tryTransmit) ∧
    (∀ x : LaneEntry, (s.mark.lane k).stray = false → s.mark.arrivals.any (fun j => j.lane == k) = false →
      (s.mark.lane k).queue.find? (fun e => e.state == .queued) = some x →
      exec (.laneEyeArrival k) s =
        .next (State.tryTransmit { s with
          mark := { s.mark with arrivals := s.mark.arrivals ++ [{ lane := k, inv := x.inv, ordinal := x.ordinal }] } })) ∧
    ((s.mark.lane k).stray = false → s.mark.arrivals.any (fun j => j.lane == k) = true →
      exec (.laneEyeArrival k) s =
        .next (State.tryTransmit { s.report (Report.of .laneStray none none (some head) (.code .early)) with
          mark := s.mark.setLane k (fun l => { l with stray := true }) })) ∧
    ((s.mark.lane k).stray = false → s.mark.arrivals.any (fun j => j.lane == k) = false →
      (s.mark.lane k).queue.find? (fun e => e.state == .queued) = none →
      exec (.laneEyeArrival k) s =
        .next (State.tryTransmit { s.report (Report.of .laneStray none none (some head) (.code .unexpected)) with
          mark := s.mark.setLane k (fun l => { l with stray := true }) })) ∧
    exec .compositionComplete s =
      .next (State.tryTransmit { s with
        mark := s.mark.setPlate s.mark.compose (fun p => { p with lines := p.building, building := [], cond := .ready }) })

/-- R149, R150, R153: the end of a stroke leaves the entry PRINTED, the plate SPENT and the head IDLE, and opens the
mark report to the recorded owner or the entering station, which replaces a report with no entry for the same pair in flight
(R13); a stroke that does not end holds the head and faults the
entry with LANE_JAM. Nothing waits to be composed. That the SPENT plate keeps its job is the model's choice (log 95). -/
def Obligations.StrokeEnds : Prop :=
  ∀ (s : State) (j : Job) (x : LaneEntry) (head : Nat), Ready s → s.cfg.roles.mark = true →
    (j.lane = 1 ∨ j.lane = 2) → s.cfg.laneHead j.lane = some head → s.mark.head = .stroking →
    s.mark.arrivals = [] → (s.mark.plate s.mark.compose).cond = .empty →
    (s.mark.plate s.mark.print).job = some j → (s.mark.lane j.lane).find j.inv j.ordinal = some x →
    x.elsewhere = false →
    (ExRoom s (.markDone x.inv x.ordinal) →
      exec .strokeEnd s =
        .next (State.tryTransmit { s.opens (.markDone x.inv x.ordinal)
            (.markDone { inv := x.inv, ordinal := x.ordinal, how := .printed, marker := s.self })
            (s.markTo x.inv x.source) (s.markTo x.inv x.source) false with
          mark := { (s.mark.setPlate s.mark.print (fun p => { p with cond := .spent })).setLane j.lane (fun l =>
              l.upd x.inv x.ordinal (fun _ =>
                { x with state := .printed, cause := none, how := some .printed, answer := .none, waits := .nothing })) with
            head := .idle, stroke := .stopped,
            loose := s.mark.loose.filter (fun r => !r.inFlight x.inv x.ordinal) } })) ∧
    (s.mark.stroke.on = true →
      exec .strokeTimerExpiry s =
        .next (State.tryTransmit { s.report
            (Report.of .laneJam (some x.inv) (some x.ordinal) (some head) (.code .jam)) with
          mark := { s.mark.setLane j.lane (fun l =>
              l.upd x.inv x.ordinal (fun e => { e with state := .fault, cause := some .jam })) with
            head := .held, stroke := .stopped } }))

/-- R145, R151, R152: the requests about a lane. A lane the marker does not have is answered RANGE; CLEAR LANE with
nothing to clear, REPRINT and HAND with no FAULT entry STATE. CLEAR LANE clears what stands: with LANE_OVERFLOW the kept
chest joins a queue with room, a fifth and a sixth with HOLD; with MARK_UNCONFIRMED the mark report of a PRINTED entry is
opened again; the exchange of an entry's report is the end of a report with no entry that was in flight for its pair (R13).
REPRINT strikes the held plate again, its lines sent once more over the stencil head link; an entry without a
plate is QUEUED and its job composed afresh, waits for its record, or is in FAULT again; a record that is missing is looked
for before the grade, a rejected one included, by the model's choice (log 83). HAND takes the oldest FAULT entry
as marked by hand, and a pending chest outside every lane. -/
def Obligations.LaneRequests : Prop :=
  ∀ (s : State) (k : Nat), PortTakes s .mark → s.canSend = true → s.mark.arrivals = [] →
    (s.mark.plate s.mark.compose).cond = .empty →
    (s.cfg.laneHead k = none →
      exec (.clearLane (.good k)) s = .next (State.tryTransmit (s.answer 0x30#8 .range [])) ∧
      exec (.reprint (.good k)) s = .next (State.tryTransmit (s.answer 0x31#8 .range [])) ∧
      exec (.handLane (.good k)) s = .next (State.tryTransmit (s.answer 0x32#8 .range []))) ∧
    ((s.cfg.laneHead k).isSome = true → (s.mark.lane k).stray = false → (s.mark.lane k).laneOver = false →
      (s.mark.lane k).unconfirmed = false →
      exec (.clearLane (.good k)) s = .next (State.tryTransmit (s.answer 0x30#8 .state []))) ∧
    ((s.cfg.laneHead k).isSome = true → (s.mark.lane k).stray = true → (s.mark.lane k).laneOver = false →
      (s.mark.lane k).unconfirmed = false →
      exec (.clearLane (.good k)) s =
        .next (State.tryTransmit { s.answer 0x30#8 .ok [] with
          mark := s.mark.setLane k (fun l => { l with stray := false, laneOver := false, unconfirmed := false }) })) ∧
    ((s.cfg.laneHead k).isSome = true → (s.mark.lane k).oldestFault = none → s.mark.head ≠ .stroking →
      exec (.reprint (.good k)) s = .next (State.tryTransmit (s.answer 0x31#8 .state [])) ∧
      exec (.handLane (.good k)) s = .next (State.tryTransmit (s.answer 0x32#8 .state []))) ∧
    (∀ x : LaneEntry, (s.cfg.laneHead k).isSome = true → (s.mark.lane k).oldestFault = some x →
      s.mark.heldBy k x.inv x.ordinal = true →
      exec (.reprint (.good k)) s =
        .next (State.tryTransmit { s.answer 0x31#8 .ok [] with
          mark := { s.mark.setLane k (fun l =>
              l.upd x.inv x.ordinal (fun e => { e with state := .printing, cause := none })) with
            head := .stroking, stroke := .running 3000, link := (s.mark.plate s.mark.print).lines } })) ∧
    (∀ x : LaneEntry, (s.cfg.laneHead k).isSome = true → (s.mark.lane k).oldestFault = some x →
      s.mark.head = .idle → ExRoom s (.markDone x.inv x.ordinal) →
      exec (.handLane (.good k)) s =
        .next (State.tryTransmit { (s.answer 0x32#8 .ok []).opens (.markDone x.inv x.ordinal)
            (.markDone { inv := x.inv, ordinal := x.ordinal, how := .hand, marker := s.self })
            (s.markTo x.inv x.source) (s.markTo x.inv x.source) false with
          mark := (s.mark.setLane k (fun l => l.upd x.inv x.ordinal (fun _ =>
            { x with state := .printed, cause := none, how := some .hand, answer := .none,
                     waits := .nothing }))).looseReplaced x.inv x.ordinal })) ∧
    (∀ (b : ChestName) (x : Entry) (c : Chest), s.mark.laneOf s.cfg b.inv b.ordinal = none →
      s.mark.lane1.overflow = none → s.mark.lane2.overflow = none → s.inv.find b.inv = some x →
      x.data.chests.find? (fun y => y.ordinal == b.ordinal) = some c →
      (c.stencil ≠ .pending →
        exec (.handChest (.good b)) s = .next (State.tryTransmit (s.answer 0x32#8 .state []))) ∧
      (c.stencil = .pending → s.mark.loose = [] → ExRoom s (.markDone b.inv b.ordinal) →
        exec (.handChest (.good b)) s =
          .next (State.tryTransmit { (s.answer 0x32#8 .ok []).opens (.markDone b.inv b.ordinal)
              (.markDone { inv := b.inv, ordinal := b.ordinal, how := .hand, marker := s.self })
              x.data.hdr.owner x.data.hdr.owner false with
            mark := { s.mark with
              loose := [{ inv := b.inv, ordinal := b.ordinal, source := none, waits := .nothing }] } }))) ∧
    (∀ head : Nat, s.cfg.laneHead k = some head → (s.mark.lane k).laneOver = true →
      (s.mark.lane k).unconfirmed = false →
      (((s.mark.lane k).overflow = none ∨ 6 ≤ (s.mark.lane k).queue.length) →
        exec (.clearLane (.good k)) s =
          .next (State.tryTransmit { s.answer 0x30#8 .ok [] with
            mark := s.mark.setLane k (fun l => { l with stray := false, laneOver := false, unconfirmed := false }) })) ∧
      (∀ o : Overflow, (s.mark.lane k).overflow = some o →
        ((s.mark.lane k).queue.length ≤ 3 →
          exec (.clearLane (.good k)) s =
            .next (State.tryTransmit { s.answer 0x30#8 .ok [] with
              mark := s.mark.setLane k (fun l => { l with
                stray := false, laneOver := false, unconfirmed := false, overflow := none,
                queue := l.queue ++ [newEntry o.inv o.ordinal o.source] }) })) ∧
        ((s.mark.lane k).queue.length = 4 ∨ (s.mark.lane k).queue.length = 5 → JobRoom s →
          exec (.clearLane (.good k)) s =
            .next (State.tryTransmit { (s.answer 0x30#8 .ok []).queues (jobFrame head (.hold k) .plain) with
              mark := s.mark.setLane k (fun l => { l with
                stray := false, laneOver := false, unconfirmed := false, overflow := none,
                queue := l.queue ++ [newEntry o.inv o.ordinal o.source],
                holdFlag := true, holdT := .running 200 }) })))) ∧
    ((s.cfg.laneHead k).isSome = true → (s.mark.lane k).laneOver = false → (s.mark.lane k).unconfirmed = true →
      ((s.mark.lane k).queue.filter (fun x => x.state == .printed && !s.markInFlight x.inv x.ordinal) = [] →
        exec (.clearLane (.good k)) s =
          .next (State.tryTransmit { s.answer 0x30#8 .ok [] with
            mark := s.mark.setLane k (fun l => { l with stray := false, laneOver := false, unconfirmed := false }) })) ∧
      (∀ x : LaneEntry,
        (s.mark.lane k).queue.filter (fun x => x.state == .printed && !s.markInFlight x.inv x.ordinal) = [x] →
        ExRoom s (.markDone x.inv x.ordinal) →
        exec (.clearLane (.good k)) s =
          .next (State.tryTransmit { (s.answer 0x30#8 .ok []).opens (.markDone x.inv x.ordinal)
              (.markDone { inv := x.inv, ordinal := x.ordinal, how := x.how.getD .printed, marker := s.self })
              (s.markTo x.inv x.source) (s.markTo x.inv x.source) false with
            mark := (s.mark.setLane k (fun l =>
              { l.upd x.inv x.ordinal (fun y => { y with answer := .none, waits := .nothing }) with
                stray := false, laneOver := false, unconfirmed := false })).looseReplaced x.inv x.ordinal }))) ∧
    (∀ (x : LaneEntry) (j : Job), (s.cfg.laneHead k).isSome = true → (s.mark.lane k).oldestFault = some x →
      s.mark.heldBy k x.inv x.ordinal = false → s.mark.head ≠ .stroking →
      j = { lane := k, inv := x.inv, ordinal := x.ordinal } →
      (s.inv.find x.inv = none →
        exec (.reprint (.good k)) s =
          .next (State.tryTransmit { (s.answer 0x31#8 .ok []).report
              (Report.of .laneJam (some x.inv) (some x.ordinal) (s.cfg.laneHead k) (.code .noRecord)) with
            mark := s.mark.setLane k (fun l =>
              l.upd x.inv x.ordinal (fun y => { y with state := .fault, cause := some .noRecord })) })) ∧
      (∀ e : Entry, s.inv.find x.inv = some e → e.data.chests.all (fun c => c.ordinal != x.ordinal) = true →
        (e.copy = .complete →
          exec (.reprint (.good k)) s =
            .next (State.tryTransmit { (s.answer 0x31#8 .ok []).report
                (Report.of .laneJam (some x.inv) (some x.ordinal) (s.cfg.laneHead k) (.code .noRecord)) with
              mark := s.mark.setLane k (fun l =>
                l.upd x.inv x.ordinal (fun y => { y with state := .fault, cause := some .noRecord })) })) ∧
        (e.copy ≠ .complete →
          exec (.reprint (.good k)) s =
            .next (State.tryTransmit { s.answer 0x31#8 .ok [] with
              mark := { s.mark.setLane k (fun l =>
                  l.upd x.inv x.ordinal (fun y => { y with state := .queued, cause := none })) with
                arrivals := [j] } }))) ∧
      (∀ (e : Entry) (c : Chest), s.inv.find x.inv = some e →
        e.data.chests.find? (fun c => c.ordinal == x.ordinal && c.net.isSome) = some c →
        (e.data.hdr.grade ∈ s.start.rejected →
          exec (.reprint (.good k)) s =
            .next (State.tryTransmit { (s.answer 0x31#8 .ok []).report
                (Report.of .laneJam (some x.inv) (some x.ordinal) (s.cfg.laneHead k) (.code .layout)) with
              mark := s.mark.setLane k (fun l =>
                l.upd x.inv x.ordinal (fun y => { y with state := .fault, cause := some .layout })) })) ∧
        (e.data.hdr.grade ∉ s.start.rejected →
          exec (.reprint (.good k)) s =
            .next (State.tryTransmit { s.answer 0x31#8 .ok [] with
              mark := { (s.mark.setLane k (fun l =>
                  l.upd x.inv x.ordinal (fun y => { y with state := .queued, cause := none }))).setPlate s.mark.compose
                  (fun p => { p with job := some j, cond := .composing,
                                     building := renderPlate s e.data.hdr c (s.layoutOf e.data.hdr.grade) }) with
                arrivals := [j] } }))))

/-! ## The head's readings and a draw (R67 to R69, R73, R111 to R114) -/

/-- R111, R112, R113, R114: a reading with a weight at a head. In FAST or DRIBBLE it feeds on, moves to DRIBBLE at the
dribble point, and cuts off at the lease's cutoff point with LEASE-DONE opened. In SETTLING a stable one weighs the
chest: over the upper limit it is held, within the limits it is reported FULL, and a clean chest teaches the allowance.
R115 to R118: below the lower limit a chest is topped up while its limit allows and held UNDER after that; a starved one is
reported SHORT, or voided where it is below the short minimum. The flight time comes with the sample (log 4). -/
def Obligations.HeadWeighs : Prop :=
  ∀ (s : State) (word : BitVec 32) (bits ms : Nat) (c w : Int) (f : FrontEnd) (z : Bool) (ch : ChestNow),
    Ready s → s.cfg.roles.head = true → sampleCount word bits = some c → s.fe.accept s.cfg true c = (f, z) →
    f.weight = some w → f.overload = false → f.lost = false → s.head.chest = some ch →
    ((s.head.state = .fast ∨ s.head.state = .dribble) → s.head.state ≠ .fast ∨
        w - ch.tare < dribblePoint (s.head.grade s) s.cfg.dribble →
      w - ch.tare < cutoffPoint (s.head.grade s) s.head.allowance ch.purpose →
      exec (.sample word bits ms) s =
        .next (State.tryTransmit { s with
          fe := f, head := { s.head with last := some (readingOf s.fe f z), lastWeight := some w } })) ∧
    (s.head.state = .fast → dribblePoint (s.head.grade s) s.cfg.dribble ≤ w - ch.tare →
      w - ch.tare < cutoffPoint (s.head.grade s) s.head.allowance ch.purpose →
      exec (.sample word bits ms) s =
        .next (State.tryTransmit { s with
          fe := f,
          head := { s.head with state := .dribble, last := some (readingOf s.fe f z), lastWeight := some w } })) ∧
    ((s.head.state = .fast ∨ s.head.state = .dribble) →
      cutoffPoint (s.head.grade s) s.head.allowance ch.purpose ≤ w - ch.tare → ExRoom s (.leaseDone (ch.lease.getD 0)) →
      exec (.sample word bits ms) s =
        .next (State.tryTransmit { s.opens (.leaseDone (ch.lease.getD 0)) (.leaseDone (ch.lease.getD 0)) s.cfg.blender
            s.cfg.blender false with
          fe := f,
          head := { s.head with
            state := .settling, lease := .none, flight := .running 0, settle := .running 4000,
            chest := some { ch with flight := none, lease := none },
            last := some (readingOf s.fe f z), lastWeight := some w } })) ∧
    (s.head.state = .settling → f.stable = true → s.head.flight.on = true → s.head.lease = .none →
      upperLimit (s.head.grade s) < chestWeight (w - ch.tare) →
      exec (.sample word bits ms) s =
        .next (State.tryTransmit { s.report (Report.of .headFault ch.inv none none (.code .overLimit)) with
          fe := { f with tracking := false },
          head := { s.head with
            state := .held, cause := some .overLimit, flight := .stopped, settle := .stopped, sendFrame := none,
            refusedVoid := false, waitOwner := false, waitBlender := false, waitJoin := false,
            chest := some { ch with
              flight := some ms, flightLong := ch.flightLong || decide (1500 < ms), gross := some (chestWeight w),
              net := some (chestWeight (w - ch.tare)), lease := none },
            last := some (readingOf s.fe f z), lastWeight := some w } })) ∧
    (∀ n : Nat, s.head.state = .settling → f.stable = true → s.head.flight.on = true → ch.inv = some n →
      lowerLimit (s.head.grade s) ≤ chestWeight (w - ch.tare) →
      (chestWeight (w - ch.tare) : Int) ≤ upperLimit (s.head.grade s) → ExRoom s (.chestDone n ch.token) →
      exec (.sample word bits ms) s =
        .next (State.tryTransmit { s.opens (.chestDone n ch.token)
            (.chestDone { inv := n, token := ch.token, gross := chestWeight w, tare := ch.tare,
                          net := chestWeight (w - ch.tare), topups := ch.topups, cls := .full,
                          flightLong := ch.flightLong || decide (1500 < ms) })
            (s.reportTo n) (s.reportTo n) false with
          fe := f,
          head := { s.head with
            state := .reported, cause := none, sendFrame := none, waitOwner := false, waitJoin := false,
            flight := .stopped, settle := .stopped,
            allowance :=
              if ch.topups = 0 ∧ ch.starved = false ∧ ch.flightLong = false ∧ ms ≤ 1500 then
                (max 0 (min (s.cfg.dribble : Int) ((s.head.allowance : Int) +
                  ((chestWeight (w - ch.tare) : Int) - (s.head.grade s).target).tdiv 4))).toNat
              else s.head.allowance,
            chest := some { ch with
              flight := some ms, flightLong := ch.flightLong || decide (1500 < ms), gross := some (chestWeight w),
              net := some (chestWeight (w - ch.tare)), cls := some .full },
            last := some (readingOf s.fe f z), lastWeight := some w } })) ∧
    (∀ n : Nat, s.head.state = .settling → f.stable = true → s.head.flight.on = true → ch.inv = some n →
      (chestWeight (w - ch.tare) : Int) < lowerLimit (s.head.grade s) →
      (ch.starved = false → ch.topups < ch.limit → ExRoom s (.leaseAsk ch.token) →
        exec (.sample word bits ms) s =
          .next (State.tryTransmit { s.opens (.leaseAsk ch.token)
              (.leaseAsk { purpose := .topup, token := ch.token, inv := n }) s.cfg.blender s.cfg.blender false with
            fe := f,
            head := { s.head with
              state := .topupWait, lease := .topupAsked, cause := none, sendFrame := none, flight := .stopped,
              settle := .stopped,
              chest := some { ch with
                flight := some ms, flightLong := ch.flightLong || decide (1500 < ms), gross := some (chestWeight w),
                net := some (chestWeight (w - ch.tare)) },
              last := some (readingOf s.fe f z), lastWeight := some w } })) ∧
      (ch.starved = false → ch.limit ≤ ch.topups → s.head.lease = .none →
        exec (.sample word bits ms) s =
          .next (State.tryTransmit { s.report (Report.of .headFault (some n) none none (.code .underLimit)) with
            fe := { f with tracking := false },
            head := { s.head with
              state := .held, cause := some .underLimit, flight := .stopped, settle := .stopped, sendFrame := none,
              refusedVoid := false, waitOwner := false, waitBlender := false, waitJoin := false,
              chest := some { ch with
                flight := some ms, flightLong := ch.flightLong || decide (1500 < ms), gross := some (chestWeight w),
                net := some (chestWeight (w - ch.tare)), lease := none },
              last := some (readingOf s.fe f z), lastWeight := some w } })) ∧
      (ch.starved = true → ((s.head.grade s).shortMin : Int) ≤ chestWeight (w - ch.tare) →
        ExRoom s (.chestDone n ch.token) →
        exec (.sample word bits ms) s =
          .next (State.tryTransmit { s.opens (.chestDone n ch.token)
              (.chestDone { inv := n, token := ch.token, gross := chestWeight w, tare := ch.tare,
                            net := chestWeight (w - ch.tare), topups := ch.topups, cls := .short,
                            flightLong := ch.flightLong || decide (1500 < ms) })
              (s.reportTo n) (s.reportTo n) true with
            fe := f,
            head := { s.head with
              state := .reported, cause := none, sendFrame := none, waitOwner := false, waitJoin := false,
              flight := .stopped, settle := .stopped,
              chest := some { ch with
                flight := some ms, flightLong := ch.flightLong || decide (1500 < ms), gross := some (chestWeight w),
                net := some (chestWeight (w - ch.tare)), cls := some .short },
              last := some (readingOf s.fe f z), lastWeight := some w } })) ∧
      (ch.starved = true → (chestWeight (w - ch.tare) : Int) < (s.head.grade s).shortMin →
        ExRoom s (.fillVoid n ch.token) →
        exec (.sample word bits ms) s =
          .next (State.tryTransmit { s.opens (.fillVoid n ch.token)
              (.fillVoid { inv := n, token := ch.token, net := chestWeight (w - ch.tare) })
              (s.reportTo n) (s.reportTo n) false with
            fe := f,
            head := { s.head with
              state := .voiding, lease := .none, cause := none, sendFrame := none, refusedVoid := false,
              waitOwner := false, waitJoin := false, voidOk := false, emptied := false, flight := .stopped,
              settle := .stopped,
              chest := some { ch with
                flight := some ms, flightLong := ch.flightLong || decide (1500 < ms), gross := some (chestWeight w),
                net := some (chestWeight (w - ch.tare)), voided := some (chestWeight (w - ch.tare)) },
              last := some (readingOf s.fe f z), lastWeight := some w } })))

/-- R67, R68, R69, R73: a reading with a weight while a component of the order is drawn at a blender. A stable one gives
the start weight and opens the gate; one that raises the highest rise restarts the starve timer; a rise short of the close
point pours on, one that reaches it closes the gate; and the weight that becomes stable afterwards ends the component, and
with the last one the charging; a drawn weight is held at 500000 by the model's choice (log 26). R48, R78, R96: a stable weight below the drum-empty weight while DISCHARGING ends the batch
as EXHAUSTED, with the weight as the residue of its invoice, and shuts the chute. -/
def Obligations.BlendPours : Prop :=
  (∀ (s : State) (word : BitVec 32) (bits ms n : Nat) (c w : Int) (f : FrontEnd) (z : Bool) (b : Order) (o : OwnerRec),
    Ready s → s.cfg.roles.blend = true → s.cfg.roles.head = false → sampleCount word bits = some c →
    s.fe.accept s.cfg false c = (f, z) → f.weight = some w → f.stable = true → s.blend.state = .discharging →
    s.blend.stop = none → s.blend.order = some b → b.batch = some n →
    ((s.cfg.drumEmpty : Int) ≤ w →
      exec (.sample word bits ms) s =
        .next (State.tryTransmit { s with
          fe := f, blend := { s.blend with last := some (readingOf s.fe f z) } })) ∧
    (w < (s.cfg.drumEmpty : Int) → JobRoom s → s.arb.openFlag = true → s.arb.current = none → s.arb.next = none →
      s.arb.queue = [] → s.inv.phase ≠ .waitFree → s.inv.owned n = some o → o.view.hdr.state = .opened →
      o.resendDelay = .stopped → o.issued < Config.maxVersion → o.short = none →
      o.fills.any (fun f => !f.lost) = true →
      ∃ (i : Inv) (h : Header),
        h = { o.view.hdr with
          state := .ending, endCause := some .exhausted, residue := some w.toNat, version := o.issued + 1 } ∧
        exec (.sample word bits ms) s =
          .next (State.tryTransmit { (s.report (Report.of .batchEnded (some n) none none (.code .exhausted))).queues
              (jobFrame 0 (headerMsg h false none) (.versioned n (o.issued + 1))) with
            fe := f, inv := i,
            blend := { s.blend with
              last := some (readingOf s.fe f z), state := .idle, held := none, stop := none, order := none, gate := none,
              starve := .stopped, stall := .stopped },
            arb := { s.arb with openFlag := false, batch := none, gate := false } }) ∧
        i = { s.inv with table := i.table } ∧ (∀ k, k ≠ n → i.find k = s.inv.find k) ∧
        i.owned n = some { o with issued := o.issued + 1, view := { o.view with hdr := h } })) ∧
  ∀ (s : State) (word : BitVec 32) (bits ms k : Nat) (c w : Int) (f : FrontEnd) (z : Bool) (o : Order) (x : Comp),
    Ready s → s.cfg.roles.blend = true → s.cfg.roles.head = false → sampleCount word bits = some c →
    s.fe.accept s.cfg false c = (f, z) → f.weight = some w → s.blend.state = .charging → s.blend.order = some o →
    o.cur = some k → o.comps[k]? = some x →
    (o.draw = .waitStart → f.stable = true →
      exec (.sample word bits ms) s =
        .next (State.tryTransmit { s with
          fe := f,
          blend := { s.blend with
            last := some (readingOf s.fe f z), gate := some x.bin, starve := .running 6000,
            order := some { o with
              draw := .pouring, comps := o.comps.modify k (fun y => { y with start := some w, peak := 0 }) } } })) ∧
    (∀ st : Int, o.draw = .pouring → x.start = some st → w - st ≤ x.peak → w - st < closePoint x.target s.cfg.flight →
      exec (.sample word bits ms) s =
        .next (State.tryTransmit { s with
          fe := f, blend := { s.blend with last := some (readingOf s.fe f z) } })) ∧
    (∀ st : Int, o.draw = .pouring → x.start = some st → w - st ≤ x.peak → closePoint x.target s.cfg.flight ≤ w - st →
      f.stable = false →
      exec (.sample word bits ms) s =
        .next (State.tryTransmit { s with
          fe := f,
          blend := { s.blend with
            last := some (readingOf s.fe f z), gate := none, starve := .stopped,
            order := some { o with draw := .settling } } })) ∧
    (∀ st : Int, o.draw = .pouring → x.start = some st → x.peak < w - st → w - st < closePoint x.target s.cfg.flight →
      exec (.sample word bits ms) s =
        .next (State.tryTransmit { s with
          fe := f,
          blend := { s.blend with
            last := some (readingOf s.fe f z), starve := .running 6000,
            order := some { o with comps := o.comps.modify k (fun y => { y with peak := w - st }) } } })) ∧
    (∀ st : Int, o.draw = .pouring → x.start = some st → x.peak < w - st → closePoint x.target s.cfg.flight ≤ w - st →
      f.stable = false →
      exec (.sample word bits ms) s =
        .next (State.tryTransmit { s with
          fe := f,
          blend := { s.blend with
            last := some (readingOf s.fe f z), gate := none, starve := .stopped,
            order := some { o with
              draw := .settling, comps := o.comps.modify k (fun y => { y with peak := w - st }) } } })) ∧
    (∀ st : Int, o.draw = .settling → x.start = some st → f.stable = true → s.fe.stable = false → x.bin ≠ 12 →
      k + 1 = o.comps.length → s.isActive = false → s.inv.phase = .idle →
      exec (.sample word bits ms) s =
        .next (State.tryTransmit { s with
          fe := f,
          blend := { s.blend with
            last := some (readingOf s.fe f z), state := .mixing, held := none, gate := none, starve := .stopped,
            stall := .running 10000,
            order := some { o with
              comps := o.comps.modify k (fun y => { y with drawn := drawnWeight (some st) w, state := .done, settle := true }),
              charged := some (min ((o.comps.modify k (fun y =>
                { y with drawn := drawnWeight (some st) w, state := .done, settle := true })).foldl
                  (fun t y => t + y.drawn) 0) 500000),
              cur := none, turns := 0, claim := .asked } },
          inv := { s.inv with
            phase := .waitActive,
            req := some { order := o.number, grade := o.grade, garden := o.garden,
                          charged := min ((o.comps.modify k (fun y =>
                            { y with drawn := drawnWeight (some st) w, state := .done, settle := true })).foldl
                              (fun t y => t + y.drawn) 0) 500000 } } }))

/-! ## The port (R4, R173 to R178, R183) -/

/-- R173, R174: the tests that every request meets, in their order, and what a request that was cut short or whose kind
is not known is answered. The kind answered to a request of no bytes is a free value; that CHECK is answered while another
request is handled too, and that a code out of its list is answered RANGE after the role and state tests, are the model's
(log 32). R189: PLACE ORDER meets the same tests, and its RANGE answers carry a body, the byte 0 after the length test
too (log 32). -/
def Obligations.PortTests : Prop :=
  ∀ s : State, s.start.resetLow = false →
    (∀ (k : Byte) (l : List Byte), exec (.portRequestAborted (k :: l)) s = .next (s.answer k .check [])) ∧
    (∃ k : Byte, exec (.portRequestAborted []) s = .next { s.answer k .check [] with draws := s.draws + 1 }) ∧
    (∀ k : Byte, exec (.unknownRequest k false) s = .next (s.answer k .check [])) ∧
    (∀ k : Byte, (s.port.handling ≠ none ∨ s.start.state = .loading) →
      exec (.unknownRequest k true) s = .next (s.answer k .busy [])) ∧
    (∀ k : Byte, s.port.handling = none → s.start.state ≠ .loading →
      exec (.unknownRequest k true) s = .next (s.answer k .unknown [])) ∧
    (s.head.owedDone = [] →
      exec (.placeOrder .badCheck) s = .next (State.tryTransmit (s.answer 0x10#8 .check [])) ∧
      (∀ r : Req OrderBody, r ≠ .badCheck → (s.port.handling ≠ none ∨ s.start.state = .loading) →
        exec (.placeOrder r) s = .next (State.tryTransmit (s.answer 0x10#8 .busy []))) ∧
      (s.port.handling = none → s.start.state ≠ .loading →
        exec (.placeOrder .badLength) s = .next (State.tryTransmit (s.answer 0x10#8 .range [0#8])) ∧
        (∀ b : OrderBody, s.cfg.roles.blend = false →
          exec (.placeOrder (.good b)) s = .next (State.tryTransmit (s.answer 0x10#8 .role []))) ∧
        (∀ b : OrderBody, s.cfg.roles.blend = true → s.start.state = .offlineConfig →
          exec (.placeOrder (.good b)) s = .next (State.tryTransmit (s.answer 0x10#8 .state []))) ∧
        (s.cfg.roles.blend = true → s.start.state ≠ .offlineConfig →
          exec (.placeOrder .badValue) s = .next (State.tryTransmit (s.answer 0x10#8 .range [0#8]))))) ∧
    ∀ (a : InvoiceRead) (b : MemoryRead) (c : MemoryWrite) (n : Nat) (d : CarrySet) (f : ChestName) (g : Option Nat)
      (x : PortRow), s.head.owedDone = [] → x ∈ portRows a b c n d f g →
      exec (x.cmd .badCheck) s = .next (State.tryTransmit (s.answer x.kind .check [])) ∧
      (∀ r : Req Unit, r ≠ .badCheck → (s.port.handling ≠ none ∨ s.start.state = .loading) →
        exec (x.cmd r) s = .next (State.tryTransmit (s.answer x.kind .busy []))) ∧
      (s.port.handling = none → s.start.state ≠ .loading →
        exec (x.cmd .badLength) s = .next (State.tryTransmit (s.answer x.kind .range [])) ∧
        (x.group.allows s.cfg.roles = false →
          exec (x.cmd (.good ())) s = .next (State.tryTransmit (s.answer x.kind .role []))) ∧
        (x.group.allows s.cfg.roles = true → x.group ≠ .all → s.start.state = .offlineConfig →
          exec (x.cmd (.good ())) s = .next (State.tryTransmit (s.answer x.kind .state []))) ∧
        (x.group.allows s.cfg.roles = true → (x.group = .all ∨ s.start.state ≠ .offlineConfig) →
          exec (x.cmd .badValue) s = .next (State.tryTransmit (s.answer x.kind .range []))))

/-- R156, R175, R177: the reading requests change nothing but the answer place, and READ REPORT takes the oldest report
out of its queue. The layout of the bodies follows log 36, what an OFFLINE station answers to READ STATUS and READ STATION
TABLE log 65; the lines of a plate that is being composed are a free value (log 37). -/
def Obligations.PortReads : Prop :=
  ∀ s : State, PortTakes s .all →
    exec (.readStatus (.good ())) s = .next (State.tryTransmit (s.answer 0x01#8 .ok s.statusBody)) ∧
    (s.port.reports = [] → exec (.readReport (.good ())) s = .next (State.tryTransmit (s.answer 0x02#8 .state []))) ∧
    (∀ (r : Report) (l : List Report), s.port.reports = r :: l →
      exec (.readReport (.good ())) s =
        .next (State.tryTransmit (({ s with port := { s.port with reports := l } }).answer 0x02#8 .ok (putReport r)))) ∧
    (∀ b : InvoiceRead, s.inv.find b.inv = none →
      exec (.readInvoice (.good b)) s = .next (State.tryTransmit (s.answer 0x03#8 .unknown []))) ∧
    (∀ (b : InvoiceRead) (x : Entry), s.inv.find b.inv = some x → (b.first = 0 ∨ 120 < b.first ∨ 8 < b.count) →
      exec (.readInvoice (.good b)) s = .next (State.tryTransmit (s.answer 0x03#8 .range []))) ∧
    (∀ (b : InvoiceRead) (x : Entry), s.inv.find b.inv = some x → 1 ≤ b.first → b.first ≤ 120 → b.count ≤ 8 →
      exec (.readInvoice (.good b)) s =
        .next (State.tryTransmit (s.answer 0x03#8 .ok (x.readBody b.first b.count)))) ∧
    exec (.readStationTable (.good ())) s = .next (State.tryTransmit (s.answer 0x04#8 .ok s.tableBody)) ∧
    (s.cfg.roles.mark = true → s.start.state ≠ .offlineConfig →
      (∀ n : Nat, n ≠ 1 → n ≠ 2 →
        exec (.readPlate (.good n)) s = .next (State.tryTransmit (s.answer 0x33#8 .range []))) ∧
      (∀ (n : Nat) (p : PlateName), (n = 1 ∧ p = .a) ∨ (n = 2 ∧ p = .b) →
        ((s.mark.plate p).cond ≠ .composing →
          exec (.readPlate (.good n)) s =
            .next (State.tryTransmit (s.answer 0x33#8 .ok (s.mark.plateBody p (s.mark.plate p).lines)))) ∧
        ((s.mark.plate p).cond = .composing →
          ∃ l : List Text, l.length ≤ 4 ∧ (∀ t ∈ l, t.length ≤ 20) ∧
            exec (.readPlate (.good n)) s =
              .next (State.tryTransmit { s.answer 0x33#8 .ok (s.mark.plateBody p l) with draws := s.draws + 1 }))))

/-- R173, R183: the two memory requests are answered RANGE past the memory's end, and are otherwise handled until their
transfer ends; a read answers the bytes, a write leaves exactly the named bytes changed. R173, R189: until an answer is ready,
and while the reset pin is low, the host clocks out FF in every place, a byte that no request kind uses; an answer that is
ready it reads as kind, code, body length, body and the byte that brings the sum to 0. -/
def Obligations.MemoryTransfers : Prop :=
  (∀ (a : InvoiceRead) (b : MemoryRead) (c : MemoryWrite) (n : Nat) (d : CarrySet) (f : ChestName) (g : Option Nat)
    (x : PortRow), x ∈ portRows a b c n d f g → x.kind ≠ 0xFF#8) ∧
  ∀ s : State,
    (∀ k : Nat, (s.start.resetLow = true ∨ s.port.answer = none) → s.portReads k = List.replicate k 0xFF#8) ∧
    (∀ a : Answer, s.start.resetLow = false → s.port.answer = some a →
      ∃ x : Byte, (∀ k : Nat, s.portReads k =
          ([a.kind] ++ putCode portAnswers a.code ++ put2 a.body.length ++ a.body ++ [x]).take k) ∧
        ([a.kind] ++ putCode portAnswers a.code ++ put2 a.body.length ++ a.body ++ [x]).foldl (fun t y => t + y.toNat) 0 % 256
          = 0) ∧
    (∀ b : MemoryRead, PortTakes s .all →
      ((b.count = 0 ∨ 32 < b.count ∨ 2048 < b.offset + b.count) →
        exec (.readConfigMemory (.good b)) s = .next (State.tryTransmit (s.answer 0x07#8 .range []))) ∧
      (1 ≤ b.count → b.count ≤ 32 → b.offset + b.count ≤ 2048 →
        exec (.readConfigMemory (.good b)) s =
          .next (State.tryTransmit { s with
            port := { s.port with answer := none, handling := some (.read b.offset b.count) } }))) ∧
    (∀ b : MemoryWrite, PortTakes s .all →
      (2048 < b.offset + b.data.length →
        exec (.writeConfigMemory (.good b)) s = .next (State.tryTransmit (s.answer 0x08#8 .range []))) ∧
      (b.offset + b.data.length ≤ 2048 →
        exec (.writeConfigMemory (.good b)) s =
          .next (State.tryTransmit { s with
            port := { s.port with answer := none, handling := some (.write b.offset b.data) } }))) ∧
    (∀ o n : Nat, s.port.handling = some (.read o n) →
      ∃ l : List Byte, l.length = n ∧ (∀ k, k < n → l[k]? = some (Memory.read s.cfgMem (o + k))) ∧
        exec .configReadTransferEnd s =
          .next { s with port := { s.port with
            handling := none, answer := some { kind := 0x07#8, code := .ok, body := l } } }) ∧
    (∀ (o : Nat) (d : List Byte), s.port.handling = some (.write o d) → Memory.wf s.cfgMem = true →
      ∃ m : List Host.Cell, Memory.wf m = true ∧
        (∀ a, Memory.read m a = if o ≤ a ∧ a < o + d.length then (d[a - o]?).getD 0#8 else Memory.read s.cfgMem a) ∧
        exec .configWriteTransferEnd s =
          .next { s with
            cfgMem := m, start := { s.start with memChanged := true },
            port := { s.port with handling := none, answer := some { kind := 0x08#8, code := .ok, body := [] } } })

/-- R65, R66, R72, R75, R79, R81, R82, R84: the requests of the blend sequencer. That a REDRAW which fits the RANGE row is
answered RANGE also while the settle mark is clear is the model's choice (log 69), and so is what a CANCEL keeps of the
order: its current component, and stop pending for an invoice that was lost (log 76). R33, R81: a CANCEL while the
claim is ASKED abandons a request not yet claimed, takes a queued first CLAIM back, withdraws a number in its claim window,
and marks a claim found firm; one of the station's own FIRM invoice ends it CANCELLED, which closes it where it has no
chests, fills or short. R72, R73: CONTINUE of a starved component that has settled lowers the book for the carry-over
component and begins the next one, or ends the charging, which asks for a number. R87: the answers of a drum HELD by a
restart; that CONTINUE and REDRAW act on the latest reading where it is stable is the model's choice (log 24), as is the
bound of a drawn weight (log 26). -/
def Obligations.BlendRequests : Prop :=
  ∀ s : State, PortTakes s .blend →
    (∀ b : OrderBody,
      ((s.blend.state ≠ .idle ∨ s.dupOffline = true) →
        exec (.placeOrder (.good b)) s = .next (State.tryTransmit (s.answer 0x10#8 .state []))) ∧
      (s.blend.state = .idle → s.dupOffline = false →
        (orderInRange b = false →
          exec (.placeOrder (.good b)) s = .next (State.tryTransmit (s.answer 0x10#8 .range [0#8]))) ∧
        (orderInRange b = true → b.grade ∈ s.start.rejected →
          exec (.placeOrder (.good b)) s = .next (State.tryTransmit (s.answer 0x10#8 .range [1#8]))) ∧
        (orderInRange b = true → b.grade ∉ s.start.rejected →
          (120 * s.targetOf b.grade < (s.blend.compsOf b).foldl (fun t c => t + c.target) 0 ∨
            500000 < (s.blend.compsOf b).foldl (fun t c => t + c.target) 0) →
          exec (.placeOrder (.good b)) s = .next (State.tryTransmit (s.answer 0x10#8 .range [2#8]))) ∧
        (orderInRange b = true → b.grade ∉ s.start.rejected →
          (s.blend.compsOf b).foldl (fun t c => t + c.target) 0 ≤ 120 * s.targetOf b.grade →
          (s.blend.compsOf b).foldl (fun t c => t + c.target) 0 ≤ 500000 → s.blend.stableNow = none →
          exec (.placeOrder (.good b)) s =
            .next (State.tryTransmit { s.answer 0x10#8 .ok [] with
              blend := { s.blend with
                state := .charging,
                order := some
                  { number := b.order, grade := b.grade, garden := b.garden.getD s.cfg.garden,
                    mix := b.mix.getD s.cfg.mixTurns, cur := some 0, charged := none, turns := 0, claim := .none,
                    batch := none, draw := .waitStart,
                    comps := (s.blend.compsOf b).modify 0 (fun c =>
                      { c with state := .drawing, start := none, peak := 0, settle := false }) } } })))) ∧
    (s.blend.cancellable = false →
      exec (.cancel (.good ())) s = .next (State.tryTransmit (s.answer 0x11#8 .state []))) ∧
    (∀ o : Order, s.blend.cancellable = true → s.blend.order = some o →
      (o.claim = .none ∨ (o.claim = .firm ∧ o.batch.isSome = true ∧ s.blend.stop = some .ownerLost)) →
      exec (.cancel (.good ())) s =
        .next (State.tryTransmit { (s.answer 0x11#8 .ok []).report
            (Report.of .batchEnded o.batch none none (.code .cancelled)) with
          blend := { s.blend with
            state := .blocked, held := none, gate := none, starve := .stopped, stall := .stopped } })) ∧
    (s.blend.state ≠ .held →
      exec (.resume (.good ())) s = .next (State.tryTransmit (s.answer 0x12#8 .state [])) ∧
      ∀ n : Nat, exec (.redraw (.good n)) s = .next (State.tryTransmit (s.answer 0x13#8 .state []))) ∧
    (s.blend.state = .held → s.blend.held = some .mixStall →
      exec (.resume (.good ())) s =
        .next (State.tryTransmit { s.answer 0x12#8 .ok [] with
          blend := { s.blend with state := .mixing, held := none, stall := .running 10000 } })) ∧
    (∀ (o : Order) (k n : Nat) (c : Comp), s.blend.state = .held → s.blend.held = some .shortfall →
      s.blend.order = some o → o.cur = some k → o.comps[k]? = some c →
      (c.settle = false → exec (.resume (.good ())) s = .next (State.tryTransmit (s.answer 0x12#8 .state []))) ∧
      ((c.bin = 12 ∨ n = 0 ∨ 11 < n) →
        exec (.redraw (.good n)) s = .next (State.tryTransmit (s.answer 0x13#8 .range []))) ∧
      (c.bin ≠ 12 → 1 ≤ n → n ≤ 11 → c.settle = true → c.start.isSome = true → s.blend.stableNow = none →
        exec (.redraw (.good n)) s =
          .next (State.tryTransmit { s.answer 0x13#8 .ok [] with
            blend := { s.blend with
              state := .charging, held := none,
              order := some { o with
                draw := .waitAgain,
                comps := o.comps.modify k (fun c =>
                  { c with bin := n, drawn := 0, state := .drawing, settle := false }) } } }))) ∧
    (s.blend.state ≠ .discharging →
      exec (.endBatch (.good ())) s = .next (State.tryTransmit (s.answer 0x14#8 .state []))) ∧
    (∀ o : Order, s.blend.state = .discharging → s.blend.order = some o → s.blend.stop = some .stopped →
      exec (.endBatch (.good ())) s =
        .next (State.tryTransmit { (s.answer 0x14#8 .ok []).report
            (Report.of .batchEnded o.batch none none (.code .stopped)) with
          blend := { s.blend with
            state := .idle, held := none, stop := none, order := none, gate := none, starve := .stopped,
            stall := .stopped } })) ∧
    (∀ (b : Order) (n : Nat) (o : OwnerRec), s.canSend = true → JobRoom s → s.blend.state = .discharging →
      s.blend.order = some b → b.batch = some n → s.blend.stop = none → s.blend.stableNow = none →
      s.arb.openFlag = true → s.arb.current = none → s.arb.next = none → s.arb.queue = [] →
      s.inv.phase ≠ .waitFree → s.inv.owned n = some o → o.view.hdr.state = .opened → o.resendDelay = .stopped →
      o.issued < Config.maxVersion → o.short = none → o.fills.any (fun f => !f.lost) = true →
      ∃ (i : Inv) (h : Header),
        h = { o.view.hdr with state := .ending, endCause := some .stopped, residue := none, version := o.issued + 1 } ∧
        exec (.endBatch (.good ())) s =
          .next (State.tryTransmit { (s.answer 0x14#8 .ok []).queues
              (jobFrame 0 (headerMsg h false none) (.versioned n (o.issued + 1))) with
            blend := { s.blend with stop := some .stopped }, inv := i,
            arb := { s.arb with openFlag := false, batch := none, gate := false } }) ∧
        i = { s.inv with table := i.table } ∧ (∀ k, k ≠ n → i.find k = s.inv.find k) ∧
        (i.find n).map (fun x => x.data) = (s.inv.find n).map (fun x => x.data) ∧
        i.owned n = some { o with issued := o.issued + 1, view := { o.view with hdr := h } }) ∧
    ((s.blend.state ≠ .blocked ∨ s.blend.stableNow = none) →
      exec (.confirmEmpty (.good ())) s = .next (State.tryTransmit (s.answer 0x15#8 .state []))) ∧
    (∀ w : Int, s.blend.state = .blocked → s.blend.stableNow = some w →
      ((s.cfg.drumEmpty : Int) ≤ w →
        exec (.confirmEmpty (.good ())) s = .next (State.tryTransmit (s.answer 0x15#8 .range []))) ∧
      (w < (s.cfg.drumEmpty : Int) →
        exec (.confirmEmpty (.good ())) s =
          .next (State.tryTransmit { s.answer 0x15#8 .ok [] with
            blend := { s.blend with
              state := .idle, held := none, stop := none, order := none, gate := none, starve := .stopped,
              stall := .stopped } }))) ∧
    (∀ b : CarrySet,
      ((11 < b.grade ∨ 500000 < b.weight) →
        exec (.carryOverSet (.good b)) s = .next (State.tryTransmit (s.answer 0x16#8 .range []))) ∧
      (b.grade ≤ 11 → b.weight ≤ 500000 →
        (s.blend.carryBusy b.grade = true →
          exec (.carryOverSet (.good b)) s = .next (State.tryTransmit (s.answer 0x16#8 .state []))) ∧
        (s.blend.carryBusy b.grade = false →
          exec (.carryOverSet (.good b)) s =
            .next (State.tryTransmit { s.answer 0x16#8 .ok [] with
              blend := { s.blend with
                book := s.blend.book.setIfInBounds b.grade { weight := b.weight, count := 0 } } })))) ∧
    (∀ o : Order, s.blend.cancellable = true → s.blend.order = some o →
      (o.claim = .asked →
        ((s.inv.phase = .waitActive ∨ s.inv.phase = .waitFree ∨ s.inv.phase = .seasonEnd ∨ s.inv.phase = .retry) →
          exec (.cancel (.good ())) s =
            .next (State.tryTransmit { s.cancels o with
              inv := { s.inv with req := none, phase := .idle, claimRetry := .stopped } })) ∧
        (∀ n : Nat, s.inv.phase = .firm n →
          exec (.cancel (.good ())) s =
            .next (State.tryTransmit { s.cancels o with
              inv := ({ s.inv with req := none, phase := .idle } : Inv).updOwn n
                (fun y => { y with cancelled := true }) })) ∧
        (∀ (n : Nat) (l : List Nat), s.cfg.roles.mark = false → s.cfg.roles.paper = false →
          s.inv.phase = .queued n false l →
          exec (.cancel (.good ())) s =
            .next (State.tryTransmit { s.cancels o with
              line := s.line.removeWhere (Unsend.claim n).hits,
              inv := { s.inv with
                req := none, phase := .idle, table := s.inv.table.filter (fun y => y.num != n) } })) ∧
        (∀ (n : Nat) (second : Bool) (l : List Nat), s.cfg.roles.mark = false → s.cfg.roles.paper = false →
          s.inv.phase = .window n second l → s.canSend = true → JobRoom s →
          s.line.txq.all (fun f => f.tag != .claim n) = true →
          exec (.cancel (.good ())) s =
            .next (State.tryTransmit { (s.cancels o).queues (jobFrame 0 (.withdraw n) .withdraw) with
              inv := { s.inv with
                req := none, phase := .idle, claimWindow := .stopped,
                table := s.inv.table.filter (fun y => y.num != n) } }))) ∧
      (∀ (n : Nat) (w : OwnerRec) (h : Header), o.claim = .firm → o.batch = some n →
        s.blend.stop ≠ some .ownerLost → s.canSend = true → s.inv.phase ≠ .waitFree → s.inv.owned n = some w →
        w.view.hdr.state = .opened → w.view.chests = [] → w.fills = [] → w.short = none → w.settle = .stopped →
        w.resendDelay = .stopped → w.issued + 3 ≤ Config.maxVersion → s.line.txq.length + 3 ≤ Config.txPlaces →
        h = { w.view.hdr with state := .closed, endCause := some .cancelled, residue := none, version := w.issued + 3 } →
        exec (.cancel (.good ())) s =
          .next (State.tryTransmit { ((((s.cancels o).queues (jobFrame 0
                (headerMsg { h with state := .ending, version := w.issued + 1 } false none)
                (.versioned n (w.issued + 1)))).queues
              (jobFrame 0 (headerMsg { h with state := .marking, version := w.issued + 2 } false none)
                (.versioned n (w.issued + 2)))).queues
              (jobFrame 0 (headerMsg h false none) (.versioned n (w.issued + 3)))) with
            inv := s.inv.updOwn n (fun y => { y with issued := w.issued + 3, view := { w.view with hdr := h } }) }))) ∧
    (∀ (o : Order) (k left : Nat) (c : Comp) (b : Blend) (q : ClaimReq), s.blend.state = .held →
      s.blend.held = some .shortfall → s.blend.order = some o → o.cur = some k → o.comps[k]? = some c → c.settle = true →
      left = (s.blend.bookOf o.grade).weight - c.drawn →
      b = { s.blend with
        state := .charging, held := none,
        book := if c.bin = 12 then
            s.blend.book.setIfInBounds o.grade
              { weight := left, count := if left = 0 then 0 else (s.blend.bookOf o.grade).count }
          else s.blend.book } →
      q = { order := o.number, grade := o.grade, garden := o.garden,
            charged := min (o.comps.foldl (fun t y => t + y.drawn) 0) 500000 } →
      (∀ d : Comp, o.comps[k + 1]? = some d →
        (s.blend.stableNow = none →
          exec (.resume (.good ())) s =
            .next (State.tryTransmit { s.answer 0x12#8 .ok [] with
              blend := { b with order := some { o with
                cur := some (k + 1), draw := .waitStart,
                comps := o.comps.modify (k + 1) (fun y =>
                  { y with state := .drawing, start := none, peak := 0, settle := false }) } } })) ∧
        (∀ w : Int, s.blend.stableNow = some w →
          exec (.resume (.good ())) s =
            .next (State.tryTransmit { s.answer 0x12#8 .ok [] with
              blend := { b with
                gate := some d.bin, starve := .running 6000,
                order := some { o with
                  cur := some (k + 1), draw := .pouring,
                  comps := o.comps.modify (k + 1) (fun y =>
                    { y with state := .drawing, start := some w, peak := 0, settle := false }) } } }))) ∧
      (k + 1 = o.comps.length →
        (s.isActive = false →
          exec (.resume (.good ())) s =
            .next (State.tryTransmit { s.answer 0x12#8 .ok [] with
              blend := { b with
                state := .mixing, gate := none, starve := .stopped, stall := .running 10000,
                order := some { o with charged := some q.charged, cur := none, turns := 0, claim := .asked } },
              inv := { s.inv with phase := .waitActive, req := some q } })) ∧
        (s.isActive = true → s.start.resetLow = false → JobRoom s → s.inv.mark < s.cfg.last →
          s.inv.table.length < Config.tableEntries →
          exec (.resume (.good ())) s =
            .next (State.tryTransmit { (s.answer 0x12#8 .ok []).queues (jobFrame 0 (.claim
                { inv := s.inv.mark + 1, order := q.order, grade := q.grade, garden := q.garden, net := q.charged })
                (.claim (s.inv.mark + 1))) with
              blend := { b with
                state := .mixing, gate := none, starve := .stopped, stall := .running 10000,
                order := some { o with charged := some q.charged, cur := none, turns := 0, claim := .asked } },
              inv := { s.inv with
                mark := s.inv.mark + 1, req := some q, phase := .queued (s.inv.mark + 1) false [],
                table := s.inv.table ++
                  [{ Entry.made (s.claimHeader (s.inv.mark + 1) s.self q.order q.grade q.charged q.garden) .complete with
                      own := some (OwnerRec.start (Entry.made
                        (s.claimHeader (s.inv.mark + 1) s.self q.order q.grade q.charged q.garden)
                        .complete).data) }] } })))) ∧
    (∀ (o : Order) (k n : Nat) (c : Comp) (b : Blend), s.blend.state = .held → s.blend.held = some .restart →
      s.blend.order = some o → o.cur = some k → o.comps[k]? = some c →
      b = { s.blend with state := .charging, held := none } →
      (o.draw = .settling → s.blend.stableNow = none →
        exec (.resume (.good ())) s =
          .next (State.tryTransmit { s.answer 0x12#8 .ok [] with blend := b })) ∧
      (∀ (w : Int) (d : Comp), o.draw = .settling → s.blend.stableNow = some w → o.comps[k + 1]? = some d → c.bin ≠ 12 →
        exec (.resume (.good ())) s =
          .next (State.tryTransmit { s.answer 0x12#8 .ok [] with
            blend := { b with
              gate := some d.bin, starve := .running 6000,
              order := some { o with
                cur := some (k + 1), draw := .pouring,
                comps := (o.comps.modify k (fun y =>
                    { y with drawn := drawnWeight c.start w, state := .done, settle := true })).modify (k + 1) (fun y =>
                    { y with state := .drawing, start := some w, peak := 0, settle := false }) } } })) ∧
      (∀ v : Int, o.draw ≠ .settling → c.start = some v →
        (s.blend.stableNow = none →
          exec (.resume (.good ())) s =
            .next (State.tryTransmit { s.answer 0x12#8 .ok [] with
              blend := { b with order := some { o with draw := .waitAgain } } })) ∧
        (∀ w : Int, s.blend.stableNow = some w →
          exec (.resume (.good ())) s =
            .next (State.tryTransmit { s.answer 0x12#8 .ok [] with
              blend := { b with
                gate := some c.bin, starve := .running 6000,
                order := some { o with
                  draw := .pouring,
                  comps := o.comps.modify k (fun y => { y with start := some v, peak := w - v }) } } }))) ∧
      (o.draw ≠ .settling → c.start = none → s.blend.stableNow = none →
        exec (.resume (.good ())) s =
          .next (State.tryTransmit { s.answer 0x12#8 .ok [] with
            blend := { b with order := some { o with
              draw := .waitStart,
              comps := o.comps.modify k (fun y =>
                { y with state := .drawing, start := none, peak := 0, settle := false }) } } })) ∧
      ((c.bin = 12 ∨ n = 0 ∨ 11 < n) →
        exec (.redraw (.good n)) s = .next (State.tryTransmit (s.answer 0x13#8 .range []))) ∧
      (c.bin ≠ 12 → 1 ≤ n → n ≤ 11 → s.blend.stableNow = none →
        exec (.redraw (.good n)) s = .next (State.tryTransmit (s.answer 0x13#8 .state [])))) ∧
    (∀ (o : Order) (k n : Nat) (c : Comp) (v w : Int), s.blend.state = .held →
      (s.blend.held = some .restart ∨ (s.blend.held = some .shortfall ∧ c.settle = true)) →
      s.blend.order = some o → o.cur = some k → o.comps[k]? = some c → c.bin ≠ 12 → 1 ≤ n → n ≤ 11 →
      s.blend.stableNow = some w → c.start = some v →
      exec (.redraw (.good n)) s =
        .next (State.tryTransmit { s.answer 0x13#8 .ok [] with
          blend := { s.blend with
            state := .charging, held := none, gate := some n, starve := .running 6000,
            order := some { o with
              draw := .pouring,
              comps := o.comps.modify k (fun y =>
                { y with bin := n, drawn := 0, state := .drawing, settle := false, start := some v,
                         peak := w - v }) } } }))

/-- R46, R165, R166, R169: the requests of the paper unit, and FORCE ADOPT. The number of a sheet's parts, and the taking set
that holds a taking in flight, are the model's (log 59), as is the layout of the bodies (log 36). -/
def Obligations.PaperRequests : Prop :=
  ∀ (s : State) (n : Nat),
    (PortTakes s .paper →
      (s.paper.queue = [] → exec (.openSheet (.good none)) s = .next (State.tryTransmit (s.answer 0x40#8 .state []))) ∧
      (∀ (k : PaperEntry) (q : List PaperEntry) (x : Entry), s.paper.queue = k :: q → s.inv.find k.inv = some x →
        x.data.hdr.state = .closed → x.copy = .complete → s.paper.takes k.inv = false →
        exec (.openSheet (.good none)) s =
          .next (State.tryTransmit { s.answer 0x40#8 .ok (openBody x) with
            paper := { s.paper with window :=
              { shown := some (k.inv, x.data.hdr.version),
                cause := if s.paper.window.shown.isSome then .replaced else s.paper.window.cause } } })) ∧
      (s.inv.find n = none →
        exec (.openSheet (.good (some n))) s = .next (State.tryTransmit (s.answer 0x40#8 .unknown []))) ∧
      (∀ x : Entry, s.inv.find n = some x →
        ((x.data.hdr.state ≠ .closed ∨ x.copy ≠ .complete ∨ s.paper.takes n = true) →
          exec (.openSheet (.good (some n))) s = .next (State.tryTransmit (s.answer 0x40#8 .state []))) ∧
        (x.data.hdr.state = .closed → x.copy = .complete → s.paper.takes n = false →
          exec (.openSheet (.good (some n))) s =
            .next (State.tryTransmit { s.answer 0x40#8 .ok (openBody x) with
              paper := { s.paper with window :=
                { shown := some (n, x.data.hdr.version),
                  cause := if s.paper.window.shown.isSome then .replaced else s.paper.window.cause } } }))) ∧
      (s.paper.window.shown = none →
        (∀ k : Nat, exec (.readSheetPart (.good k)) s = .next (State.tryTransmit (s.answer 0x41#8 .state []))) ∧
        exec (.sheetDone (.good ())) s = .next (State.tryTransmit (s.answer 0x42#8 .state []))) ∧
      (∀ (v k : Nat) (x : Entry), s.paper.window.shown = some (n, v) → s.inv.find n = some x →
        (sheetParts x.data.hdr.entered ≤ k →
          exec (.readSheetPart (.good k)) s = .next (State.tryTransmit (s.answer 0x41#8 .range []))) ∧
        (k < sheetParts x.data.hdr.entered → x.copy = .complete → x.data.hdr.version = v →
          exec (.readSheetPart (.good k)) s =
            .next (State.tryTransmit
              (s.answer 0x41#8 .ok (sheetBody s.cfg.season x.data s.paper.gaps s.paper.gapOver k)))) ∧
        (k < sheetParts x.data.hdr.entered → (x.copy ≠ .complete ∨ x.data.hdr.version ≠ v) →
          exec (.readSheetPart (.good k)) s =
            .next (State.tryTransmit { s.answer 0x41#8 .state [] with
              paper := { s.paper with window := { shown := none, cause := .changed } } })) ∧
        ((x.copy ≠ .complete ∨ x.data.hdr.version ≠ v) →
          exec (.sheetDone (.good ())) s =
            .next (State.tryTransmit { s.answer 0x42#8 .state [] with
              paper := { s.paper with window := { shown := none, cause := .changed } } })) ∧
        (x.copy = .complete → x.data.hdr.version = v → x.orphan = true →
          exec (.sheetDone (.good ())) s = .next (State.tryTransmit (s.answer 0x42#8 .state []))) ∧
        (x.copy = .complete → x.data.hdr.version = v → x.orphan = false → s.canSend = true →
          ExRoom s (.sheetTaken n) →
          exec (.sheetDone (.good ())) s =
            .next (State.tryTransmit { (s.answer 0x42#8 .ok []).opens (.sheetTaken n) (.sheetTaken n) 0
                x.data.hdr.owner false with
              paper := { s.paper with
                window := { shown := none, cause := .done }, gapOver := false,
                gaps := s.paper.gaps.filter (fun m => decide (n ≤ m)),
                taking := s.paper.taking.filter (fun t => t.inv != n) ++ [{ inv := n, waits := .nothing }] } })))) ∧
    (PortTakes s .blendPaper →
      (s.inv.find n = none →
        exec (.forceAdopt (.good n)) s = .next (State.tryTransmit (s.answer 0x09#8 .unknown []))) ∧
      (∀ x : Entry, s.inv.find n = some x →
        ((s.isActive = false ∨ x.orphan = false ∨ s.adoptQueued n = true) →
          exec (.forceAdopt (.good n)) s = .next (State.tryTransmit (s.answer 0x09#8 .state []))) ∧
        (s.canSend = true → JobRoom s → s.cfg.roles.mark = false → s.paper.waiting = [] → s.isActive = true →
          (x.data.hdr.state = .closed ∨ s.paper.lists n = false) → x.orphan = true → s.adoptQueued n = false → x.data.hdr.version < Config.maxVersion →
          exec (.forceAdopt (.good n)) s =
            .next (State.tryTransmit { (s.answer 0x09#8 .ok []).queues (jobFrame 0 (.adopt
                { inv := n, oldOwner := x.data.hdr.owner, version := x.data.hdr.version + 1, forced := true })
                (.adopt n)) with
              inv := s.inv.upd n (fun y => { y with data := y.data.fillGaps }) }))))

/-! ## Starts and the join period (R176, R179 to R186) -/

/-- R179, R183: power gives a cold start, and a memory write that it stops has left some first part of its bytes, how
many is a free value (log 9). Power leaves the reset pin at its level (log 38). The
reset pin held low turns every output off; let go after 10 ms or more it gives a cold start, earlier a warm one, but
during a cold load, which stays cold and takes the kind WARM_PIN (log 33). What a start leaves where the rules are
silent: a LEASE-DONE owed goes (log 10), a start during a warm load counts (log 63), the values without a reset value stand as reset leaves them (log 1), the line is BUSY until it is heard (log
40), and the numbers of the own CLAIMED entries that a warm start frees join the gap list (log 59). A pin that is low or
high already is no event (log 3). -/
def Obligations.StartEvents : Prop :=
  ∀ s : State,
    (s.port.handling = none →
      ∃ t : State, exec .powerOn s = .next t ∧ ColdStarted s t .coldPower s.start.resetLow) ∧
    (∀ (o : Nat) (d : List Byte), s.port.handling = some (.write o d) →
      ∃ (t : State) (n : Nat), n ≤ d.length ∧ exec .powerOn s = .next t ∧
        ColdStarted { s with cfgMem := Memory.writeMany s.cfgMem o (d.take n), draws := s.draws + 1 } t .coldPower
          s.start.resetLow) ∧
    (s.start.resetLow = true → exec .resetPinLow s = .next s) ∧
    (s.start.resetLow = false → s.port.handling = none →
      exec .resetPinLow s = .next { s with start := { s.start with resetLow := true } } ∧
      ({ s with start := { s.start with resetLow := true } } : State).outputs = Outputs.off) ∧
    (∀ ms : Nat,
      (s.start.resetLow = false → exec (.resetPinRelease ms) s = .next s) ∧
      (s.start.resetLow = true → s.port.handling = none → 10 ≤ ms →
        ∃ t : State, exec (.resetPinRelease ms) s = .next t ∧ ColdStarted s t .coldPin false) ∧
      (s.start.resetLow = true → s.port.handling = none → ms < 10 →
        (s.start.state = .loading → s.start.isCold = true →
          exec (.resetPinRelease ms) s = .next { s with start := Start.cold .warmPin false }) ∧
        ((s.start.state ≠ .loading ∨ s.start.isCold = false) →
          ∃ t : State, exec (.resetPinRelease ms) s = .next t ∧ WarmStarted s t .warmPin ∧
            t.port.answer = s.port.answer)))

/-- R176: RESTART WARM is answered OK in JOINING, ACTIVE and OFFLINE of either cause; the warm start follows and keeps
the answer (the model's choice, log 33), drops a LEASE-DONE owed (log 10) and lists every own claim it frees as a gap (log
59); every request taken until the load ends is answered BUSY. -/
def Obligations.RestartWarm : Prop :=
  ∀ s : State, PortTakes s .all →
    (∃ t : State, exec (.restartWarm (.good ())) s = .next t ∧ WarmStarted s t .warmRequest ∧
      t.port.answer = some { kind := 0x06#8, code := .ok, body := [] } ∧ t.head.owedDone = []) ∧
    ∀ u : State, u.start.state = .loading → u.start.resetLow = false → u.head.owedDone = [] →
      (∀ (a : InvoiceRead) (b : MemoryRead) (c : MemoryWrite) (n : Nat) (d : CarrySet) (f : ChestName) (g : Option Nat)
        (x : PortRow) (r : Req Unit), x ∈ portRows a b c n d f g → r ≠ .badCheck →
        exec (x.cmd r) u = .next (u.answer x.kind .busy [])) ∧
      (∀ r : Req OrderBody, r ≠ .badCheck → exec (.placeOrder r) u = .next (u.answer 0x10#8 .busy [])) ∧
      ∀ k : Byte, exec (.unknownRequest k true) u = .next (u.answer k .busy [])

/-- R180, R181, R182, R184: a load that ends in a fault leaves the station OFFLINE with CONFIG_FAULT; one that ends good
takes the configuration, reports START, and leaves the station JOINING with its JOIN as the first frame. R18, R184,
R185: the retry delay queues JOIN again; at the end of the join period the station is ACTIVE and its PRESENCE says so.
The block order used up is the model's (log 6), and so is a warm load after a load that failed: it finds no configuration in
force and converts (log 34). R87, R123, R155, R171: what a warm load under the same number and roles does to the blocks, each
at a station of that role alone. CHARGING is HELD(RESTART) with SHORTFALL reported, which names no ordinal (the model's choice,
log 53); MIXING starts its stall timer, left as it is where a stop is pending (the model's choice, log 87); a DISCHARGING drum
whose invoice is lost stops, a test made with stop pending clear alone (the model's choice, log 56); an ASKED claim is asked
again. A head that fed, settled or waited for a top-up is HELD(RESTART) with HEAD_FAULT and sends neither LEASE-DONE nor
LEASE-CANCEL, so that the queue holds JOIN alone (the model's choice, log 62), and a flight under way goes unmeasured (log 44);
one that waits, reports or voids waits for its JOIN or the end of the join period, one in EMPTY tracks its zero. An entry that
printed or whose chest had passed the eye is in FAULT with RESTART and LANE_JAM, lane 1 first (log 103), a lane no longer
configured being passed over (log 102). The paper unit stays as it is. R20, R22, R185: the own
entry's moves raise their event, behind what the load has the blocks do and before the end-of-join notice (the model's choice,
log 42), and that to PRESENT is reported. R29, R36, R50, R87, R123, R155, R160, R170, R171, R185: the end of the join period
queues PRESENCE and, each at a station of one role, the WITHDRAWs owed, in the order of their list (the model's choice, log
98), the CLAIM of a held request, and for a batch DISCHARGING the begun notice, beside HEADER(RESUMED); opens again a
CHEST-DONE, a FILL-VOID not confirmed, a mark report of an entry, its mark answer reset (the model's choice, log 99), one with
no entry, which is not kept where a PRINTED entry holds its pair (the model's choice, log 120), and a taking; makes the acting
decision, which keeps the paper queue, builds it, or empties it; and has a STALE copy that records this station as its owner
ask. -/
def Obligations.LoadAndJoinPeriod : Prop :=
  (∀ s : State, s.start.resetLow = false → s.start.state = .loading →
     (∀ (answers : Bool) (f : CfgFault), loadMemory s.cfgMem answers = .inl f →
       exec (.configLoadEnd answers) s =
         .next ({ s with start := { s.start with
           state := .offlineConfig, fault := some f, rejected := [] } }.report (faultReport f))) ∧
     loadMemory s.cfgMem false = .inl .signature ∧
     ((Memory.read s.cfgMem 0 ≠ 0x4C#8 ∨ Memory.read s.cfgMem 1 ≠ 0x53#8) →
       loadMemory s.cfgMem true = .inl .signature) ∧
     (∀ c : Cfg, loadMemory s.cfgMem true = .inr c → s.start.isCold = true → s.line.txq = [] → s.head.owedDone = [] →
       s.inv.phase = .idle → s.mark.arrivals = [] → (s.mark.plate s.mark.compose).cond = .empty →
       ∃ t : State, exec (.configLoadEnd true) s = .next t ∧
         t.cfg = c ∧ t.cfgMem = s.cfgMem ∧
         t.start = { s.start with state := .joining, fault := none, rejected := c.rejected, converted := false } ∧
         t.inv = { s.inv with mark := c.first - 1 } ∧ t.fe.zero = c.zero ∧ t.head.allowance = c.allowance ∧
         t.head.refGrade = c.defGrade ∧
         t.port = { s.port with
           reports := (loadReports s.start.kind c.rejected).foldl addReport s.port.reports } ∧
         t.line.txq = [jobFrame 0 (.join
           { roles := c.roles, start := .cold, blender := if c.roles.head then some c.blender else none,
             lane1 := if c.roles.mark then some c.lane1 else none,
             lane2 := if c.roles.mark then c.lane2 else none }) .join]) ∧
     (∀ c : Cfg, loadMemory s.cfgMem true = .inr c → s.start.isCold = false →
       ∃ t : State, exec (.configLoadEnd true) s = .next t ∧
         t.cfg = c ∧ t.cfgMem = s.cfgMem ∧ t.start.state = .joining ∧ t.start.fault = none ∧
         t.start.rejected = c.rejected ∧
         t.start.converted = (c.number != s.cfg.number || c.roles != s.cfg.roles))) ∧
  (∀ (s : State) (c : Cfg), LoadsWarm s c →
     (s.cfg.roles = { blend := true, head := false, mark := false, paper := false } →
       (∀ o : Order, s.blend.state = .charging → s.blend.order = some o → o.claim = .none →
         ∃ t : State, exec (.configLoadEnd true) s = .next t ∧
           WarmLoaded s t c [Report.of .shortfall none none none (.code .restart)] ∧
           t.blend = { s.blend with state := .held, held := some .restart }) ∧
       (s.blend.state = .mixing →
         ∃ t : State, exec (.configLoadEnd true) s = .next t ∧ WarmLoaded s t c [] ∧
           t.blend = { s.blend with stall := if s.blend.stop.isSome then s.blend.stall else .running 10000 }) ∧
       (s.blend.state = .discharging →
         ∃ t : State, exec (.configLoadEnd true) s = .next t ∧ WarmLoaded s t c [] ∧
           t.blend = { s.blend with
             stop := if s.blend.stop = none ∧ ∀ n : Nat, s.blend.batchInv = some n → s.inv.owned n = none then
                 some .ownerLost
               else s.blend.stop }) ∧
       ((s.blend.state = .idle ∨ s.blend.state = .waitClaim ∨ s.blend.state = .held ∨ s.blend.state = .blocked) →
         ∃ t : State, exec (.configLoadEnd true) s = .next t ∧ WarmLoaded s t c [] ∧ t.blend = s.blend) ∧
       (∀ (o : Order) (w : Nat), (s.blend.state = .mixing ∨ s.blend.state = .waitClaim ∨ s.blend.state = .held) →
         s.blend.order = some o → o.claim = .asked → o.charged = some w →
         ∃ t : State, exec (.configLoadEnd true) s = .next t ∧ t.inv = { s.inv with
           phase := .waitActive,
           req := some { order := o.number, grade := o.grade, garden := o.garden, charged := w } })) ∧
     (s.cfg.roles = { blend := false, head := true, mark := false, paper := false } →
       ((s.head.state = .fast ∨ s.head.state = .dribble ∨ s.head.state = .settling ∨ s.head.state = .topupWait) →
         ∃ t : State, exec (.configLoadEnd true) s = .next t ∧
           WarmLoaded s t c [Report.of .headFault (s.head.chest.bind (fun x => x.inv)) none none (.code .restart)] ∧
           t.head = { s.head with
             state := .held, lease := .none, cause := some .restart, flight := .stopped, settle := .stopped,
             sendFrame := none, refusedVoid := false, waitOwner := false, waitBlender := false, waitJoin := false,
             chest := s.head.chest.map (fun x => { x with
               lease := none,
               flight := if s.head.flight.on = true ∨ s.head.state = .fast ∨ s.head.state = .dribble then none
                 else x.flight }) }) ∧
       (s.head.state = .waiting →
         ∃ t : State, exec (.configLoadEnd true) s = .next t ∧ WarmLoaded s t c [] ∧
           t.head = { s.head with
             lease := .none, waitJoin := true, waitBlender := false,
             chest := s.head.chest.map (fun x => { x with lease := none }) }) ∧
       ((s.head.state = .reported ∨ (s.head.state = .voiding ∧ s.head.voidOk = false)) →
         ∃ t : State, exec (.configLoadEnd true) s = .next t ∧ WarmLoaded s t c [] ∧
           t.head = { s.head with waitJoin := true, waitOwner := false }) ∧
       (s.head.state = .empty →
         ∃ t : State, exec (.configLoadEnd true) s = .next t ∧ WarmLoaded s t c [] ∧ t.head = s.head ∧
           t.fe.tracking = true) ∧
       ((s.head.state = .stopped ∨ s.head.state = .taring ∨ s.head.state = .releasing ∨ s.head.state = .held ∨
           s.head.state = .locked ∨ (s.head.state = .voiding ∧ s.head.voidOk = true)) →
         ∃ t : State, exec (.configLoadEnd true) s = .next t ∧ WarmLoaded s t c [] ∧ t.head = s.head)) ∧
     (s.cfg.roles = { blend := false, head := false, mark := true, paper := false } →
       ∃ t : State, exec (.configLoadEnd true) s = .next t ∧
         WarmLoaded s t c (c.lanes.flatMap (fun k =>
           ((s.mark.lane k).queue.filter (faultedByStart s.mark.arrivals k)).map (fun e =>
             Report.of .laneJam (some e.inv) (some e.ordinal) (c.laneHead k) (.code .restart)))) ∧
         t.mark = { s.mark with
           arrivals := [], head := if s.mark.head = .idle then .idle else .held,
           lane1 := s.mark.lane1.restarted s.mark.arrivals 1,
           lane2 := if c.lane2.isSome then s.mark.lane2.restarted s.mark.arrivals 2 else s.mark.lane2,
           plateA := if s.mark.compose = .a then s.mark.plateA.restarted else s.mark.plateA,
           plateB := if s.mark.compose = .b then s.mark.plateB.restarted else s.mark.plateB }) ∧
     (s.cfg.roles = { blend := false, head := false, mark := false, paper := true } →
       ∃ t : State, exec (.configLoadEnd true) s = .next t ∧ WarmLoaded s t c [] ∧ t.paper = s.paper)) ∧
  (∀ s : State, Ready s → s.start.state = .joining → JobRoom s →
     (s.start.retryT.on = true →
       exec .joinRetryDelayExpiry s =
         .next (State.tryTransmit ({ s with start := { s.start with retryT := .stopped } }.queues
           (jobFrame 0 s.joinMsg .join)))) ∧
     (s.start.joinT.on = true →
       (∃ t : State, exec .joinPeriodEnd s = .next t ∧
         t.start = { s.start with state := .active, joinT := .stopped } ∧ t.cfg = s.cfg ∧ t.cfgMem = s.cfgMem) ∧
       (s.cfg.roles = { blend := true, head := false, mark := false, paper := false } → NothingToResume s.inv →
         s.blend.batchInv = none →
         (OwnCopiesRest s.self s.inv →
           exec .joinPeriodEnd s =
             .next (State.tryTransmit { (s.report (Report.of .peerPresent none none (some s.self) .absent)).queues
                 (jobFrame 0 (.presence { roles := s.cfg.roles, state := .active, mark := s.inv.mark }) .presence) with
               start := { s.start with state := .active, joinT := .stopped },
               blockChoice := s.blockChoice / 720 / 720 })) ∧
         (∀ x : Entry, s.inv.table = [x] → x.data.hdr.owner = s.self → x.copy = .stale → x.askT = .stopped →
           s.line.txq.length + 2 ≤ Config.txPlaces →
           exec .joinPeriodEnd s =
             .next (State.tryTransmit { s.joined.queues (jobFrame s.self (.recordAsk x.num) (.ask x.num)) with
               inv := { s.inv with table := [{ x with askT := .running 500 }] } }))))) ∧
  (∀ s : State, s.cfg.roles = { blend := true, head := false, mark := false, paper := false } →
     (∀ l : List Nat, JoinEnds s (l.length + 1) → NothingOwned s.inv → OwnCopiesRest s.self s.inv →
       s.inv.phase = .idle → s.inv.withdrawOwed = l → s.blend.batchInv = none →
       exec .joinPeriodEnd s =
         .next (State.tryTransmit { s.joined with
           line := { s.joined.line with
             txq := s.joined.line.txq ++ l.map (fun n => jobFrame 0 (.withdraw n) .withdraw) },
           inv := { s.inv with withdrawOwed := [] } })) ∧
     (∀ (q : ClaimReq) (n : Nat), JoinEnds s 2 → NothingOwned s.inv → OwnCopiesRest s.self s.inv →
       s.inv.withdrawOwed = [] → s.blend.batchInv = none →
       s.inv.phase = .waitActive → s.inv.req = some q → s.inv.full = false → s.inv.mark < s.cfg.last → n = s.inv.mark + 1 →
       ∃ (i : Inv) (e : Entry), exec .joinPeriodEnd s =
           .next (State.tryTransmit { s.joined.queues (jobFrame 0 (.claim
             { inv := n, order := q.order, grade := q.grade, garden := q.garden, net := q.charged }) (.claim n)) with
             inv := i }) ∧
         i = { s.inv with mark := n, phase := .queued n false [], table := s.inv.table ++ [e] } ∧
         e.num = n ∧ e.own.isSome = true ∧ e.data.hdr.state = .claimed) ∧
     (∀ (n : Nat) (x : Entry) (o : OwnerRec) (h : Header), JoinEnds s 2 → s.inv.phase = .idle → s.inv.withdrawOwed = [] →
       s.inv.table = [x] → x.num = n → x.own = some o → o.conflicts = [] → o.settle = .stopped → o.resendDelay = .stopped →
       o.view.hdr.state = .opened → o.issued < Config.maxVersion → s.blend.batchInv = some n →
       s.blend.state = .discharging → s.blend.stop = none → s.arb.current = none → s.arb.queue = [] →
       h = { o.view.hdr with owner := s.self, version := o.issued + 1 } →
       ∃ t : State, exec .joinPeriodEnd s = .next t ∧
         t.arb = { s.arb with openFlag := true, batch := some n } ∧ t.blend = s.blend ∧ t.start = s.joined.start ∧
         t.line.txq = s.joined.line.txq ++ [jobFrame 0 (headerMsg h true none) (.versioned n (o.issued + 1))] ∧
         t.inv.owned n = some { o with issued := o.issued + 1, view := { o.view with hdr := h } })) ∧
  (∀ (s : State) (c : ChestNow) (n : Nat), s.cfg.roles = { blend := false, head := true, mark := false, paper := false } →
     JoinEnds s 2 → NothingToResume s.inv → OwnCopiesRest s.self s.inv → s.head.waitJoin = true → s.head.chest = some c → c.inv = some n →
     (∀ (g w : Nat) (k : ChestClass), s.head.state = .reported → c.gross = some g → c.net = some w → c.cls = some k →
       ExRoom s (.chestDone n c.token) →
       exec .joinPeriodEnd s =
         .next (State.tryTransmit { s.joined.opens (.chestDone n c.token)
             (.chestDone { inv := n, token := c.token, gross := g, tare := c.tare, net := w, topups := c.topups, cls := k,
                           flightLong := c.flightLong })
             (s.reportTo n) (s.reportTo n) (k == .short) with
           head := { s.head with cause := none, sendFrame := none, waitOwner := false, waitJoin := false } })) ∧
     (∀ w : Nat, s.head.state = .voiding → s.head.voidOk = false → c.voided = some w → ExRoom s (.fillVoid n c.token) →
       exec .joinPeriodEnd s =
         .next (State.tryTransmit { s.joined.opens (.fillVoid n c.token)
             (.fillVoid { inv := n, token := c.token, net := w }) (s.reportTo n) (s.reportTo n) false with
           head := { s.head with
             lease := .none, cause := none, sendFrame := none, refusedVoid := false, waitOwner := false,
             waitJoin := false } }))) ∧
  (∀ s : State, s.cfg.roles = { blend := false, head := false, mark := true, paper := false } → JoinEnds s 2 →
     NothingToResume s.inv → OwnCopiesRest s.self s.inv → s.mark.arrivals = [] → (s.mark.plate s.mark.compose).cond = .empty →
     (∀ (k : Nat) (x : LaneEntry), k ∈ s.cfg.lanes →
       (s.mark.lane k).queue.filter s.joinReopens = [x] →
       (∀ j ∈ s.cfg.lanes, j ≠ k → (s.mark.lane j).queue.filter s.joinReopens = []) →
       s.mark.loose.filter s.joinReopensLoose = [] → ExRoom s (.markDone x.inv x.ordinal) →
       exec .joinPeriodEnd s =
         .next (State.tryTransmit { s.joined.opens (.markDone x.inv x.ordinal)
             (.markDone { inv := x.inv, ordinal := x.ordinal, how := x.how.getD .printed, marker := s.self })
             (s.markTo x.inv x.source) (s.markTo x.inv x.source) false with
           mark := (s.mark.setLane k (fun l =>
             l.upd x.inv x.ordinal (fun y => { y with answer := .none, waits := .nothing }))).looseReplaced
               x.inv x.ordinal })) ∧
     (∀ r : LooseReport,
       (∀ j ∈ s.cfg.lanes, (s.mark.lane j).queue.filter s.joinReopens = []) →
       s.mark.loose.filter s.joinReopensLoose = [r] → ExRoom s (.markDone r.inv r.ordinal) →
       (r.source.isSome = true ∨ (s.inv.find r.inv).isSome = true) →
       exec .joinPeriodEnd s =
         .next (State.tryTransmit { s.joined.opens (.markDone r.inv r.ordinal)
             (.markDone { inv := r.inv, ordinal := r.ordinal, how := .hand, marker := s.self })
             (s.markTo r.inv (r.source.getD 0)) (s.markTo r.inv (r.source.getD 0)) false with
           mark := { s.mark with
             loose := s.mark.loose.filter (fun y => !(y.inv == r.inv && y.ordinal == r.ordinal)) ++
               if s.mark.printedOf s.cfg r.inv r.ordinal = [] then [{ r with waits := .nothing }] else [] } }))) ∧
  (∀ s : State, s.cfg.roles = { blend := false, head := false, mark := false, paper := true } → JoinEnds s 2 →
     NothingToResume s.inv → OwnCopiesRest s.self s.inv →
     (s.paper.taking.filter s.joinReopensTaking = [] →
       (s.paper.acting = (s.joined.actingStation == some s.self) →
         exec .joinPeriodEnd s =
           .next (State.tryTransmit { s.joined with paper := { s.paper with found := s.joined.actingStation } })) ∧
       (s.paper.acting = true → s.joined.actingStation ≠ some s.self →
         exec .joinPeriodEnd s =
           .next (State.tryTransmit { s.joined with paper := { s.paper with
             acting := false, found := s.joined.actingStation, queue := [], waiting := [] } })) ∧
       (∀ x : Entry, s.paper.acting = false → s.joined.actingStation = some s.self → s.inv.closedEntries = [x] →
         x.copy = .complete →
         exec .joinPeriodEnd s =
           .next (State.tryTransmit { s.joined.report (Report.of .sheetReady (some x.num) none none .absent) with
             paper := { s.paper with
               acting := true, found := some s.self, queue := [{ inv := x.num, seq := s.paper.nextSeq }], waiting := [],
               nextSeq := s.paper.nextSeq + 1 } }))) ∧
     (∀ (k : Taking) (x : Entry), s.paper.taking.filter s.joinReopensTaking = [k] →
       s.inv.find k.inv = some x → s.paper.acting = (s.joined.actingStation == some s.self) →
       ExRoom s (.sheetTaken k.inv) →
       exec .joinPeriodEnd s =
         .next (State.tryTransmit { s.joined.opens (.sheetTaken k.inv) (.sheetTaken k.inv) 0 x.data.hdr.owner false with
           paper := { s.paper with
             found := s.joined.actingStation,
             taking := s.paper.taking.map (fun y => if s.joinReopensTaking y then { y with waits := .nothing } else y) } })))

/-! ## Received frames as bytes (R3, R4, R188) -/

/-- R3: the class of the bytes received after sync; R4: each invalid class has its tally, which saturates; READ TALLIES
answers the four and clears them; cold start clears them, a warm start keeps them, and going OFFLINE for a duplicate
number (R6) keeps them and the station goes on counting. -/
def Obligations.FrameTallies : Prop :=
  (∀ l : List Byte,
    (l.length < 6 → classify l = .short) ∧
    (54 < l.length → classify l = .long) ∧
    (6 ≤ l.length → l.length ≤ 54 →
      (l.drop (l.length - 2) ≠ put2 (crc16 (l.take (l.length - 2))) → classify l = .check) ∧
      (l.drop (l.length - 2) = put2 (crc16 (l.take (l.length - 2))) →
        ((24 < (l[2]?.getD 0#8).toNat ∨ (l[2]?.getD 0#8).toNat = 0) → classify l = .form) ∧
        ((l[3]?.getD 0#8).toNat ≠ l.length - 6 → classify l = .form) ∧
        (24 < (l[0]?.getD 0#8).toNat → classify l = .form) ∧
        (((l[1]?.getD 0#8).toNat = 0 ∨ 24 < (l[1]?.getD 0#8).toNat) → classify l = .form) ∧
        (∀ k : FrameKind, frameKinds[(l[2]?.getD 0#8).toNat - 1]? = some k → 1 ≤ (l[2]?.getD 0#8).toNat →
          (l.length - 6 ∉ bodyLengths k → classify l = .form) ∧
          (l.length - 6 ∈ bodyLengths k → (l[3]?.getD 0#8).toNat = l.length - 6 → (l[0]?.getD 0#8).toNat ≤ 24 →
            1 ≤ (l[1]?.getD 0#8).toNat → (l[1]?.getD 0#8).toNat ≤ 24 →
            ∃ m : Option Msg, classify l =
              .valid k { dst := (l[0]?.getD 0#8).toNat, src := (l[1]?.getD 0#8).toNat } m))))) ∧
  (∀ (s : State) (l : List Byte), s.working = true → s.head.owedDone = [] →
    (classify l = .short →
      exec (.invalidFrame l) s =
        .next { s with line := { s.line.frameEnd with tallyShort := min (s.line.tallyShort + 1) 255 } }) ∧
    (classify l = .long →
      exec (.invalidFrame l) s =
        .next { s with line := { s.line.frameEnd with tallyLong := min (s.line.tallyLong + 1) 255 } }) ∧
    (classify l = .check →
      exec (.invalidFrame l) s =
        .next { s with line := { s.line.frameEnd with tallyCheck := min (s.line.tallyCheck + 1) 255 } }) ∧
    (classify l = .form →
      exec (.invalidFrame l) s =
        .next { s with line := { s.line.frameEnd with tallyForm := min (s.line.tallyForm + 1) 255 } })) ∧
  (∀ s : State, PortTakes s .all →
    exec (.readTallies (.good ())) s =
      .next (State.tryTransmit (({ s with line := { s.line with
        tallyShort := 0, tallyLong := 0, tallyCheck := 0, tallyForm := 0 } }).answer 0x05#8 .ok
          [BitVec.ofNat 8 s.line.tallyShort, BitVec.ofNat 8 s.line.tallyLong, BitVec.ofNat 8 s.line.tallyCheck,
           BitVec.ofNat 8 s.line.tallyForm]))) ∧
  (∀ s : State, ∃ t : State, exec .powerOn s = .next t ∧
    t.line.tallyShort = 0 ∧ t.line.tallyLong = 0 ∧ t.line.tallyCheck = 0 ∧ t.line.tallyForm = 0) ∧
  (∀ (s : State) (e : Env) (b : PresenceRead), s.working = true → e.src = s.self →
    ∃ t : State, exec (.presence e b) s = .next t ∧ t.dupOffline = true ∧
      t.line.tallyShort = s.line.tallyShort ∧ t.line.tallyLong = s.line.tallyLong ∧
      t.line.tallyCheck = s.line.tallyCheck ∧ t.line.tallyForm = s.line.tallyForm) ∧
  (∀ s : State, PortTakes s .all → ∃ t : State, exec (.restartWarm (.good ())) s = .next t ∧
    t.line.tallyShort = s.line.tallyShort ∧ t.line.tallyLong = s.line.tallyLong ∧
    t.line.tallyCheck = s.line.tallyCheck ∧ t.line.tallyForm = s.line.tallyForm)

/-- R187, R188: every frame whose envelope and body lie in their ranges, written as bytes, is received as itself. -/
def Obligations.FrameRoundTrip : Prop :=
  ∀ (e : Env) (m : Msg), e.wf = true → m.wf = true → classify (frameBytes e m) = .valid (msgKind m) e (some m)

/-! ## The queue, reset and the invariants -/

/-- A step takes the command at the front of the queue and runs it on the queue's rest; on an empty queue the block
idles (log 5). -/
def Obligations.StepRunsFrontCommand : Prop :=
  (∀ (c : Instr) (q : List Instr) (s : State), s.pending = c :: q → step s = exec c { s with pending := q }) ∧
  ∀ s : State, s.pending = [] → step s = .next s

/-- Every command is taken in every state, and leaves the queue as it is. -/
def Obligations.EveryCommandIsTaken : Prop :=
  ∀ (c : Instr) (s : State), ∃ t : State, exec c s = .next t ∧ t.pending = s.pending

/-- R4, R23, R50, R86, R88, R123, R139, R171, R179, R186: what reset leaves, and that it is a good state. The
configured values stand at 0 until a load ends (log 1), unlisted memory reads FF (log 2), and the presence input sees no
chest (log 40). -/
def Obligations.ResetState : Prop :=
  State.reset.start.state = .loading ∧ State.reset.start.kind = .coldPower ∧ State.reset.start.isCold = true ∧
  State.reset.start.warmCount = 0 ∧ State.reset.start.memChanged = false ∧ State.reset.pending = [] ∧
  State.reset.cfgMem = [] ∧ State.reset.line.txq = [] ∧ State.reset.line.exchanges = [] ∧
  State.reset.line.backoff = none ∧ State.reset.line.presence = .stopped ∧
  State.reset.line.tallyShort = 0 ∧ State.reset.line.tallyLong = 0 ∧ State.reset.line.tallyCheck = 0 ∧
  State.reset.line.tallyForm = 0 ∧ (∀ n, State.reset.line.peer n = Peer.cold) ∧
  State.reset.inv.table = [] ∧ State.reset.inv.retired = [] ∧ State.reset.fe.window = [] ∧
  State.reset.fe.weight = none ∧ State.reset.fe.stable = false ∧ State.reset.blend.state = .idle ∧
  (∀ g, State.reset.blend.bookOf g = { weight := 0, count := 0 }) ∧
  State.reset.arb.openFlag = false ∧ State.reset.arb.gate = false ∧ State.reset.arb.counter = 255 ∧
  State.reset.head.state = .stopped ∧ State.reset.head.chest = none ∧ State.reset.head.lastToken = 255 ∧
  State.reset.mark.head = .idle ∧ State.reset.mark.compose = .a ∧ State.reset.mark.arrivals = [] ∧
  State.reset.paper.acting = false ∧ State.reset.paper.window = { shown := none, cause := .none } ∧
  State.reset.port.reports = [] ∧ State.reset.port.answer = none ∧
  State.reset.outputs = { Outputs.off with laneStop1 := true, laneStop2 := true } ∧
  Memory.wf State.reset.cfgMem = true ∧ Bounded State.reset ∧ State.reset.arb.orderly

/-- R183: every step keeps the configuration memory in its canonical form, and changes no byte of it outside a write that
the port is handling. -/
def Obligations.MemoryKept : Prop :=
  ∀ s t : State, step s = .next t → Memory.wf s.cfgMem = true →
    Memory.wf t.cfgMem = true ∧
    ∀ a : Nat, (∀ (o : Nat) (d : List Byte), s.port.handling = some (.write o d) → a < o ∨ o + d.length ≤ a) →
      Memory.read t.cfgMem a = Memory.read s.cfgMem a

/-- R4, R11, R13, R24, R28, R49, R88, R89, R126, R139, R144, R161, R164, R177, R178: every step keeps the numbers that the
rules bound inside their bounds, no two invoice entries of one number, and only heads of the chute table in the chute. -/
def Obligations.BoundsHold : Prop := ∀ s t : State, step s = .next t → Bounded s → Bounded t

/-- R88, R93: every step keeps the chute in order: the gate is OPEN exactly while CURRENT holds a lease and the flag is
OPEN, and no head stands twice. -/
def Obligations.ChuteStaysOrderly : Prop := ∀ s t : State, step s = .next t → s.arb.orderly → t.arb.orderly
end

