-- ==== Sys2Proof/Laws/State.lean ====
section
/-! SUPPORT. One lemma for each field of State and each small operation on it, true by rfl or by the operation's cases. -/

namespace Sys2Proof.Machine

@[simp] theorem report_line (s : State) (r : Report) : (s.report r).line = s.line := rfl
@[simp] theorem answer_line (s : State) (k : Byte) (c : PortAnswer) (b : List Byte) : (s.answer k c b).line = s.line := rfl
@[simp] theorem usedChoice_line (s : State) : s.usedChoice.line = s.line := rfl
@[simp] theorem tellAll_line (s : State) (e : Ev) : (s.tellAll e).1.line = s.line := rfl
@[simp] theorem report_inv (s : State) (r : Report) : (s.report r).inv = s.inv := rfl
@[simp] theorem answer_inv (s : State) (k : Byte) (c : PortAnswer) (b : List Byte) : (s.answer k c b).inv = s.inv := rfl
@[simp] theorem usedChoice_inv (s : State) : s.usedChoice.inv = s.inv := rfl
@[simp] theorem tellAll_inv (s : State) (e : Ev) : (s.tellAll e).1.inv = s.inv := rfl
@[simp] theorem tryTransmit_inv (s : State) : s.tryTransmit.inv = s.inv := by
  unfold State.tryTransmit; split <;> rfl
@[simp] theorem gapReached_inv (s : State) : s.gapReached.inv = s.inv := by
  unfold State.gapReached; split <;> rfl
@[simp] theorem report_fe (s : State) (r : Report) : (s.report r).fe = s.fe := rfl
@[simp] theorem answer_fe (s : State) (k : Byte) (c : PortAnswer) (b : List Byte) : (s.answer k c b).fe = s.fe := rfl
@[simp] theorem usedChoice_fe (s : State) : s.usedChoice.fe = s.fe := rfl
@[simp] theorem tellAll_fe (s : State) (e : Ev) : (s.tellAll e).1.fe = s.fe := rfl
@[simp] theorem tryTransmit_fe (s : State) : s.tryTransmit.fe = s.fe := by
  unfold State.tryTransmit; split <;> rfl
@[simp] theorem gapReached_fe (s : State) : s.gapReached.fe = s.fe := by
  unfold State.gapReached; split <;> rfl
@[simp] theorem report_blend (s : State) (r : Report) : (s.report r).blend = s.blend := rfl
@[simp] theorem answer_blend (s : State) (k : Byte) (c : PortAnswer) (b : List Byte) : (s.answer k c b).blend = s.blend := rfl
@[simp] theorem usedChoice_blend (s : State) : s.usedChoice.blend = s.blend := rfl
@[simp] theorem tellAll_blend (s : State) (e : Ev) : (s.tellAll e).1.blend = s.blend := rfl
@[simp] theorem tryTransmit_blend (s : State) : s.tryTransmit.blend = s.blend := by
  unfold State.tryTransmit; split <;> rfl
@[simp] theorem gapReached_blend (s : State) : s.gapReached.blend = s.blend := by
  unfold State.gapReached; split <;> rfl
@[simp] theorem report_arb (s : State) (r : Report) : (s.report r).arb = s.arb := rfl
@[simp] theorem answer_arb (s : State) (k : Byte) (c : PortAnswer) (b : List Byte) : (s.answer k c b).arb = s.arb := rfl
@[simp] theorem usedChoice_arb (s : State) : s.usedChoice.arb = s.arb := rfl
@[simp] theorem tellAll_arb (s : State) (e : Ev) : (s.tellAll e).1.arb = s.arb := rfl
@[simp] theorem tryTransmit_arb (s : State) : s.tryTransmit.arb = s.arb := by
  unfold State.tryTransmit; split <;> rfl
@[simp] theorem gapReached_arb (s : State) : s.gapReached.arb = s.arb := by
  unfold State.gapReached; split <;> rfl
@[simp] theorem report_head (s : State) (r : Report) : (s.report r).head = s.head := rfl
@[simp] theorem answer_head (s : State) (k : Byte) (c : PortAnswer) (b : List Byte) : (s.answer k c b).head = s.head := rfl
@[simp] theorem usedChoice_head (s : State) : s.usedChoice.head = s.head := rfl
@[simp] theorem tellAll_head (s : State) (e : Ev) : (s.tellAll e).1.head = s.head := rfl
@[simp] theorem tryTransmit_head (s : State) : s.tryTransmit.head = s.head := by
  unfold State.tryTransmit; split <;> rfl
@[simp] theorem gapReached_head (s : State) : s.gapReached.head = s.head := by
  unfold State.gapReached; split <;> rfl
@[simp] theorem report_mark (s : State) (r : Report) : (s.report r).mark = s.mark := rfl
@[simp] theorem answer_mark (s : State) (k : Byte) (c : PortAnswer) (b : List Byte) : (s.answer k c b).mark = s.mark := rfl
@[simp] theorem usedChoice_mark (s : State) : s.usedChoice.mark = s.mark := rfl
@[simp] theorem tellAll_mark (s : State) (e : Ev) : (s.tellAll e).1.mark = s.mark := rfl
@[simp] theorem tryTransmit_mark (s : State) : s.tryTransmit.mark = s.mark := by
  unfold State.tryTransmit; split <;> rfl
@[simp] theorem gapReached_mark (s : State) : s.gapReached.mark = s.mark := by
  unfold State.gapReached; split <;> rfl
@[simp] theorem report_paper (s : State) (r : Report) : (s.report r).paper = s.paper := rfl
@[simp] theorem answer_paper (s : State) (k : Byte) (c : PortAnswer) (b : List Byte) : (s.answer k c b).paper = s.paper := rfl
@[simp] theorem usedChoice_paper (s : State) : s.usedChoice.paper = s.paper := rfl
@[simp] theorem tellAll_paper (s : State) (e : Ev) : (s.tellAll e).1.paper = s.paper := rfl
@[simp] theorem tryTransmit_paper (s : State) : s.tryTransmit.paper = s.paper := by
  unfold State.tryTransmit; split <;> rfl
@[simp] theorem gapReached_paper (s : State) : s.gapReached.paper = s.paper := by
  unfold State.gapReached; split <;> rfl
@[simp] theorem usedChoice_port (s : State) : s.usedChoice.port = s.port := rfl
@[simp] theorem tellAll_port (s : State) (e : Ev) : (s.tellAll e).1.port = s.port := rfl
@[simp] theorem tryTransmit_port (s : State) : s.tryTransmit.port = s.port := by
  unfold State.tryTransmit; split <;> rfl
@[simp] theorem gapReached_port (s : State) : s.gapReached.port = s.port := by
  unfold State.gapReached; split <;> rfl
@[simp] theorem report_start (s : State) (r : Report) : (s.report r).start = s.start := rfl
@[simp] theorem answer_start (s : State) (k : Byte) (c : PortAnswer) (b : List Byte) : (s.answer k c b).start = s.start := rfl
@[simp] theorem usedChoice_start (s : State) : s.usedChoice.start = s.start := rfl
@[simp] theorem tellAll_start (s : State) (e : Ev) : (s.tellAll e).1.start = s.start := rfl
@[simp] theorem tryTransmit_start (s : State) : s.tryTransmit.start = s.start := by
  unfold State.tryTransmit; split <;> rfl
@[simp] theorem gapReached_start (s : State) : s.gapReached.start = s.start := by
  unfold State.gapReached; split <;> rfl
@[simp] theorem report_cfg (s : State) (r : Report) : (s.report r).cfg = s.cfg := rfl
@[simp] theorem answer_cfg (s : State) (k : Byte) (c : PortAnswer) (b : List Byte) : (s.answer k c b).cfg = s.cfg := rfl
@[simp] theorem usedChoice_cfg (s : State) : s.usedChoice.cfg = s.cfg := rfl
@[simp] theorem tellAll_cfg (s : State) (e : Ev) : (s.tellAll e).1.cfg = s.cfg := rfl
@[simp] theorem tryTransmit_cfg (s : State) : s.tryTransmit.cfg = s.cfg := by
  unfold State.tryTransmit; split <;> rfl
@[simp] theorem gapReached_cfg (s : State) : s.gapReached.cfg = s.cfg := by
  unfold State.gapReached; split <;> rfl
@[simp] theorem report_cfgMem (s : State) (r : Report) : (s.report r).cfgMem = s.cfgMem := rfl
@[simp] theorem answer_cfgMem (s : State) (k : Byte) (c : PortAnswer) (b : List Byte) : (s.answer k c b).cfgMem = s.cfgMem := rfl
@[simp] theorem usedChoice_cfgMem (s : State) : s.usedChoice.cfgMem = s.cfgMem := rfl
@[simp] theorem tellAll_cfgMem (s : State) (e : Ev) : (s.tellAll e).1.cfgMem = s.cfgMem := rfl
@[simp] theorem tryTransmit_cfgMem (s : State) : s.tryTransmit.cfgMem = s.cfgMem := by
  unfold State.tryTransmit; split <;> rfl
@[simp] theorem gapReached_cfgMem (s : State) : s.gapReached.cfgMem = s.cfgMem := by
  unfold State.gapReached; split <;> rfl
@[simp] theorem report_presence (s : State) (r : Report) : (s.report r).presence = s.presence := rfl
@[simp] theorem answer_presence (s : State) (k : Byte) (c : PortAnswer) (b : List Byte) : (s.answer k c b).presence = s.presence := rfl
@[simp] theorem usedChoice_presence (s : State) : s.usedChoice.presence = s.presence := rfl
@[simp] theorem tellAll_presence (s : State) (e : Ev) : (s.tellAll e).1.presence = s.presence := rfl
@[simp] theorem tryTransmit_presence (s : State) : s.tryTransmit.presence = s.presence := by
  unfold State.tryTransmit; split <;> rfl
@[simp] theorem gapReached_presence (s : State) : s.gapReached.presence = s.presence := by
  unfold State.gapReached; split <;> rfl
@[simp] theorem report_blockChoice (s : State) (r : Report) : (s.report r).blockChoice = s.blockChoice := rfl
@[simp] theorem answer_blockChoice (s : State) (k : Byte) (c : PortAnswer) (b : List Byte) : (s.answer k c b).blockChoice = s.blockChoice := rfl
@[simp] theorem tryTransmit_blockChoice (s : State) : s.tryTransmit.blockChoice = s.blockChoice := by
  unfold State.tryTransmit; split <;> rfl
@[simp] theorem gapReached_blockChoice (s : State) : s.gapReached.blockChoice = s.blockChoice := by
  unfold State.gapReached; split <;> rfl
@[simp] theorem report_draws (s : State) (r : Report) : (s.report r).draws = s.draws := rfl
@[simp] theorem answer_draws (s : State) (k : Byte) (c : PortAnswer) (b : List Byte) : (s.answer k c b).draws = s.draws := rfl
@[simp] theorem usedChoice_draws (s : State) : s.usedChoice.draws = s.draws := rfl
@[simp] theorem tellAll_draws (s : State) (e : Ev) : (s.tellAll e).1.draws = s.draws := rfl
@[simp] theorem tryTransmit_draws (s : State) : s.tryTransmit.draws = s.draws := by
  unfold State.tryTransmit; split <;> rfl
@[simp] theorem gapReached_draws (s : State) : s.gapReached.draws = s.draws := by
  unfold State.gapReached; split <;> rfl
@[simp] theorem report_pending (s : State) (r : Report) : (s.report r).pending = s.pending := rfl
@[simp] theorem answer_pending (s : State) (k : Byte) (c : PortAnswer) (b : List Byte) : (s.answer k c b).pending = s.pending := rfl
@[simp] theorem usedChoice_pending (s : State) : s.usedChoice.pending = s.pending := rfl
@[simp] theorem tellAll_pending (s : State) (e : Ev) : (s.tellAll e).1.pending = s.pending := rfl
@[simp] theorem tryTransmit_pending (s : State) : s.tryTransmit.pending = s.pending := by
  unfold State.tryTransmit; split <;> rfl
@[simp] theorem gapReached_pending (s : State) : s.gapReached.pending = s.pending := by
  unfold State.gapReached; split <;> rfl

@[simp] theorem report_reports (s : State) (r : Report) : (s.report r).port.reports = addReport s.port.reports r := rfl
@[simp] theorem report_answer (s : State) (r : Report) : (s.report r).port.answer = s.port.answer := rfl
@[simp] theorem report_handling (s : State) (r : Report) : (s.report r).port.handling = s.port.handling := rfl
@[simp] theorem answer_answer (s : State) (k : Byte) (c : PortAnswer) (b : List Byte) :
    (s.answer k c b).port.answer = some { kind := k, code := c, body := b } := rfl
@[simp] theorem answer_reports (s : State) (k : Byte) (c : PortAnswer) (b : List Byte) :
    (s.answer k c b).port.reports = s.port.reports := rfl
@[simp] theorem answer_handling (s : State) (k : Byte) (c : PortAnswer) (b : List Byte) :
    (s.answer k c b).port.handling = s.port.handling := rfl

@[simp] theorem tryTransmit_txq (s : State) : s.tryTransmit.line.txq = s.line.txq := by
  unfold State.tryTransmit; split <;> rfl
@[simp] theorem tryTransmit_exchanges (s : State) : s.tryTransmit.line.exchanges = s.line.exchanges := by
  unfold State.tryTransmit; split <;> rfl
@[simp] theorem tryTransmit_table (s : State) : s.tryTransmit.line.table = s.line.table := by
  unfold State.tryTransmit; split <;> rfl
@[simp] theorem tryTransmit_tallies (s : State) :
    s.tryTransmit.line.tallyShort = s.line.tallyShort ∧ s.tryTransmit.line.tallyLong = s.line.tallyLong ∧
      s.tryTransmit.line.tallyCheck = s.line.tallyCheck ∧ s.tryTransmit.line.tallyForm = s.line.tallyForm := by
  unfold State.tryTransmit; split <;> simp [Line.busy]

end Sys2Proof.Machine
end

