-- ==== Sys2Proof/Laws/Actions.lean ====
section
/-! SUPPORT. What the actions of a block leave alone: everything but the line, the port, the tracking permission and the
block order. -/

namespace Sys2Proof.Machine

@[simp] theorem tellFailed_inv (s : State) (f : TxFrame) (b : Bool) : (s.tellFailed f b).1.inv = s.inv := by
  unfold State.tellFailed
  repeat' split
  all_goals rfl

@[simp] theorem sendFrame_inv (s : State) (f : TxFrame) : (s.sendFrame f).1.inv = s.inv := by
  unfold State.sendFrame
  repeat' split
  all_goals simp

@[simp] theorem openExchange_inv (s : State) (k : ExKey) (m : Msg) (d p : Nat) (b : Bool) :
    (s.openExchange k m d p b).1.inv = s.inv := by
  unfold State.openExchange
  dsimp only
  repeat' split
  all_goals simp

@[simp] theorem perform1_inv (s : State) (a : Act) : (s.perform1 a).1.inv = s.inv := by
  cases a <;> simp [State.perform1]

@[simp] theorem perform_inv (l : List Act) (s : State) : (s.perform l).1.inv = s.inv := by
  induction l generalizing s with
  | nil => rfl
  | cons a l ih => simp [State.perform, ih]

@[simp] theorem tellFailed_blend (s : State) (f : TxFrame) (b : Bool) : (s.tellFailed f b).1.blend = s.blend := by
  unfold State.tellFailed
  repeat' split
  all_goals rfl

@[simp] theorem sendFrame_blend (s : State) (f : TxFrame) : (s.sendFrame f).1.blend = s.blend := by
  unfold State.sendFrame
  repeat' split
  all_goals simp

@[simp] theorem openExchange_blend (s : State) (k : ExKey) (m : Msg) (d p : Nat) (b : Bool) :
    (s.openExchange k m d p b).1.blend = s.blend := by
  unfold State.openExchange
  dsimp only
  repeat' split
  all_goals simp

@[simp] theorem perform1_blend (s : State) (a : Act) : (s.perform1 a).1.blend = s.blend := by
  cases a <;> simp [State.perform1]

@[simp] theorem perform_blend (l : List Act) (s : State) : (s.perform l).1.blend = s.blend := by
  induction l generalizing s with
  | nil => rfl
  | cons a l ih => simp [State.perform, ih]

@[simp] theorem tellFailed_arb (s : State) (f : TxFrame) (b : Bool) : (s.tellFailed f b).1.arb = s.arb := by
  unfold State.tellFailed
  repeat' split
  all_goals rfl

@[simp] theorem sendFrame_arb (s : State) (f : TxFrame) : (s.sendFrame f).1.arb = s.arb := by
  unfold State.sendFrame
  repeat' split
  all_goals simp

@[simp] theorem openExchange_arb (s : State) (k : ExKey) (m : Msg) (d p : Nat) (b : Bool) :
    (s.openExchange k m d p b).1.arb = s.arb := by
  unfold State.openExchange
  dsimp only
  repeat' split
  all_goals simp

@[simp] theorem perform1_arb (s : State) (a : Act) : (s.perform1 a).1.arb = s.arb := by
  cases a <;> simp [State.perform1]

@[simp] theorem perform_arb (l : List Act) (s : State) : (s.perform l).1.arb = s.arb := by
  induction l generalizing s with
  | nil => rfl
  | cons a l ih => simp [State.perform, ih]

@[simp] theorem tellFailed_head (s : State) (f : TxFrame) (b : Bool) : (s.tellFailed f b).1.head = s.head := by
  unfold State.tellFailed
  repeat' split
  all_goals rfl

@[simp] theorem sendFrame_head (s : State) (f : TxFrame) : (s.sendFrame f).1.head = s.head := by
  unfold State.sendFrame
  repeat' split
  all_goals simp

@[simp] theorem openExchange_head (s : State) (k : ExKey) (m : Msg) (d p : Nat) (b : Bool) :
    (s.openExchange k m d p b).1.head = s.head := by
  unfold State.openExchange
  dsimp only
  repeat' split
  all_goals simp

@[simp] theorem perform1_head (s : State) (a : Act) : (s.perform1 a).1.head = s.head := by
  cases a <;> simp [State.perform1]

@[simp] theorem perform_head (l : List Act) (s : State) : (s.perform l).1.head = s.head := by
  induction l generalizing s with
  | nil => rfl
  | cons a l ih => simp [State.perform, ih]

@[simp] theorem tellFailed_mark (s : State) (f : TxFrame) (b : Bool) : (s.tellFailed f b).1.mark = s.mark := by
  unfold State.tellFailed
  repeat' split
  all_goals rfl

@[simp] theorem sendFrame_mark (s : State) (f : TxFrame) : (s.sendFrame f).1.mark = s.mark := by
  unfold State.sendFrame
  repeat' split
  all_goals simp

@[simp] theorem openExchange_mark (s : State) (k : ExKey) (m : Msg) (d p : Nat) (b : Bool) :
    (s.openExchange k m d p b).1.mark = s.mark := by
  unfold State.openExchange
  dsimp only
  repeat' split
  all_goals simp

@[simp] theorem perform1_mark (s : State) (a : Act) : (s.perform1 a).1.mark = s.mark := by
  cases a <;> simp [State.perform1]

@[simp] theorem perform_mark (l : List Act) (s : State) : (s.perform l).1.mark = s.mark := by
  induction l generalizing s with
  | nil => rfl
  | cons a l ih => simp [State.perform, ih]

@[simp] theorem tellFailed_paper (s : State) (f : TxFrame) (b : Bool) : (s.tellFailed f b).1.paper = s.paper := by
  unfold State.tellFailed
  repeat' split
  all_goals rfl

@[simp] theorem sendFrame_paper (s : State) (f : TxFrame) : (s.sendFrame f).1.paper = s.paper := by
  unfold State.sendFrame
  repeat' split
  all_goals simp

@[simp] theorem openExchange_paper (s : State) (k : ExKey) (m : Msg) (d p : Nat) (b : Bool) :
    (s.openExchange k m d p b).1.paper = s.paper := by
  unfold State.openExchange
  dsimp only
  repeat' split
  all_goals simp

@[simp] theorem perform1_paper (s : State) (a : Act) : (s.perform1 a).1.paper = s.paper := by
  cases a <;> simp [State.perform1]

@[simp] theorem perform_paper (l : List Act) (s : State) : (s.perform l).1.paper = s.paper := by
  induction l generalizing s with
  | nil => rfl
  | cons a l ih => simp [State.perform, ih]

@[simp] theorem tellFailed_start (s : State) (f : TxFrame) (b : Bool) : (s.tellFailed f b).1.start = s.start := by
  unfold State.tellFailed
  repeat' split
  all_goals rfl

@[simp] theorem sendFrame_start (s : State) (f : TxFrame) : (s.sendFrame f).1.start = s.start := by
  unfold State.sendFrame
  repeat' split
  all_goals simp

@[simp] theorem openExchange_start (s : State) (k : ExKey) (m : Msg) (d p : Nat) (b : Bool) :
    (s.openExchange k m d p b).1.start = s.start := by
  unfold State.openExchange
  dsimp only
  repeat' split
  all_goals simp

@[simp] theorem perform1_start (s : State) (a : Act) : (s.perform1 a).1.start = s.start := by
  cases a <;> simp [State.perform1]

@[simp] theorem perform_start (l : List Act) (s : State) : (s.perform l).1.start = s.start := by
  induction l generalizing s with
  | nil => rfl
  | cons a l ih => simp [State.perform, ih]

@[simp] theorem tellFailed_cfg (s : State) (f : TxFrame) (b : Bool) : (s.tellFailed f b).1.cfg = s.cfg := by
  unfold State.tellFailed
  repeat' split
  all_goals rfl

@[simp] theorem sendFrame_cfg (s : State) (f : TxFrame) : (s.sendFrame f).1.cfg = s.cfg := by
  unfold State.sendFrame
  repeat' split
  all_goals simp

@[simp] theorem openExchange_cfg (s : State) (k : ExKey) (m : Msg) (d p : Nat) (b : Bool) :
    (s.openExchange k m d p b).1.cfg = s.cfg := by
  unfold State.openExchange
  dsimp only
  repeat' split
  all_goals simp

@[simp] theorem perform1_cfg (s : State) (a : Act) : (s.perform1 a).1.cfg = s.cfg := by
  cases a <;> simp [State.perform1]

@[simp] theorem perform_cfg (l : List Act) (s : State) : (s.perform l).1.cfg = s.cfg := by
  induction l generalizing s with
  | nil => rfl
  | cons a l ih => simp [State.perform, ih]

@[simp] theorem tellFailed_cfgMem (s : State) (f : TxFrame) (b : Bool) : (s.tellFailed f b).1.cfgMem = s.cfgMem := by
  unfold State.tellFailed
  repeat' split
  all_goals rfl

@[simp] theorem sendFrame_cfgMem (s : State) (f : TxFrame) : (s.sendFrame f).1.cfgMem = s.cfgMem := by
  unfold State.sendFrame
  repeat' split
  all_goals simp

@[simp] theorem openExchange_cfgMem (s : State) (k : ExKey) (m : Msg) (d p : Nat) (b : Bool) :
    (s.openExchange k m d p b).1.cfgMem = s.cfgMem := by
  unfold State.openExchange
  dsimp only
  repeat' split
  all_goals simp

@[simp] theorem perform1_cfgMem (s : State) (a : Act) : (s.perform1 a).1.cfgMem = s.cfgMem := by
  cases a <;> simp [State.perform1]

@[simp] theorem perform_cfgMem (l : List Act) (s : State) : (s.perform l).1.cfgMem = s.cfgMem := by
  induction l generalizing s with
  | nil => rfl
  | cons a l ih => simp [State.perform, ih]

@[simp] theorem tellFailed_presence (s : State) (f : TxFrame) (b : Bool) : (s.tellFailed f b).1.presence = s.presence := by
  unfold State.tellFailed
  repeat' split
  all_goals rfl

@[simp] theorem sendFrame_presence (s : State) (f : TxFrame) : (s.sendFrame f).1.presence = s.presence := by
  unfold State.sendFrame
  repeat' split
  all_goals simp

@[simp] theorem openExchange_presence (s : State) (k : ExKey) (m : Msg) (d p : Nat) (b : Bool) :
    (s.openExchange k m d p b).1.presence = s.presence := by
  unfold State.openExchange
  dsimp only
  repeat' split
  all_goals simp

@[simp] theorem perform1_presence (s : State) (a : Act) : (s.perform1 a).1.presence = s.presence := by
  cases a <;> simp [State.perform1]

@[simp] theorem perform_presence (l : List Act) (s : State) : (s.perform l).1.presence = s.presence := by
  induction l generalizing s with
  | nil => rfl
  | cons a l ih => simp [State.perform, ih]

@[simp] theorem tellFailed_draws (s : State) (f : TxFrame) (b : Bool) : (s.tellFailed f b).1.draws = s.draws := by
  unfold State.tellFailed
  repeat' split
  all_goals rfl

@[simp] theorem sendFrame_draws (s : State) (f : TxFrame) : (s.sendFrame f).1.draws = s.draws := by
  unfold State.sendFrame
  repeat' split
  all_goals simp

@[simp] theorem openExchange_draws (s : State) (k : ExKey) (m : Msg) (d p : Nat) (b : Bool) :
    (s.openExchange k m d p b).1.draws = s.draws := by
  unfold State.openExchange
  dsimp only
  repeat' split
  all_goals simp

@[simp] theorem perform1_draws (s : State) (a : Act) : (s.perform1 a).1.draws = s.draws := by
  cases a <;> simp [State.perform1]

@[simp] theorem perform_draws (l : List Act) (s : State) : (s.perform l).1.draws = s.draws := by
  induction l generalizing s with
  | nil => rfl
  | cons a l ih => simp [State.perform, ih]

@[simp] theorem tellFailed_pending (s : State) (f : TxFrame) (b : Bool) : (s.tellFailed f b).1.pending = s.pending := by
  unfold State.tellFailed
  repeat' split
  all_goals rfl

@[simp] theorem sendFrame_pending (s : State) (f : TxFrame) : (s.sendFrame f).1.pending = s.pending := by
  unfold State.sendFrame
  repeat' split
  all_goals simp

@[simp] theorem openExchange_pending (s : State) (k : ExKey) (m : Msg) (d p : Nat) (b : Bool) :
    (s.openExchange k m d p b).1.pending = s.pending := by
  unfold State.openExchange
  dsimp only
  repeat' split
  all_goals simp

@[simp] theorem perform1_pending (s : State) (a : Act) : (s.perform1 a).1.pending = s.pending := by
  cases a <;> simp [State.perform1]

@[simp] theorem perform_pending (l : List Act) (s : State) : (s.perform l).1.pending = s.pending := by
  induction l generalizing s with
  | nil => rfl
  | cons a l ih => simp [State.perform, ih]

end Sys2Proof.Machine
end

