-- ==== Sys2Proof/Laws/Run.lean ====
section
/-! SUPPORT. What the jobs of a command leave alone, and when there are none: lemmas of `drain` and `State.settle`. -/

namespace Sys2Proof.Machine

/-- A property that every job keeps is kept by the jobs of a command. -/
theorem drain_keeps (P : State → Prop) (h : ∀ s b e, P s → P (s.takeJob b e).1) :
    ∀ (n : Nat) (s : State) (j : Jobs), P s → P (drain n s j)
  | 0, _, _, hp => hp
  | _ + 1, _, [], hp => hp
  | n + 1, s, j :: _, hp => drain_keeps P h n _ _ (h s j.1 j.2 hp)

/-- A property that jobs and the opening of owed LEASE-DONE keep is kept by `payAll`. -/
theorem payAll_keeps (P : State → Prop) (h : ∀ s b e, P s → P (s.takeJob b e).1) (hp : ∀ s, P s → P s.payDone.1) :
    ∀ (n : Nat) (s : State), P s → P (State.payAll n s)
  | 0, _, x => x
  | n + 1, s, x => payAll_keeps P h hp n _ (drain_keeps P h _ _ _ (hp s x))

/-- A property that jobs, owed LEASE-DONE and the start of a transmission keep is kept by the end of a command. -/
theorem settle_keeps (P : State → Prop) (h : ∀ s b e, P s → P (s.takeJob b e).1) (hp : ∀ s, P s → P s.payDone.1)
    (ht : ∀ s, P s → P s.tryTransmit) (r : State × Jobs) (x : P r.1) : P (State.settle r) :=
  ht _ (payAll_keeps P h hp _ _ (drain_keeps P h _ _ _ x))

@[simp] theorem drain_nil (n : Nat) (s : State) : drain n s [] = s := by cases n <;> rfl

@[simp] theorem payAll_zero (s : State) : State.payAll 0 s = s := rfl

/-- No job and nothing owed: only a transmission may begin. -/
theorem settle_nil (s : State) (h : s.head.owedDone = []) : State.settle (s, []) = s.tryTransmit := by
  simp [State.settle, h]

/-- A job in front that raises others puts them behind the rest. -/
theorem drain_cons {s t : State} {b : Block} {e : Ev} {q : Jobs} (r : Jobs) (n : Nat) (h : s.takeJob b e = (t, q)) :
    drain (n + 1) s ((b, e) :: r) = drain n t (r ++ q) := by
  show drain n (s.takeJob b e).1 (r ++ (s.takeJob b e).2) = _
  rw [h]

/-- Jobs in front that do nothing are passed. -/
theorem drain_idle_first {s : State} (r : Jobs) : ∀ (a : Jobs) (n : Nat), (∀ j ∈ a, s.takeJob j.1 j.2 = (s, [])) →
    drain (n + a.length) s (a ++ r) = drain n s r := by
  intro a
  induction a with
  | nil => intro n _; rfl
  | cons j a ih =>
      intro n h
      show drain (n + a.length) (s.takeJob j.1 j.2).1 ((a ++ r) ++ (s.takeJob j.1 j.2).2) = _
      rw [h j (by simp), List.append_nil]
      exact ih n (fun k hk => h k (by simp [hk]))

/-- One job that raises none. -/
theorem drain_one (s t : State) (b : Block) (e : Ev) (h : s.takeJob b e = (t, [])) : drain jobBound s [(b, e)] = t := by
  have : drain jobBound s [(b, e)] = drain 4095 (s.takeJob b e).1 ([] ++ (s.takeJob b e).2) := rfl
  rw [this, h]; simp

/-- One job that raises none, at the end of a command with nothing owed. -/
theorem settle_one (s t : State) (b : Block) (e : Ev) (h : s.takeJob b e = (t, [])) (ho : t.head.owedDone = []) :
    State.settle (s, [(b, e)]) = t.tryTransmit := by
  simp [State.settle, drain_one s t b e h, ho]

/-- One job whose answer raises one more, at the end of a command with nothing owed. -/
theorem settle_two (s t u : State) (b c : Block) (e f : Ev) (h : s.takeJob b e = (t, [(c, f)]))
    (g : t.takeJob c f = (u, [])) (ho : u.head.owedDone = []) : State.settle (s, [(b, e)]) = u.tryTransmit := by
  have hd : drain jobBound s [(b, e)] = u := by
    have : drain jobBound s [(b, e)] = drain 4095 (s.takeJob b e).1 ([] ++ (s.takeJob b e).2) := rfl
    rw [this, h]
    have : drain 4095 t ([] ++ [(c, f)]) = drain 4094 (t.takeJob c f).1 ([] ++ (t.takeJob c f).2) := rfl
    rw [this, g]; simp
  simp [State.settle, hd, ho]

/-- Jobs none of which does anything. -/
theorem drain_idle (s : State) (l : Jobs) (h : ∀ j ∈ l, s.takeJob j.1 j.2 = (s, [])) : ∀ n, drain n s l = s := by
  induction l with
  | nil => intro n; simp
  | cons j l ih =>
      intro n
      cases n with
      | zero => rfl
      | succ n =>
          have : drain (n + 1) s (j :: l) = drain n (s.takeJob j.1 j.2).1 (l ++ (s.takeJob j.1 j.2).2) := rfl
          rw [this, h j (by simp)]
          simpa using ih (fun k hk => h k (by simp [hk])) n

/-- What an answer to nothing is. -/
@[simp] theorem perform_nil (s : State) : s.perform [] = (s, []) := rfl

@[simp] theorem takeStart_cfg (s : State) (e : Ev) : (s.takeStart e).1.cfg = s.cfg := by
  unfold State.takeStart
  repeat' split
  all_goals simp

@[simp] theorem takeJob_cfg (s : State) (b : Block) (e : Ev) : (s.takeJob b e).1.cfg = s.cfg := by
  unfold State.takeJob
  split
  · cases b <;>
      simp [State.runInv, State.runBlend, State.runArb, State.runHead, State.runMark, State.runPaper]
  · rfl

@[simp] theorem payDone_cfg (s : State) : s.payDone.1.cfg = s.cfg := by
  unfold State.payDone
  repeat' split
  all_goals simp

@[simp] theorem drain_cfg (n : Nat) (s : State) (l : Jobs) : (drain n s l).cfg = s.cfg :=
  drain_keeps (fun t => t.cfg = s.cfg) (fun u b e h => by simp [h]) n s l rfl

@[simp] theorem settle_cfg (r : State × Jobs) : (State.settle r).cfg = r.1.cfg :=
  settle_keeps (fun t => t.cfg = r.1.cfg) (fun u b e h => by simp [h]) (fun u h => by simp [h])
    (fun u h => by simp [h]) r rfl

@[simp] theorem takeStart_cfgMem (s : State) (e : Ev) : (s.takeStart e).1.cfgMem = s.cfgMem := by
  unfold State.takeStart
  repeat' split
  all_goals simp

@[simp] theorem takeJob_cfgMem (s : State) (b : Block) (e : Ev) : (s.takeJob b e).1.cfgMem = s.cfgMem := by
  unfold State.takeJob
  split
  · cases b <;>
      simp [State.runInv, State.runBlend, State.runArb, State.runHead, State.runMark, State.runPaper]
  · rfl

@[simp] theorem payDone_cfgMem (s : State) : s.payDone.1.cfgMem = s.cfgMem := by
  unfold State.payDone
  repeat' split
  all_goals simp

@[simp] theorem drain_cfgMem (n : Nat) (s : State) (l : Jobs) : (drain n s l).cfgMem = s.cfgMem :=
  drain_keeps (fun t => t.cfgMem = s.cfgMem) (fun u b e h => by simp [h]) n s l rfl

@[simp] theorem settle_cfgMem (r : State × Jobs) : (State.settle r).cfgMem = r.1.cfgMem :=
  settle_keeps (fun t => t.cfgMem = r.1.cfgMem) (fun u b e h => by simp [h]) (fun u h => by simp [h])
    (fun u h => by simp [h]) r rfl

@[simp] theorem takeStart_presence (s : State) (e : Ev) : (s.takeStart e).1.presence = s.presence := by
  unfold State.takeStart
  repeat' split
  all_goals simp

@[simp] theorem takeJob_presence (s : State) (b : Block) (e : Ev) : (s.takeJob b e).1.presence = s.presence := by
  unfold State.takeJob
  split
  · cases b <;>
      simp [State.runInv, State.runBlend, State.runArb, State.runHead, State.runMark, State.runPaper]
  · rfl

@[simp] theorem payDone_presence (s : State) : s.payDone.1.presence = s.presence := by
  unfold State.payDone
  repeat' split
  all_goals simp

@[simp] theorem drain_presence (n : Nat) (s : State) (l : Jobs) : (drain n s l).presence = s.presence :=
  drain_keeps (fun t => t.presence = s.presence) (fun u b e h => by simp [h]) n s l rfl

@[simp] theorem settle_presence (r : State × Jobs) : (State.settle r).presence = r.1.presence :=
  settle_keeps (fun t => t.presence = r.1.presence) (fun u b e h => by simp [h]) (fun u h => by simp [h])
    (fun u h => by simp [h]) r rfl

@[simp] theorem takeStart_draws (s : State) (e : Ev) : (s.takeStart e).1.draws = s.draws := by
  unfold State.takeStart
  repeat' split
  all_goals simp

@[simp] theorem takeJob_draws (s : State) (b : Block) (e : Ev) : (s.takeJob b e).1.draws = s.draws := by
  unfold State.takeJob
  split
  · cases b <;>
      simp [State.runInv, State.runBlend, State.runArb, State.runHead, State.runMark, State.runPaper]
  · rfl

@[simp] theorem payDone_draws (s : State) : s.payDone.1.draws = s.draws := by
  unfold State.payDone
  repeat' split
  all_goals simp

@[simp] theorem drain_draws (n : Nat) (s : State) (l : Jobs) : (drain n s l).draws = s.draws :=
  drain_keeps (fun t => t.draws = s.draws) (fun u b e h => by simp [h]) n s l rfl

@[simp] theorem settle_draws (r : State × Jobs) : (State.settle r).draws = r.1.draws :=
  settle_keeps (fun t => t.draws = r.1.draws) (fun u b e h => by simp [h]) (fun u h => by simp [h])
    (fun u h => by simp [h]) r rfl

@[simp] theorem takeStart_pending (s : State) (e : Ev) : (s.takeStart e).1.pending = s.pending := by
  unfold State.takeStart
  repeat' split
  all_goals simp

@[simp] theorem takeJob_pending (s : State) (b : Block) (e : Ev) : (s.takeJob b e).1.pending = s.pending := by
  unfold State.takeJob
  split
  · cases b <;>
      simp [State.runInv, State.runBlend, State.runArb, State.runHead, State.runMark, State.runPaper]
  · rfl

@[simp] theorem payDone_pending (s : State) : s.payDone.1.pending = s.pending := by
  unfold State.payDone
  repeat' split
  all_goals simp

@[simp] theorem drain_pending (n : Nat) (s : State) (l : Jobs) : (drain n s l).pending = s.pending :=
  drain_keeps (fun t => t.pending = s.pending) (fun u b e h => by simp [h]) n s l rfl

@[simp] theorem settle_pending (r : State × Jobs) : (State.settle r).pending = r.1.pending :=
  settle_keeps (fun t => t.pending = r.1.pending) (fun u b e h => by simp [h]) (fun u h => by simp [h])
    (fun u h => by simp [h]) r rfl

/-- A job leaves the station's state as it is. -/
@[simp] theorem takeJob_stationState (s : State) (b : Block) (e : Ev) : (s.takeJob b e).1.start.state = s.start.state := by
  unfold State.takeJob
  split
  · cases b <;>
      simp [State.runInv, State.runBlend, State.runArb, State.runHead, State.runMark, State.runPaper]
    unfold State.takeStart
    repeat' split
    all_goals simp
  · rfl

@[simp] theorem payDone_stationState (s : State) : s.payDone.1.start.state = s.start.state := by
  unfold State.payDone
  repeat' split
  all_goals simp

@[simp] theorem drain_stationState (n : Nat) (s : State) (l : Jobs) : (drain n s l).start.state = s.start.state :=
  drain_keeps (fun t => t.start.state = s.start.state) (fun u b e h => by simp [h]) n s l rfl

@[simp] theorem settle_stationState (r : State × Jobs) : (State.settle r).start.state = r.1.start.state :=
  settle_keeps (fun t => t.start.state = r.1.start.state) (fun u b e h => by simp [h]) (fun u h => by simp [h])
    (fun u h => by simp [h]) r rfl

/-- What a working station's command is. -/
theorem act_working (s : State) (f : State → State × Jobs) (h : s.working = true) : s.act f = State.settle (f s) := by
  simp [State.act, h]

/-- A command of a station that does not work changes nothing. -/
theorem act_idle (s : State) (f : State → State × Jobs) (h : s.working = false) : s.act f = s := by
  simp [State.act, h]

end Sys2Proof.Machine
end

