-- ==== Sys2Proof/Laws/Hear.lean ====
section
/-! SUPPORT. What hearing a frame, queueing a frame, opening an exchange and taking a port request do, said once for the
states in which nothing else has to be done. -/

namespace Sys2Proof.Machine

theorem canSend_working {s : State} (h : s.canSend = true) : s.working = true := by
  simp only [State.canSend, Bool.and_eq_true] at h; exact h.1

theorem canSend_online {s : State} (h : s.canSend = true) : s.dupOffline = false := by
  simp only [State.canSend, Bool.and_eq_true, Bool.not_eq_true'] at h; exact h.2

/-- Queueing a frame where it finds a place. -/
theorem sendFrame_room (s : State) (f : TxFrame) (h : s.canSend = true) (r : s.line.txq.length < f.places) :
    s.sendFrame f = (s.queues f, []) := by
  have hd := canSend_online h
  have : ¬ s.line.txq.length ≥ f.places := by omega
  simp [State.sendFrame, hd, this, State.queues]

theorem find_none_of_all (l : List Exchange) (k : ExKey) (h : l.all (fun x => x.key != k) = true) :
    l.find? (fun y => y.key == k) = none := by
  rw [List.find?_eq_none]
  intro x hx
  have := List.all_eq_true.mp h x hx
  simpa using this

/-- Opening an exchange where it finds a place and none of its key runs. -/
theorem openExchange_room (s : State) (k : ExKey) (m : Msg) (d p : Nat) (b : Bool) (h : s.canSend = true)
    (r : ExRoom s k) : s.openExchange k m d p b = (s.opens k m d p b, []) := by
  have hd := canSend_online h
  have hf := find_none_of_all _ _ r.2.2
  have h1 : ¬ s.line.exchanges.length ≥ Config.exchangePlaces := by have := r.2.1; omega
  unfold State.openExchange
  simp only [hd, hf, h1, Bool.false_eq_true, if_false]
  have hc : ({ s with line := { s.line with nextEx := s.line.nextEx + 1, exchanges := s.line.exchanges ++
      [{ id := s.line.nextEx, key := k, msg := m, dst := d, peer := p, resends := 0, timer := .stopped, patient := b }] } }
      : State).canSend = true := h
  simp only [State.opens]
  rw [sendFrame_room _ _ hc (by simpa [jobFrame, TxFrame.places] using r.1)]
  rfl

/-! ## Hearing a frame -/

@[simp] theorem heardFrom_inv (s : State) (n : Nat) : (s.heardFrom n).inv = s.inv := rfl
@[simp] theorem heardFrom_fe (s : State) (n : Nat) : (s.heardFrom n).fe = s.fe := rfl
@[simp] theorem heardFrom_blend (s : State) (n : Nat) : (s.heardFrom n).blend = s.blend := rfl
@[simp] theorem heardFrom_arb (s : State) (n : Nat) : (s.heardFrom n).arb = s.arb := rfl
@[simp] theorem heardFrom_head (s : State) (n : Nat) : (s.heardFrom n).head = s.head := rfl
@[simp] theorem heardFrom_mark (s : State) (n : Nat) : (s.heardFrom n).mark = s.mark := rfl
@[simp] theorem heardFrom_paper (s : State) (n : Nat) : (s.heardFrom n).paper = s.paper := rfl
@[simp] theorem heardFrom_port (s : State) (n : Nat) : (s.heardFrom n).port = s.port := rfl
@[simp] theorem heardFrom_start (s : State) (n : Nat) : (s.heardFrom n).start = s.start := rfl
@[simp] theorem heardFrom_cfg (s : State) (n : Nat) : (s.heardFrom n).cfg = s.cfg := rfl
@[simp] theorem heardFrom_cfgMem (s : State) (n : Nat) : (s.heardFrom n).cfgMem = s.cfgMem := rfl
@[simp] theorem heardFrom_presence (s : State) (n : Nat) : (s.heardFrom n).presence = s.presence := rfl
@[simp] theorem heardFrom_blockChoice (s : State) (n : Nat) : (s.heardFrom n).blockChoice = s.blockChoice := rfl
@[simp] theorem heardFrom_draws (s : State) (n : Nat) : (s.heardFrom n).draws = s.draws := rfl
@[simp] theorem heardFrom_pending (s : State) (n : Nat) : (s.heardFrom n).pending = s.pending := rfl
@[simp] theorem heardFrom_working (s : State) (n : Nat) : (s.heardFrom n).working = s.working := rfl
@[simp] theorem heardFrom_canSend (s : State) (n : Nat) : (s.heardFrom n).canSend = s.canSend := rfl
@[simp] theorem heardFrom_blockActive (s : State) (n : Nat) (b : Block) : (s.heardFrom n).blockActive b = s.blockActive b := by
  cases b <;> rfl
theorem setPeer_txq (l : Line) (n : Nat) (p : Peer) : (l.setPeer n p).txq = l.txq := by cases n <;> rfl
theorem setPeer_exchanges (l : Line) (n : Nat) (p : Peer) : (l.setPeer n p).exchanges = l.exchanges := by cases n <;> rfl
theorem setPeer_gap (l : Line) (n : Nat) (p : Peer) : (l.setPeer n p).gap = l.gap := by cases n <;> rfl
theorem setPeer_sending (l : Line) (n : Nat) (p : Peer) : (l.setPeer n p).sending = l.sending := by cases n <;> rfl
@[simp] theorem frameEnd_txq (l : Line) : l.frameEnd.txq = l.txq := by unfold Line.frameEnd; split <;> rfl
@[simp] theorem frameEnd_exchanges (l : Line) : l.frameEnd.exchanges = l.exchanges := by
  unfold Line.frameEnd; split <;> rfl
@[simp] theorem frameEnd_table (l : Line) : l.frameEnd.table = l.table := by unfold Line.frameEnd; split <;> rfl
@[simp] theorem frameEnd_peer (l : Line) (n : Nat) : l.frameEnd.peer n = l.peer n := by
  cases n <;> simp [Line.peer]
@[simp] theorem heardFrom_txq (s : State) (n : Nat) : (s.heardFrom n).line.txq = s.line.txq := by
  simp [State.heardFrom, setPeer_txq]
@[simp] theorem heardFrom_exchanges (s : State) (n : Nat) : (s.heardFrom n).line.exchanges = s.line.exchanges := by
  simp [State.heardFrom, setPeer_exchanges]

/-- After a frame the line is short of its gap or the station transmits: no transmission begins. -/
theorem frameEnd_quiet (l : Line) : (l.frameEnd.gap && !l.frameEnd.sending) = false := by
  unfold Line.frameEnd
  cases h : l.sending <;> simp [h]

theorem tryTransmit_quiet (s : State) (h : (s.line.gap && !s.line.sending) = false) : s.tryTransmit = s := by
  unfold State.tryTransmit
  rw [if_neg]
  intro hc
  simp only [Bool.and_eq_true, Bool.not_eq_true'] at hc
  simp [hc.1.2, hc.2] at h

/-- The line is short of its gap, or the station transmits. -/
def State.still (s : State) : Prop := (s.line.gap && !s.line.sending) = false

theorem heardFrom_still (s : State) (n : Nat) : (s.heardFrom n).still := by
  simp only [State.still, State.heardFrom, setPeer_gap, setPeer_sending]
  exact frameEnd_quiet s.line

/-- The entry's event of R22 does not arise where the state of a PRESENT station stays. -/
theorem entryBecomes_same (s : State) (n : Nat) (p : Peer) (v : Via) (hs : p.state = (s.line.peer n).state)
    (hp : (s.line.peer n).state = .present) (hv : v = .presenceFrame ∨ v = .other) :
    s.entryBecomes n p v = ({ s with line := s.line.setPeer n p }, []) := by
  unfold State.entryBecomes State.entryMoved
  rcases hv with rfl | rfl <;> simp [hs, hp]

theorem heard_other (p : Peer) (t : Nat)
    (hp : p.state = .present) : p.heard t .other = { p with silence := .running t } := by
  simp [Peer.heard, Peer.appeared, hp]

theorem confirms_none (s : State) (e : Env) (m : Msg)
    (h : s.line.exchanges.all (fun x => !confirms s.self e.src e.dst m x) = true) :
    s.line.exchanges.filter (confirms s.self e.src e.dst m) = [] := by
  rw [List.filter_eq_nil_iff]
  intro x hx
  have := List.all_eq_true.mp h x hx
  simpa using this

/-- The blocks that a frame of another station reaches, each with the frame. -/
def frameJobs (bs : List Block) (e : Env) (m : Msg) : Jobs := bs.map (fun b => (b, .frame e.src e.dst m false))

theorem hand_plain (s : State) (e : Env) (m : Msg)
    (h : s.line.exchanges.all (fun x => !confirms s.self e.src e.dst m x) = true) :
    s.hand e.src e.dst m false =
      if (takers m).length ≤ 1 then (s, frameJobs (takers m) e m)
      else (s.usedChoice, frameJobs (s.blockOrder.filter (fun b => (takers m).contains b)) e m) := by
  have hf := confirms_none s e m h
  unfold State.hand
  simp only [hf, List.map_nil, List.nil_append, Line.endAll]
  split <;> rfl

/-- A frame that is neither JOIN nor PRESENCE, from a PRESENT station. -/
theorem receive_hears (s : State) (e : Env) (m : Msg)
    (h : Hears s e m) :
    s.receive .other e (some m) =
      if (takers m).length ≤ 1 then (s.heardFrom e.src, frameJobs (takers m) e m)
      else ((s.heardFrom e.src).usedChoice,
        frameJobs ((s.heardFrom e.src).blockOrder.filter (fun b => (takers m).contains b)) e m) := by
  obtain ⟨⟨hc, _⟩, hs, hd, hp, hx⟩ := h
  have hw := canSend_working hc
  have ho := canSend_online hc
  unfold State.receive
  have hd' : ¬ (e.dst ≠ 0 ∧ e.dst ≠ s.self) := by
    intro ⟨a, b⟩; rcases hd with d | d
    · exact a d
    · exact b d
  have hvia : viaOf .other = .presenceFrame ∨ viaOf .other = .other := .inr rfl
  have hent := entryBecomes_same { s with line := s.line.frameEnd } e.src
    ((s.line.frameEnd.peer e.src).heard s.peerTimeout .other) (viaOf .other)
    (by simp [heard_other _ _ hp, frameEnd_peer]) (by simpa [frameEnd_peer] using hp) hvia
  have hpe := frameEnd_peer s.line e.src
  simp only [hw, Bool.not_true, Bool.false_eq_true, if_false, hs, hd', hent, ho, List.nil_append]
  rw [hpe, heard_other _ _ hp]
  have hh := hand_plain (s.heardFrom e.src) e m (by rw [heardFrom_exchanges]; exact hx)
  simp only [State.heardFrom] at hh ⊢
  rw [hh]

/-- A frame that one block takes. -/
theorem hear_one (s : State) (e : Env) (m : Msg) (b : Block)
    (h : Hears s e m) (ht : takers m = [b]) :
    s.hear .other e (some m) = State.settle (s.heardFrom e.src, [(b, .frame e.src e.dst m false)]) := by
  unfold State.hear
  rw [act_working _ _ (canSend_working h.1.1), receive_hears s e m h]
  simp [ht, frameJobs]

/-! ## One job of a block -/

theorem takeJob_inv (s : State) (e : Ev) (h : s.working = true) :
    s.takeJob .inv e = s.runInv (takeInv s e) := by
  simp [State.takeJob, State.blockActive, h]

theorem takeJob_blend (s : State) (e : Ev) (h : s.working = true) (r : s.cfg.roles.blend = true) :
    s.takeJob .blend e = s.runBlend (takeBlend s e) := by
  simp [State.takeJob, State.blockActive, h, r]

theorem takeJob_no_blend (s : State) (e : Ev) (r : s.cfg.roles.blend = false) : s.takeJob .blend e = (s, []) := by
  simp [State.takeJob, State.blockActive, r]

theorem takeJob_arb (s : State) (e : Ev) (h : s.working = true) (r : s.cfg.roles.blend = true) :
    s.takeJob .arb e = s.runArb (takeArb s e) := by
  simp [State.takeJob, State.blockActive, h, r]

theorem takeJob_no_arb (s : State) (e : Ev) (r : s.cfg.roles.blend = false) : s.takeJob .arb e = (s, []) := by
  simp [State.takeJob, State.blockActive, r]

theorem takeJob_head (s : State) (e : Ev) (h : s.working = true) (r : s.cfg.roles.head = true) :
    s.takeJob .head e = s.runHead (takeHead s e) := by
  simp [State.takeJob, State.blockActive, h, r]

theorem takeJob_no_head (s : State) (e : Ev) (r : s.cfg.roles.head = false) : s.takeJob .head e = (s, []) := by
  simp [State.takeJob, State.blockActive, r]

theorem takeJob_mark (s : State) (e : Ev) (h : s.working = true) (r : s.cfg.roles.mark = true) :
    s.takeJob .mark e = s.runMark (takeMark s e) := by
  simp [State.takeJob, State.blockActive, h, r]

theorem takeJob_no_mark (s : State) (e : Ev) (r : s.cfg.roles.mark = false) : s.takeJob .mark e = (s, []) := by
  simp [State.takeJob, State.blockActive, r]

theorem takeJob_paper (s : State) (e : Ev) (h : s.working = true) (r : s.cfg.roles.paper = true) :
    s.takeJob .paper e = s.runPaper (takePaper s e) := by
  simp [State.takeJob, State.blockActive, h, r]

theorem takeJob_no_paper (s : State) (e : Ev) (r : s.cfg.roles.paper = false) : s.takeJob .paper e = (s, []) := by
  simp [State.takeJob, State.blockActive, r]

/-- A frame that one block takes in one job, in a state where no transmission begins. -/
theorem hear_done (s t : State) (e : Env) (m : Msg) (b : Block)
    (h : Hears s e m) (ht : takers m = [b]) (hjob : (s.heardFrom e.src).takeJob b (.frame e.src e.dst m false) = (t, []))
    (ho : t.head.owedDone = []) (hs : t.still) : s.hear .other e (some m) = t := by
  rw [hear_one s e m b h ht, settle_one _ _ _ _ hjob ho, tryTransmit_quiet t hs]

/-- A frame that one block takes, which then tells one other block. -/
theorem hear_two (s t u : State) (e : Env) (m : Msg) (b c : Block) (f : Ev)
    (h : Hears s e m) (ht : takers m = [b])
    (hjob : (s.heardFrom e.src).takeJob b (.frame e.src e.dst m false) = (t, [(c, f)]))
    (hjob2 : t.takeJob c f = (u, [])) (ho : u.head.owedDone = []) (hs : u.still) : s.hear .other e (some m) = u := by
  rw [hear_one s e m b h ht, settle_two _ _ _ _ _ _ _ hjob hjob2 ho, tryTransmit_quiet u hs]

/-! ## Frames that several blocks take (R5, log 6) -/

theorem pick_perm {α : Type} (l : List α) : ∀ (n : Nat) (a : α) (r : List α), pick n l = some (a, r) → l.Perm (a :: r) := by
  induction l with
  | nil => intro n a r h; cases n <;> simp [pick] at h
  | cons b l ih =>
      intro n a r h
      cases n with
      | zero => simp [pick] at h; obtain ⟨rfl, rfl⟩ := h; exact .refl _
      | succ n =>
          unfold pick at h
          cases hp : pick n l with
          | none => simp [hp] at h
          | some q =>
              obtain ⟨c, r'⟩ := q
              simp only [hp, Option.some.injEq, Prod.mk.injEq] at h
              obtain ⟨rfl, rfl⟩ := h
              exact ((ih n _ _ hp).cons b).trans (.swap _ _ _)

theorem pick_some {α : Type} (l : List α) : ∀ n, n < l.length → (pick n l).isSome = true := by
  induction l with
  | nil => intro n h; simp at h
  | cons b l ih =>
      intro n h
      cases n with
      | zero => rfl
      | succ n =>
          have := ih n (by simpa using h)
          unfold pick
          cases hp : pick n l with
          | none => simp [hp] at this
          | some q => rfl

/-- An arrangement is a permutation. -/
theorem arrange_perm {α : Type} : ∀ (k n : Nat) (l : List α), l.length = k → (arrange k n l).Perm l := by
  intro k
  induction k with
  | zero => intro n l h; rw [List.length_eq_zero_iff.mp h]; exact .refl _
  | succ k ih =>
      intro n l h
      have hs := pick_some l (n % l.length) (Nat.mod_lt _ (by omega))
      unfold arrange
      cases hp : pick (n % l.length) l with
      | none => simp [hp] at hs
      | some q =>
          obtain ⟨a, r⟩ := q
          have hpp := pick_perm l _ _ _ hp
          have hlen : r.length = k := by have := hpp.length_eq; simp at this; omega
          exact ((ih (n / l.length) r hlen).cons a).trans hpp.symm

/-- Every block stands once in the order. -/
theorem blockOrder_perm (s : State) : s.blockOrder.Perm [.inv, .blend, .arb, .head, .mark, .paper] :=
  arrange_perm 6 _ _ rfl

/-- Jobs that do nothing, one that acts, and more that do nothing. -/
theorem settle_only (s t : State) (l p q : Jobs) (b : Block) (e : Ev) (hl : l.length < jobBound)
    (h1 : ∀ j ∈ l, s.takeJob j.1 j.2 = (s, [])) (hj : s.takeJob b e = (t, q))
    (h2 : ∀ j ∈ p ++ q, t.takeJob j.1 j.2 = (t, [])) (ho : t.head.owedDone = []) :
    State.settle (s, l ++ (b, e) :: p) = t.tryTransmit := by
  have hpre : ∀ (l : Jobs) (n : Nat), l.length < n → (∀ j ∈ l, s.takeJob j.1 j.2 = (s, [])) →
      drain n s (l ++ (b, e) :: p) = t := by
    intro l
    induction l with
    | nil =>
        intro n hn _
        cases n with
        | zero => simp at hn
        | succ n =>
            have : drain (n + 1) s ((b, e) :: p) = drain n (s.takeJob b e).1 (p ++ (s.takeJob b e).2) := rfl
            rw [List.nil_append, this, hj]
            exact drain_idle t _ h2 n
    | cons j l ih =>
        intro n hn h1
        cases n with
        | zero => simp at hn
        | succ n =>
            have : drain (n + 1) s (j :: (l ++ (b, e) :: p)) =
                drain n (s.takeJob j.1 j.2).1 ((l ++ (b, e) :: p) ++ (s.takeJob j.1 j.2).2) := rfl
            rw [List.cons_append, this, h1 j (by simp)]
            simpa using ih n (by simp at hn; omega) (fun k hk => h1 k (by simp [hk]))
  simp [State.settle, hpre l jobBound hl h1, ho]

theorem takers_no_start (m : Msg) : Block.start ∉ takers m := by
  cases m
  case noted b =>
    simp only [takers]
    split
    · simp
    · split <;> simp
  all_goals simp [takers]

/-- A frame that several blocks take, of which one acts. -/
theorem hear_only (s t : State) (e : Env) (m : Msg) (b : Block) (q : Jobs) (h : Hears s e m) (hm : b ∈ takers m)
    (hl : ¬ (takers m).length ≤ 1)
    (idle : ∀ c, c ∈ takers m → c ≠ b →
      (s.heardFrom e.src).usedChoice.takeJob c (.frame e.src e.dst m false) = ((s.heardFrom e.src).usedChoice, []) ∧
      t.takeJob c (.frame e.src e.dst m false) = (t, []))
    (hjob : (s.heardFrom e.src).usedChoice.takeJob b (.frame e.src e.dst m false) = (t, q))
    (hq : ∀ j ∈ q, t.takeJob j.1 j.2 = (t, [])) (ho : t.head.owedDone = []) (hs : t.still) :
    s.hear .other e (some m) = t := by
  unfold State.hear
  rw [act_working _ _ (canSend_working h.1.1), receive_hears s e m h, if_neg hl]
  let bs := (s.heardFrom e.src).blockOrder.filter (fun b => (takers m).contains b)
  have hbo := blockOrder_perm (s.heardFrom e.src)
  have hnd : bs.Nodup := List.Nodup.filter _ (hbo.nodup_iff.mpr (by decide))
  have hlen : bs.length ≤ 6 := by
    have h1 : bs.length ≤ (s.heardFrom e.src).blockOrder.length := List.length_filter_le _ _
    have h2 : (s.heardFrom e.src).blockOrder.length = 6 := hbo.length_eq
    omega
  have hb : b ∈ bs := by
    refine List.mem_filter.mpr ⟨hbo.mem_iff.mpr ?_, by simpa using hm⟩
    have hst : b ≠ .start := fun he => takers_no_start m (he ▸ hm)
    cases b <;> first | exact absurd rfl hst | decide
  obtain ⟨l1, l2, hsplit⟩ := List.append_of_mem hb
  have hin : ∀ c ∈ bs, c ∈ takers m := fun c hc => by simpa using (List.mem_filter.mp hc).2
  rw [hsplit] at hnd
  have hne : ∀ c, c ∈ l1 ∨ c ∈ l2 → c ≠ b ∧ c ∈ takers m := by
    intro c hc
    refine ⟨?_, hin c (by rw [hsplit]; rcases hc with h | h <;> simp [h])⟩
    intro he; subst he
    rw [List.nodup_append] at hnd
    rcases hc with h | h
    · exact hnd.2.2 c h c (by simp) rfl
    · exact (List.nodup_cons.mp hnd.2.1).1 h
  show State.settle ((s.heardFrom e.src).usedChoice, frameJobs bs e m) = t
  have hfj : frameJobs bs e m = frameJobs l1 e m ++ (b, .frame e.src e.dst m false) :: frameJobs l2 e m := by
    rw [hsplit]; simp [frameJobs]
  rw [hfj, settle_only _ t (frameJobs l1 e m) (frameJobs l2 e m) q b _ ?_ ?_ hjob ?_ ho, tryTransmit_quiet t hs]
  · have : l1.length ≤ 6 := by
      have := congrArg List.length hsplit; simp at this; omega
    simp [frameJobs, jobBound]; omega
  · intro j hj
    obtain ⟨c, hc, rfl⟩ := List.mem_map.mp hj
    have := hne c (.inl hc)
    exact (idle c this.2 this.1).1
  · intro j hj
    rcases List.mem_append.mp hj with hj | hj
    · obtain ⟨c, hc, rfl⟩ := List.mem_map.mp hj
      have := hne c (.inr hc)
      exact (idle c this.2 this.1).2
    · exact hq j hj

/-- A frame that one block takes, whose notices to other blocks do nothing. -/
theorem hear_notices (s t : State) (e : Env) (m : Msg) (b : Block) (q : Jobs) (h : Hears s e m)
    (ht : takers m = [b])
    (hjob : (s.heardFrom e.src).takeJob b (.frame e.src e.dst m false) = (t, q))
    (hq : ∀ j ∈ q, t.takeJob j.1 j.2 = (t, [])) (ho : t.head.owedDone = []) (hs : t.still) :
    s.hear .other e (some m) = t := by
  rw [hear_one s e m b h ht, ← tryTransmit_quiet t hs]
  exact settle_only _ t [] [] q b _ (by decide) (by simp) hjob (by simpa using hq) ho

theorem reply_places (d : Nat) (m : Msg) (t : Tag) : (replyFrame d m t).places = Config.replyPlaces := rfl
theorem job_places (d : Nat) (m : Msg) (t : Tag) : (jobFrame d m t).places = Config.txPlaces := rfl

/-- A reply's room is a job's room. -/
theorem ReplyRoom.job {s : State} (h : ReplyRoom s) : JobRoom s := by
  simp only [ReplyRoom, JobRoom, Config.replyPlaces, Config.txPlaces] at *; omega

/-- One action that queues a reply frame. -/
theorem perform_reply (s : State) (d : Nat) (m : Msg) (t : Tag) (h : s.canSend = true) (r : ReplyRoom s) :
    s.perform [.send (replyFrame d m t)] = (s.queues (replyFrame d m t), []) := by
  simp [State.perform, State.perform1, sendFrame_room s (replyFrame d m t) h r]

/-- One action that queues a job frame. -/
theorem perform_job (s : State) (d : Nat) (m : Msg) (t : Tag) (h : s.canSend = true) (r : JobRoom s) :
    s.perform [.send (jobFrame d m t)] = (s.queues (jobFrame d m t), []) := by
  simp [State.perform, State.perform1, sendFrame_room s (jobFrame d m t) h r]

/-- One action that opens an exchange. -/
theorem perform_open (s : State) (k : ExKey) (m : Msg) (d p : Nat) (b : Bool) (h : s.canSend = true) (r : ExRoom s k) :
    s.perform [.openEx k m d p b] = (s.opens k m d p b, []) := by
  simp [State.perform, State.perform1, openExchange_room s k m d p b h r]

/-- The first action, then the others. -/
theorem perform_cons (s : State) (a : Act) (l : List Act) :
    s.perform (a :: l) = (((s.perform1 a).1.perform l).1, (s.perform1 a).2 ++ ((s.perform1 a).1.perform l).2) := rfl

/-! ## Frames that end an exchange, and completed frames -/

/-- Frames that no request names stay. -/
theorem removeWhere_none (l : Line) (p : TxFrame → Bool) (h : l.txq.all (fun f => !p f) = true) : l.removeWhere p = l := by
  have hall : ∀ f ∈ l.txq, p f = false := fun f hf => by simpa using List.all_eq_true.mp h f hf
  have hfil : ∀ q : List TxFrame, (∀ f ∈ q, p f = false) → q.filter (fun f => !p f) = q := fun q hq => by
    rw [List.filter_eq_self]; intro f hf; simp [hq f hf]
  cases l with | mk cond gap txq _ _ _ _ _ _ _ _ _ _ _ =>
  simp only [Line.removeWhere] at *
  cases txq <;> simp_all

/-- One exchange is confirmed, and its own frame is queued no longer: its record goes. -/
theorem endAll_one (l : Line) (x : Exchange) (h : l.txq.all (fun f => f.tag != .exch x.id) = true) :
    l.endAll [x] = { l with exchanges := l.exchanges.filter (fun y => y.id != x.id) } := by
  have hr := removeWhere_none (l.dropEx x.id) (TxFrame.ofExch x.id) (by simpa [Line.dropEx, TxFrame.ofExch] using h)
  simp only [Line.endAll, hr]
  rfl

/-- The end of an exchange that a frame confirmed, told to the block that opened it. -/
def endJob (x : Exchange) (m : Msg) : Block × Ev := (exBlock x.key, .exEnded x .confirmed (some m) false)

/-- A frame that confirms one exchange, whose own frame is queued no longer. -/
theorem receive_ends (s : State) (e : Env) (m : Msg) (x : Exchange) (h : HearsEnd s e m x) :
    s.receive .other e (some m) =
      if (takers m).length ≤ 1 then (s.heardEnding e.src x.id, endJob x m :: frameJobs (takers m) e m)
      else ((s.heardEnding e.src x.id).usedChoice,
        endJob x m :: frameJobs ((s.heardEnding e.src x.id).blockOrder.filter (fun b => (takers m).contains b)) e m) := by
  obtain ⟨⟨hc, _⟩, hs, hd, hp, hx, ht⟩ := h
  have hw := canSend_working hc
  have ho := canSend_online hc
  have hd' : ¬ (e.dst ≠ 0 ∧ e.dst ≠ s.self) := fun ⟨a, b⟩ => hd.elim a b
  have hent := entryBecomes_same { s with line := s.line.frameEnd } e.src
    ((s.line.frameEnd.peer e.src).heard s.peerTimeout .other) (viaOf .other)
    (by simp [heard_other _ _ hp, frameEnd_peer]) (by simpa [frameEnd_peer] using hp) (.inr rfl)
  have hh : (s.heardFrom e.src).hand e.src e.dst m false =
      if (takers m).length ≤ 1 then (s.heardEnding e.src x.id, endJob x m :: frameJobs (takers m) e m)
      else ((s.heardEnding e.src x.id).usedChoice,
        endJob x m :: frameJobs ((s.heardEnding e.src x.id).blockOrder.filter (fun b => (takers m).contains b)) e m) := by
    have hf : (s.heardFrom e.src).line.exchanges.filter (confirms (s.heardFrom e.src).self e.src e.dst m) = [x] := by
      rw [heardFrom_exchanges]; exact hx
    have he := endAll_one (s.heardFrom e.src).line x (by simpa using ht)
    rw [heardFrom_exchanges] at he
    unfold State.hand
    simp only [hf, he]
    split <;> rfl
  unfold State.receive
  simp only [hw, Bool.not_true, Bool.false_eq_true, if_false, hs, hd', hent, ho, List.nil_append]
  rw [frameEnd_peer s.line e.src, heard_other _ _ hp]
  simp only [State.heardFrom] at hh ⊢
  rw [hh]

/-- A completed broadcast that is no exchange's frame: the block that opened it is told first, then those that take it. -/
theorem frameComplete_sent (s : State) (f : TxFrame) (q : List TxFrame) (h : Completes s f q)
    (ht : ∀ id, f.tag ≠ .exch id) :
    s.frameComplete =
      if (takers f.msg).length ≤ 1 then
        (s.sent q, (f.tag.block.map (fun b => (b, Ev.complete f))).toList ++
          (takers f.msg).map (fun b => (b, .frame s.self 0 f.msg true)))
      else ((s.sent q).usedChoice, (f.tag.block.map (fun b => (b, Ev.complete f))).toList ++
        ((s.sent q).blockOrder.filter (fun b => (takers f.msg).contains b)).map
          (fun b => (b, .frame s.self 0 f.msg true))) := by
  obtain ⟨⟨hc, _⟩, hs, hq, hd, hx⟩ := h
  have hex : s.line.exchanges.map (fun (x : Exchange) =>
      if f.tag == .exch x.id then { x with timer := .running Config.confirmTime } else x) = s.line.exchanges := by
    conv_rhs => rw [← List.map_id s.line.exchanges]
    exact List.map_congr_left fun x _ => by simp [ht x.id]
  have hf : (s.sent q).line.exchanges.filter (confirms (s.sent q).self s.self 0 f.msg) = [] := by
    rw [List.filter_eq_nil_iff]
    intro x hm
    have : (!confirms s.self s.self 0 f.msg x) = true := List.all_eq_true.mp hx x hm
    show ¬ confirms s.self s.self 0 f.msg x = true
    simpa using this
  have hh : (s.sent q).hand s.self 0 f.msg true =
      if (takers f.msg).length ≤ 1 then (s.sent q, (takers f.msg).map (fun b => (b, .frame s.self 0 f.msg true)))
      else ((s.sent q).usedChoice, ((s.sent q).blockOrder.filter (fun b => (takers f.msg).contains b)).map
        (fun b => (b, .frame s.self 0 f.msg true))) := by
    unfold State.hand
    simp only [hf, List.map_nil, List.nil_append, Line.endAll]
  have h1 : s.frameComplete = (((s.sent q).hand s.self 0 f.msg true).1,
      (f.tag.block.map (fun b => (b, Ev.complete f))).toList ++ ((s.sent q).hand s.self 0 f.msg true).2) := by
    unfold State.frameComplete
    simp only [hc, hs, Bool.and_self, if_true, hq, hd, true_or, Line.busy, hex]
    cases f.tag.block <;> rfl
  rw [h1, hh]
  split <;> rfl

end Sys2Proof.Machine
end

