-- ==== Sys2Proof/Laws/Join.lean ====
section
/-! SUPPORT. The end of the join period (R185): the state the blocks are told in, and what one block that acts makes of it. -/

namespace Sys2Proof.Machine

/-- The own entry moves from JOINING to PRESENT: PEER_PRESENT, and the event for the blocks (R20, R22). -/
theorem entryMoved_present (s : State) (n : Nat) :
    s.entryMoved n .joining .present .other =
      (s.report (Report.of .peerPresent none none (some n) .absent)).tellAll (.peer n .joining .present .other) := rfl

/-- The event that the end of the join period raises for the station's own entry (R20, R22). -/
abbrev ownPresent (s : State) : Ev := .peer s.self .joining .present .other

/-- The state in which the blocks take the event of the own entry and then the end-of-join notice: ACTIVE, PEER_PRESENT reported,
PRESENCE queued. -/
theorem execJoinPeriodEnd_tells {s : State} {k : Nat} (h : JoinEnds s (k + 1)) :
    execJoinPeriodEnd s = .next (State.settle (s.joined,
      s.blockOrder.map (fun b => (b, ownPresent s)) ++ s.usedChoice.blockOrder.map (fun b => (b, .endOfJoin)))) := by
  obtain ⟨⟨hs, _⟩, hj, ht, hq⟩ := h
  have hw := canSend_working hs
  have hold : s.ownPeer.state = .joining := by simp [State.ownPeer, hj]
  have hroom : s.line.txq.length < Config.txPlaces := by omega
  let t : State := { (s.report (Report.of .peerPresent none none (some s.self) .absent)).usedChoice with
    start := { s.start with state := .active, joinT := .stopped } }
  have h1 : t.canSend = true := by
    simp only [State.canSend, State.working, State.dupOffline, hj, Bool.and_eq_true] at hs ⊢
    simpa [t, State.usedChoice] using hs
  unfold execJoinPeriodEnd
  rw [act_working _ _ hw]
  have hend : s.joinEnd = (s.joined,
      s.blockOrder.map (fun b => (b, ownPresent s)) ++ s.usedChoice.blockOrder.map (fun b => (b, .endOfJoin))) := by
    have hp : (jobFrame 0 t.presenceMsg .presence).places = Config.txPlaces := job_places _ _ _
    have hsend := sendFrame_room t (jobFrame 0 t.presenceMsg .presence) h1 (by rw [hp]; exact hroom)
    have hm : State.entryMoved { s with start := { s.start with state := .active, joinT := .stopped } } s.self .joining .present
        .other = (t, s.blockOrder.map (fun b => (b, ownPresent s))) := rfl
    simp only [State.joinEnd, State.isJoining, hj, ht, beq_self_eq_true, Bool.and_self, if_true, hold]
    have hnew : (State.ownPeer { s with start := { s.start with state := .active, joinT := .stopped } }).state = .present := rfl
    have hself : (State.self { s with start := { s.start with state := .active, joinT := .stopped } }) = s.self := rfl
    rw [hnew, hself, hm, hsend]
    simp only [List.append_nil]
    rfl
  rw [hend]

@[simp] theorem joined_inv (s : State) : s.joined.inv = s.inv := rfl
@[simp] theorem joined_fe (s : State) : s.joined.fe = s.fe := rfl
@[simp] theorem joined_blend (s : State) : s.joined.blend = s.blend := rfl
@[simp] theorem joined_arb (s : State) : s.joined.arb = s.arb := rfl
@[simp] theorem joined_head (s : State) : s.joined.head = s.head := rfl
@[simp] theorem joined_mark (s : State) : s.joined.mark = s.mark := rfl
@[simp] theorem joined_paper (s : State) : s.joined.paper = s.paper := rfl
@[simp] theorem joined_cfg (s : State) : s.joined.cfg = s.cfg := rfl
@[simp] theorem joined_cfgMem (s : State) : s.joined.cfgMem = s.cfgMem := rfl
@[simp] theorem joined_pending (s : State) : s.joined.pending = s.pending := rfl
@[simp] theorem joined_self (s : State) : s.joined.self = s.self := rfl
@[simp] theorem joined_exchanges (s : State) : s.joined.line.exchanges = s.line.exchanges := rfl

/-- The station may send when its join period has ended as it might before. -/
theorem joined_canSend {s : State} {k : Nat} (h : JoinEnds s k) : s.joined.canSend = true := by
  obtain ⟨⟨hs, _⟩, hj, _⟩ := h
  simp only [State.canSend, State.working, State.dupOffline, State.joined, State.queues, hj, Bool.and_eq_true] at hs ⊢
  simpa using hs

/-- The queue of the station whose join period has ended has places for the other frames. -/
theorem joined_room {s : State} {k : Nat} (h : JoinEnds s (k + 1)) : s.joined.line.txq.length + k ≤ Config.txPlaces := by
  have hl : s.joined.line.txq.length = s.line.txq.length + 1 := by simp [State.joined, State.queues]
  have := h.2.2.2
  omega

/-- The six blocks that take the notice. -/
theorem mem_blockOrder (s : State) (b : Block) : b ∈ s.blockOrder ↔ b ≠ .start := by
  rw [(blockOrder_perm s).mem_iff]
  cases b <;> simp

theorem blockOrder_nodup (s : State) : s.blockOrder.Nodup := (blockOrder_perm s).nodup_iff.mpr (by decide)

/-- Job frames that find places stand at the tail of the queue in their order. -/
theorem perform_jobs (l : List TxFrame) : ∀ s : State, s.canSend = true → (∀ f ∈ l, f.places = Config.txPlaces) →
    s.line.txq.length + l.length ≤ Config.txPlaces →
    s.perform (l.map Act.send) = ({ s with line := { s.line with txq := s.line.txq ++ l } }, []) := by
  induction l with
  | nil => intro s _ _ _; simp
  | cons f l ih =>
      intro s h hp hl
      simp only [List.length_cons] at hl
      have h1 := sendFrame_room s f h (by rw [hp f (by simp)]; omega)
      simp only [List.map_cons, State.perform, State.perform1, h1]
      rw [ih (s.queues f) h (fun g hg => hp g (by simp [hg])) (by simp [State.queues]; omega)]
      simp [State.queues]

/-- A block among the six, with those told before it and after it. -/
theorem blockOrder_split (u : State) {b : Block} (hb : b ≠ .start) :
    ∃ l p : List Block, u.blockOrder = l ++ b :: p ∧ l.length + p.length = 5 ∧ ∀ c, c ∈ l ∨ c ∈ p → c ≠ .start ∧ c ≠ b := by
  obtain ⟨l, p, hl⟩ := List.append_of_mem ((mem_blockOrder u b).mpr hb)
  have hn := blockOrder_nodup u
  have hlen : u.blockOrder.length = 6 := (blockOrder_perm u).length_eq
  refine ⟨l, p, hl, ?_, ?_⟩
  · rw [hl] at hlen; simp at hlen; omega
  · intro c hc
    refine ⟨(mem_blockOrder u c).mp (by rw [hl]; simp; tauto), ?_⟩
    rintro rfl
    rw [hl, List.nodup_append] at hn
    rcases hc with hc | hc
    · exact hn.2.2 c hc c (by simp) rfl
    · exact (List.nodup_cons.mp hn.2.1).1 hc

/-- One block acts, on the event of the own entry and then on the notice; no other block moves, nor does what it tells others. -/
theorem join_both {s t u : State} {k : Nat} {b : Block} {q r : Jobs} (h : JoinEnds s (k + 1)) (hb : b ≠ .start)
    (hp : s.joined.takeJob b (ownPresent s) = (t, q)) (hj : t.takeJob b .endOfJoin = (u, r))
    (h0 : ∀ c, c ≠ .start → c ≠ b → s.joined.takeJob c (ownPresent s) = (s.joined, []))
    (h1 : ∀ c, c ≠ .start → c ≠ b → t.takeJob c (ownPresent s) = (t, []))
    (h2 : ∀ c, c ≠ .start → c ≠ b → t.takeJob c .endOfJoin = (t, []))
    (h3 : ∀ c, c ≠ .start → c ≠ b → u.takeJob c .endOfJoin = (u, []))
    (hq : ∀ j ∈ q ++ r, u.takeJob j.1 j.2 = (u, [])) (ho : u.head.owedDone = []) :
    execJoinPeriodEnd s = .next u.tryTransmit := by
  rw [execJoinPeriodEnd_tells h]
  obtain ⟨l, p, hl, hn, hm⟩ := blockOrder_split s hb
  obtain ⟨l', p', hl', hn', hm'⟩ := blockOrder_split s.usedChoice hb
  have told : ∀ (v : State) (e : Ev) (m : List Block), (∀ c ∈ m, v.takeJob c e = (v, [])) →
      ∀ j ∈ m.map (fun c => (c, e)), v.takeJob j.1 j.2 = (v, []) := by
    intro v e m hv j hjm
    obtain ⟨c, hc, rfl⟩ := List.mem_map.mp hjm
    exact hv c hc
  have e1 : jobBound = (4095 - l.length) + 1 + (l.map (fun c => (c, ownPresent s))).length := by
    simp [jobBound]; omega
  have e2 : 4095 - l.length = (4095 - l.length - p.length - l'.length - 1) + 1 +
      ((p.map (fun c => (c, ownPresent s))) ++ l'.map (fun c => (c, Ev.endOfJoin))).length := by simp; omega
  have hd : drain jobBound s.joined
      (s.blockOrder.map (fun c => (c, ownPresent s)) ++ s.usedChoice.blockOrder.map (fun c => (c, .endOfJoin))) = u := by
    rw [hl, hl', List.map_append, List.map_cons, List.map_append, List.map_cons, List.append_assoc, e1,
      drain_idle_first _ _ _ (told _ _ _ (fun c hc => h0 c (hm c (.inl hc)).1 (hm c (.inl hc)).2)), List.cons_append,
      drain_cons _ _ hp, e2, ← List.append_assoc, List.append_assoc, drain_idle_first, List.cons_append, drain_cons _ _ hj,
      drain_idle]
    · intro j hjm
      simp only [List.append_assoc, List.mem_append] at hjm
      rcases hjm with hjm | hjm
      · exact told u _ p' (fun c hc => h3 c (hm' c (.inr hc)).1 (hm' c (.inr hc)).2) j hjm
      · exact hq j (by simpa using hjm)
    · intro j hjm
      rcases List.mem_append.mp hjm with hjm | hjm
      · exact told t _ p (fun c hc => h1 c (hm c (.inr hc)).1 (hm c (.inr hc)).2) j hjm
      · exact told t _ l' (fun c hc => h2 c (hm' c (.inl hc)).1 (hm' c (.inl hc)).2) j hjm
  simp [State.settle, hd, ho]

/-- One block acts on the notice alone, and what it tells others moves none of them. -/
theorem join_only {s t : State} {k : Nat} {b : Block} {q : Jobs} (h : JoinEnds s (k + 1)) (hb : b ≠ .start)
    (h0 : ∀ c, c ≠ .start → s.joined.takeJob c (ownPresent s) = (s.joined, []))
    (hj : s.joined.takeJob b .endOfJoin = (t, q))
    (h1 : ∀ c, c ≠ .start → c ≠ b → s.joined.takeJob c .endOfJoin = (s.joined, []))
    (h2 : ∀ c, c ≠ .start → c ≠ b → t.takeJob c .endOfJoin = (t, [])) (hq : ∀ j ∈ q, t.takeJob j.1 j.2 = (t, []))
    (ho : t.head.owedDone = []) : execJoinPeriodEnd s = .next t.tryTransmit :=
  join_both h hb (h0 b hb) hj (fun c hc _ => h0 c hc) (fun c hc _ => h0 c hc) h1 h2 hq ho

/-- A table that holds one invoice, an owned one, has no replica to act. -/
theorem ownCopiesRest_owned {n : Nat} {i : Inv} {x : Entry} {o : OwnerRec} (ht : i.table = [x]) (ho : x.own = some o) :
    OwnCopiesRest n i := by
  simp [OwnCopiesRest, Inv.heldFor, ht, ho]

/-- At an invoice unit in which no replica records this station as its owner and has to act, the event of the own entry changes
nothing (R36, R42). -/
theorem takeJob_inv_own {s t : State} (hw : t.working = true) (h : OwnCopiesRest s.self t.inv) (hp : t.inv.phase ≠ .waitFree) :
    t.takeJob .inv (ownPresent s) = (t, []) := by
  have hall := List.all_eq_true.mp h
  have hmap : t.inv.table.map (fun e => if e.own.isNone && e.data.hdr.owner == s.self && e.orphan then
      (if PeerState.joining == .absent then e.unorphaned else if PeerState.joining == .joining then t.startDelay e else e)
      else e) = t.inv.table := by
    conv_rhs => rw [← List.map_id t.inv.table]
    apply List.map_congr_left
    intro e he
    by_cases hc : (e.own.isNone && e.data.hdr.owner == s.self) = true
    · have := hall e (by simpa [Inv.heldFor, he] using hc)
      simp only [Bool.and_eq_true, Bool.not_eq_true'] at this
      simp [this.1]
    · simp only [Bool.not_eq_true] at hc
      simp [hc]
  have hask : (t.inv.heldFor s.self).filter (fun e => e.copy == .stale && !e.askT.on) = [] := by
    rw [List.filter_eq_nil_iff]
    intro e he
    have := hall e he
    simp only [Bool.and_eq_true, Bool.or_eq_true, bne_iff_ne, ne_eq] at this
    rcases this.2 with h | h <;> simp [h]
  have hj : t.inv.peerPresent t s.self .joining = Eff.pure t.inv := by
    unfold Inv.peerPresent
    simp only [hmap]
    have : ({ t.inv with table := t.inv.table } : Inv) = t.inv := rfl
    rw [this, hask]; rfl
  rw [takeJob_inv _ _ hw]
  simp [takeInv, Inv.takePeer, hj, Eff.pure, Eff.andThen, Inv.claimIfFree, hp, State.runInv]

/-- At an invoice unit that owns nothing the notice sends the WITHDRAWs owed and claims a held request. -/
theorem joinEnded_nothing_owned (s : State) {i : Inv} (h : NothingOwned i) :
    i.joinEnded s =
      (Eff.mk' { i with withdrawOwed := [] } (i.withdrawOwed.map fun n => Act.send (jobFrame 0 (.withdraw n) .withdraw))).andThen
        (fun i => if i.phase == .waitActive then i.tryClaim s else Eff.pure i) := by
  have hall := List.all_eq_true.mp h
  have hmap : i.table.map (fun e => if e.orphan && e.own.isNone && !e.adoptT.on then s.startDelay e else e) = i.table := by
    conv_rhs => rw [← List.map_id i.table]
    apply List.map_congr_left
    intro e he
    have := hall e he
    simp only [Bool.and_eq_true, Bool.not_eq_true'] at this
    simp [this.2]
  have hown : ({ i with withdrawOwed := [], table := i.table } : Inv).ownedNums = [] := by
    unfold Inv.ownedNums
    rw [List.map_eq_nil_iff, List.filter_eq_nil_iff]
    intro e he
    have := hall e he
    simp only [Bool.and_eq_true] at this
    simp [Option.isNone_iff_eq_none.mp this.1]
  unfold Inv.joinEnded
  simp only [hmap]
  generalize i.withdrawOwed.map (fun n => Act.send (jobFrame 0 (.withdraw n) .withdraw)) = l
  simp only [Eff.mk', Eff.andThen, hown, Eff.each, Eff.pure, List.append_nil]
  rfl

/-- At an invoice unit that owns one invoice, the only one of its table, the notice resumes it behind the WITHDRAWs owed. -/
theorem joinEnded_one_owned (s : State) {i : Inv} {x : Entry} {o : OwnerRec} (ht : i.table = [x]) (ho : x.own = some o) :
    i.joinEnded s =
      ((Eff.mk' { i with withdrawOwed := [] }
          (i.withdrawOwed.map fun n => Act.send (jobFrame 0 (.withdraw n) .withdraw))).andThen (fun i => i.resume s x.num)).andThen
        (fun i => if i.phase == .waitActive then i.tryClaim s else Eff.pure i) := by
  have hmap : i.table.map (fun e => if e.orphan && e.own.isNone && !e.adoptT.on then s.startDelay e else e) = i.table := by
    simp [ht, ho]
  have hown : ({ i with withdrawOwed := [], table := i.table } : Inv).ownedNums = [x.num] := by
    simp [Inv.ownedNums, ht, ho]
  unfold Inv.joinEnded
  simp only [hmap]
  generalize i.withdrawOwed.map (fun n => Act.send (jobFrame 0 (.withdraw n) .withdraw)) = l
  simp only [Eff.mk', Eff.andThen, hown, Eff.each, Eff.pure, List.append_nil]
  rfl

/-- At an invoice unit with nothing to resume the notice changes nothing. -/
theorem takeJob_inv_rests {s : State} (hw : s.working = true) (h : NothingToResume s.inv) :
    s.takeJob .inv .endOfJoin = (s, []) := by
  obtain ⟨ht, hp, ho⟩ := h
  have hi : ({ s.inv with withdrawOwed := [] } : Inv) = s.inv := by rw [← ho]
  have hj : s.inv.joinEnded s = Eff.pure s.inv := by
    rw [joinEnded_nothing_owned s ht, ho, hi]
    simp [Eff.mk', Eff.andThen, Eff.pure, hp]
  rw [takeJob_inv _ _ hw]
  simp [takeInv, hj, Eff.pure, Eff.andThen, Inv.claimIfFree, hp, State.runInv]

/-- The blend sequencer has no part in the event of the own entry. -/
theorem takeJob_blend_own {s t : State} : t.takeJob .blend (ownPresent s) = (t, []) := by
  unfold State.takeJob
  split
  · simp [takeBlend, State.runBlend, Eff.pure]
  · rfl

/-- The lease arbiter has none in a move to PRESENT (R22). -/
theorem takeJob_arb_own {s t : State} : t.takeJob .arb (ownPresent s) = (t, []) := by
  unfold State.takeJob
  split
  · simp [takeArb, Arb.takePeer, State.runArb, Eff.pure]
  · rfl

/-- A block whose role the station lacks takes no event. -/
theorem takeJob_no_role {s : State} {c : Block} (e : Ev) (h : s.blockActive c = false) : s.takeJob c e = (s, []) := by
  simp [State.takeJob, h]

end Sys2Proof.Machine
end

