-- ==== Sys2Proof/Laws/Marks.lean ====
section
/-! SUPPORT. The ending of a mark report (R153): which lane entries it reaches. -/

namespace Sys2Proof.Machine

@[simp] theorem looseReplaced_lane1 (m : Marker) (i o : Nat) : (m.looseReplaced i o).lane1 = m.lane1 := rfl
@[simp] theorem looseReplaced_lane2 (m : Marker) (i o : Nat) : (m.looseReplaced i o).lane2 = m.lane2 := rfl
@[simp] theorem looseReplaced_lane (m : Marker) (i o k : Nat) : (m.looseReplaced i o).lane k = m.lane k := rfl
@[simp] theorem looseReplaced_arrivals (m : Marker) (i o : Nat) : (m.looseReplaced i o).arrivals = m.arrivals := rfl
@[simp] theorem looseReplaced_plateA (m : Marker) (i o : Nat) : (m.looseReplaced i o).plateA = m.plateA := rfl
@[simp] theorem looseReplaced_plateB (m : Marker) (i o : Nat) : (m.looseReplaced i o).plateB = m.plateB := rfl
@[simp] theorem looseReplaced_compose (m : Marker) (i o : Nat) : (m.looseReplaced i o).compose = m.compose := rfl
@[simp] theorem looseReplaced_head (m : Marker) (i o : Nat) : (m.looseReplaced i o).head = m.head := rfl

/-- What stays of the reports with no entry: those of other pairs, and those that wait. -/
theorem mem_looseReplaced (m : Marker) (i o : Nat) (r : LooseReport) :
    r ∈ (m.looseReplaced i o).loose ↔ r ∈ m.loose ∧ (r.inv ≠ i ∨ r.ordinal ≠ o ∨ r.waits ≠ .nothing) := by
  simp only [Marker.looseReplaced, List.mem_filter, LooseReport.inFlight]
  by_cases h1 : r.inv = i <;> by_cases h2 : r.ordinal = o <;> by_cases h3 : r.waits = .nothing <;> simp [h1, h2, h3]

/-- An opened report with no entry stands in the list only where no PRINTED entry holds its pair. -/
theorem openLoose_loose {m : Marker} {s : State} {i o k : Nat} :
    (m.openLoose s i o (some k)).st.loose = m.loose.filter (fun x => !(x.inv == i && x.ordinal == o)) ++
      if (m.printedOf s.cfg i o).isEmpty then [{ inv := i, ordinal := o, source := some k, waits := .nothing }] else [] := by
  simp [Marker.openLoose, Eff.mk']

/-- The entries reached are the PRINTED ones that the lanes hold for the pair. -/
theorem mem_printedOf (m : Marker) (cfg : Cfg) (inv ordinal k : Nat) (e : LaneEntry) :
    (k, e) ∈ m.printedOf cfg inv ordinal ↔
      k ∈ cfg.lanes ∧ (m.lane k).find inv ordinal = some e ∧ e.state = .printed := by
  unfold Marker.printedOf
  rw [List.mem_filterMap]
  constructor
  · rintro ⟨j, hj, h⟩
    cases hf : (m.lane j).find inv ordinal with
    | none => rw [hf] at h; simp at h
    | some x =>
        rw [hf] at h
        by_cases hx : x.state = .printed
        · simp [Option.filter, hx] at h
          obtain ⟨rfl, rfl⟩ := h
          exact ⟨hj, hf, hx⟩
        · simp [Option.filter, hx] at h
  · rintro ⟨hj, hf, hp⟩
    exact ⟨k, hj, by simp [hf, Option.filter, hp]⟩

/-- With no PRINTED entry for the pair, the ending is that of a report with no entry. -/
theorem takeExEnd_loose {m : Marker} {s : State} {inv ordinal : Nat} (how : ExEnd)
    (h : m.printedOf s.cfg inv ordinal = []) :
    m.takeExEnd s inv ordinal how = Eff.pure (m.looseReportEnds inv ordinal how) := by
  simp [Marker.takeExEnd, h]

/-- With PRINTED entries for the pair, the ending is taken for each of them in turn. -/
theorem takeExEnd_entries {m : Marker} {s : State} {inv ordinal : Nat} (how : ExEnd)
    (h : m.printedOf s.cfg inv ordinal ≠ []) :
    m.takeExEnd s inv ordinal how =
      Eff.each (fun p (m : Marker) => m.entryReportEnds s.cfg how p.1 p.2) (m.printedOf s.cfg inv ordinal) m := by
  unfold Marker.takeExEnd
  split
  · contradiction
  · rfl

end Sys2Proof.Machine
end

