-- ==== Sys2Proof/Laws/Memory.lean ====
section
/-! SUPPORT. The configuration memory: every operation keeps the canonical form, and a read after a write. -/

namespace Sys2Proof.Machine.Memory

theorem wfFrom_mono (m : List Host.Cell) (lo hi : Nat) (h : lo ≤ hi) (w : wfFrom hi m = true) : wfFrom lo m = true := by
  cases m with
  | nil => rfl
  | cons c m =>
      simp only [wfFrom, Bool.and_eq_true, decide_eq_true_eq] at w ⊢
      exact ⟨⟨Nat.le_trans h w.1.1, w.1.2⟩, w.2⟩

/-- A write at or above `lo` keeps the canonical form from `lo` on. -/
theorem write_wfFrom (m : List Host.Cell) (n : Nat) (v : Byte) :
    ∀ lo, lo ≤ n → wfFrom lo m = true → wfFrom lo (write m n v) = true := by
  induction m with
  | nil =>
      intro lo h _
      unfold write
      split
      · rfl
      · rename_i hv
        simp [wfFrom, h, hv]
  | cons c m ih =>
      intro lo h w
      obtain ⟨a, b⟩ := c
      have w0 := w
      simp only [wfFrom, Bool.and_eq_true, decide_eq_true_eq] at w
      unfold write
      split
      · rename_i hna
        split
        · exact w0
        · rename_i hv
          simp only [wfFrom, Bool.and_eq_true, decide_eq_true_eq]
          exact ⟨⟨h, hv⟩, ⟨hna, w.1.2⟩, w.2⟩
      · split
        · rename_i hna
          split
          · exact wfFrom_mono m lo (a + 1) (by omega) w.2
          · rename_i hv
            simp only [wfFrom, Bool.and_eq_true, decide_eq_true_eq]
            exact ⟨⟨h, hv⟩, hna ▸ w.2⟩
        · simp only [wfFrom, Bool.and_eq_true, decide_eq_true_eq]
          exact ⟨w.1, ih (a + 1) (by omega) w.2⟩

/-- A write keeps the canonical form. -/
theorem write_wf (m : List Host.Cell) (n : Nat) (v : Byte) (w : wf m = true) : wf (write m n v) = true :=
  write_wfFrom m n v 0 (Nat.zero_le n) w

/-- Writes in turn keep the canonical form. -/
theorem writeMany_wf (l : List Byte) : ∀ (m : List Host.Cell) (a : Nat), wf m = true → wf (writeMany m a l) = true := by
  induction l with
  | nil => exact fun m a w => w
  | cons b l ih => exact fun m a w => ih _ _ (write_wf m a b w)

/-- Below its first address a canonical memory reads as unlisted. -/
theorem read_below (m : List Host.Cell) : ∀ lo n, wfFrom lo m = true → n < lo → read m n = blank := by
  induction m with
  | nil => intro lo n _ _; rfl
  | cons c m ih =>
      intro lo n w h
      obtain ⟨a, b⟩ := c
      simp only [wfFrom, Bool.and_eq_true, decide_eq_true_eq] at w
      have : ¬ a = n := by omega
      simp only [read, this, if_false]
      exact ih (a + 1) n w.2 (by omega)

/-- What a byte reads as after a write: the byte written at its address, and as before at every other. -/
theorem read_write (m : List Host.Cell) (n k : Nat) (v : Byte) :
    ∀ lo, wfFrom lo m = true → read (write m n v) k = if k = n then v else read m k := by
  induction m with
  | nil =>
      intro lo _
      unfold write
      by_cases hk : k = n
      · by_cases hv : v = blank <;> simp [read, hv, hk]
      · have : ¬ n = k := fun e => hk e.symm
        by_cases hv : v = blank <;> simp [read, hv, hk, this]
  | cons c m ih =>
      intro lo w
      obtain ⟨a, b⟩ := c
      simp only [wfFrom, Bool.and_eq_true, decide_eq_true_eq] at w
      unfold write
      split
      · rename_i hna
        split
        · rename_i hv
          by_cases hk : k = n
          · subst hk
            have : ¬ a = k := by omega
            simp only [read, this, if_false, if_true, hv]
            exact read_below m (a + 1) k w.2 (by omega)
          · simp [hk]
        · by_cases hk : k = n
          · simp [read, hk]
          · have : ¬ n = k := fun e => hk e.symm
            simp [read, hk, this]
      · split
        · rename_i hna
          subst hna
          split
          · rename_i hv
            by_cases hk : k = n
            · subst hk
              simp only [if_true, hv]
              exact read_below m (k + 1) k w.2 (by omega)
            · have : ¬ n = k := fun e => hk e.symm
              simp [read, hk, this]
          · by_cases hk : k = n
            · simp [read, hk]
            · have : ¬ n = k := fun e => hk e.symm
              simp [read, hk, this]
        · rename_i h1 h2
          by_cases ha : a = k
          · have : ¬ k = n := by omega
            simp [read, ha, this]
          · simp only [read, ha, if_false]
            exact ih (a + 1) w.2

/-- A write in turn leaves every address below it as it was. -/
theorem read_writeMany_below (l : List Byte) : ∀ (m : List Host.Cell) (a k : Nat), wf m = true → k < a →
    read (writeMany m a l) k = read m k := by
  induction l with
  | nil => intro m a k _ _; rfl
  | cons b l ih =>
      intro m a k w h
      rw [writeMany, ih _ _ _ (write_wf m a b w) (by omega), read_write m a k b 0 w]
      have : ¬ k = a := by omega
      simp [this]

/-- What a byte reads as after writes in turn: the byte written inside them, and as before outside. -/
theorem read_writeMany (l : List Byte) : ∀ (m : List Host.Cell) (a k : Nat), wf m = true →
    read (writeMany m a l) k = if a ≤ k ∧ k < a + l.length then l.getD (k - a) blank else read m k := by
  induction l with
  | nil =>
      intro m a k _
      have : ¬ (a ≤ k ∧ k < a + ([] : List Byte).length) := by simp
      rw [if_neg this]; rfl
  | cons b l ih =>
      intro m a k w
      rw [writeMany]
      by_cases hk : k ≤ a
      · rw [read_writeMany_below l _ _ _ (write_wf m a b w) (by omega), read_write m a k b 0 w]
        by_cases he : k = a
        · simp [he]
        · have : ¬ (a ≤ k ∧ k < a + (b :: l).length) := by omega
          rw [if_neg this, if_neg he]
      · rw [ih _ _ _ (write_wf m a b w), read_write m a k b 0 w]
        have hne : ¬ k = a := by omega
        have hsub : k - a = (k - (a + 1)) + 1 := by omega
        by_cases hin : k < a + (l.length + 1)
        · have h1 : a + 1 ≤ k ∧ k < a + 1 + l.length := by omega
          have h2 : a ≤ k ∧ k < a + (b :: l).length := by simp only [List.length_cons]; omega
          rw [if_pos h1, if_pos h2, hsub]; rfl
        · have h1 : ¬ (a + 1 ≤ k ∧ k < a + 1 + l.length) := by omega
          have h2 : ¬ (a ≤ k ∧ k < a + (b :: l).length) := by simp only [List.length_cons]; omega
          rw [if_neg h1, if_neg h2, if_neg hne]

end Sys2Proof.Machine.Memory
end

