-- ==== Sys2Proof/Laws/Outputs.lean ====
section
/-! SUPPORT. The shed line as an output: when the station drives it, and with which bytes. -/

namespace Sys2Proof.Machine

/-- With no transmission running, the station drives nothing. -/
theorem driven_silent {s : State} (h : s.line.sending = false) : s.driven = none := by
  simp [State.driven, h]

/-- While the front frame is sent, the line carries it with the own number as source. -/
theorem driven_front {s : State} {f : TxFrame} {q : List TxFrame} (hs : s.canSend = true) (h : s.line.sending = true)
    (hq : s.line.txq = f :: q) : s.driven = some (wholeFrame { dst := f.dst, src := s.self } f.msg) := by
  simp [State.driven, hs, h, hq, TxFrame.env]

/-- With the reset pin low, nothing is driven. -/
theorem outputs_reset {s : State} (h : s.start.resetLow = true) : s.outputs = Outputs.off := by
  simp [State.outputs, h]

end Sys2Proof.Machine
end

