-- ==== Sys2Proof/Laws/Table.lean ====
section
/-! SUPPORT. The invoice table: what a changed entry leaves of the others, and two changes of one entry in turn. -/

namespace Sys2Proof.Machine

/-- The number of an entry found. -/
theorem find_num {i : Inv} {n : Nat} {e : Entry} (h : i.find n = some e) : e.num = n := by
  have := List.find?_some h; simpa using this

/-- Finding after a change that keeps the entry's number. -/
theorem find_upd (i : Inv) (n k : Nat) (f : Entry → Entry) (hf : ∀ e, e.num = n → (f e).num = n) :
    (i.upd n f).find k = if k = n then (i.find k).map f else i.find k := by
  unfold Inv.upd Inv.find
  simp only
  induction i.table with
  | nil => split <;> rfl
  | cons e l ih =>
      by_cases he : e.num = n
      · have hfe := hf e he
        by_cases hk : k = n
        · subst hk
          simp [he, hfe]
        · have h1 : ¬ n = k := fun h => hk h.symm
          simp only [List.map_cons, he, beq_self_eq_true, if_true, List.find?_cons, hfe, if_neg hk]
          simp only [if_neg hk] at ih
          have : (n == k) = false := by simpa using h1
          simp only [this]
          exact ih
      · have : (e.num == n) = false := by simpa using he
        simp only [List.map_cons, this, Bool.false_eq_true, if_false, List.find?_cons]
        by_cases hek : e.num = k
        · have hk : ¬ k = n := fun h => he (hek.trans h)
          simp [hek, hk]
        · have hek' : (e.num == k) = false := by simpa using hek
          simp only [hek']
          exact ih

theorem find_upd_self (i : Inv) (n : Nat) (f : Entry → Entry) (hf : ∀ e, e.num = n → (f e).num = n) :
    (i.upd n f).find n = (i.find n).map f := by simp [find_upd i n n f hf]

theorem find_upd_ne (i : Inv) (n k : Nat) (f : Entry → Entry) (hf : ∀ e, e.num = n → (f e).num = n) (h : k ≠ n) :
    (i.upd n f).find k = i.find k := by simp [find_upd i n k f hf, h]

/-- Two changes of one entry are one. -/
theorem upd_upd (i : Inv) (n : Nat) (f g : Entry → Entry) (hf : ∀ e, e.num = n → (f e).num = n) :
    (i.upd n f).upd n g = i.upd n (fun e => g (f e)) := by
  unfold Inv.upd
  simp only [List.map_map]
  congr 1
  apply List.map_congr_left
  intro e _
  by_cases he : e.num = n
  · simp [he, hf e he]
  · simp [he]

theorem upd_phase (i : Inv) (n : Nat) (f : Entry → Entry) : (i.upd n f).phase = i.phase := rfl
theorem updOwn_phase (i : Inv) (n : Nat) (f : OwnerRec → OwnerRec) : (i.updOwn n f).phase = i.phase := rfl

/-- The owner's records after a change of them. -/
theorem owned_updOwn (i : Inv) (n : Nat) (f : OwnerRec → OwnerRec) : (i.updOwn n f).owned n = (i.owned n).map f := by
  unfold Inv.owned Inv.updOwn
  rw [find_upd_self i n _ (by intro _ h; exact h)]
  cases i.find n <;> rfl

/-- Two changes of the owner's records are one. -/
theorem updOwn_updOwn (i : Inv) (n : Nat) (f g : OwnerRec → OwnerRec) :
    (i.updOwn n f).updOwn n g = i.updOwn n (fun o => g (f o)) := by
  unfold Inv.updOwn
  rw [upd_upd i n _ _ (by intro _ h; exact h)]
  congr 1
  funext e
  cases e.own <;> rfl

/-- No other entry changes with the owner's records of one. -/
theorem find_updOwn_ne (i : Inv) (n k : Nat) (f : OwnerRec → OwnerRec) (h : k ≠ n) :
    (i.updOwn n f).find k = i.find k := find_upd_ne i n k _ (by intro _ h; exact h) h

end Sys2Proof.Machine
end

