-- ==== Sys2Proof/Laws/Owners.lean ====
section
/-! SUPPORT. Two owners of one invoice in a join period (R47): what is recorded of a conflict, and what its settlement is. -/

namespace Sys2Proof.Machine

@[simp] theorem conflictWith_issued (o : OwnerRec) (c : Nat) : (o.conflictWith c).issued = o.issued := rfl

@[simp] theorem conflictWith_view (o : OwnerRec) (c : Nat) : (o.conflictWith c).view = o.view := rfl

@[simp] theorem conflictWith_resendDelay (o : OwnerRec) (c : Nat) : (o.conflictWith c).resendDelay = o.resendDelay := rfl

/-- The stations of the conflicts: those before, and the new one. -/
theorem mem_conflictWith (o : OwnerRec) (c d : Nat) :
    d ∈ (o.conflictWith c).conflicts ↔ d ∈ o.conflicts ∨ d = c := by
  unfold OwnerRec.conflictWith
  by_cases h : c ∈ o.conflicts
  · simp only [if_pos h]
    constructor
    · exact Or.inl
    · rintro (h' | rfl) <;> assumption
  · simp [if_neg h]

/-- A station is kept once. -/
theorem conflictWith_nodup {o : OwnerRec} (c : Nat) (h : o.conflicts.Nodup) : (o.conflictWith c).conflicts.Nodup := by
  unfold OwnerRec.conflictWith
  by_cases hc : c ∈ o.conflicts
  · simpa only [if_pos hc] using h
  · simp only [if_neg hc]
    rw [List.nodup_append]
    refine ⟨h, by simp, ?_⟩
    intro a ha b hb hab
    simp only [List.mem_singleton] at hb
    exact hc (hb ▸ hab ▸ ha)

/-- With no conflict, the settlement changes nothing. -/
theorem settleConflicts_nil {i : Inv} {s : State} {n : Nat} {o : OwnerRec} (ho : i.owned n = some o)
    (h : o.conflicts = []) : i.settleConflicts s n = Eff.pure i := by
  simp [Inv.settleConflicts, ho, h]

/-- With conflicts, the settlement is the two-owner rule against the lowest of their stations. -/
theorem settleConflicts_lowest {i : Inv} {s : State} {n c : Nat} {o : OwnerRec} (ho : i.owned n = some o)
    (hc : c ∈ o.conflicts) (hl : ∀ d ∈ o.conflicts, c ≤ d) :
    i.settleConflicts s n =
      (i.updOwn n (fun o => { o with conflicts := [] })).settleOwners s n c o.issued := by
  have hm : o.conflicts.min? = some c := List.min?_eq_some_iff.mpr ⟨hc, hl⟩
  simp [Inv.settleConflicts, ho, hm]

end Sys2Proof.Machine
end

