-- ==== Sys2Proof/Laws/PerInstr.lean ====
section
/-! SUPPORT. The family Named: what every command says as syntax. A command that is a frame carries the frame kind its
name says, and a well-formed one a body within its ranges. -/

namespace Sys2Proof.Laws.Named

open Sys2Proof Sys2Proof.Machine

/-- The kind of the frame that a command is, if it is one. -/
def kindOf : Instr → Option FrameKind
  | .join _ _ => some .join
  | .presence _ _ => some .presence
  | .claim _ _ => some .claim
  | .consent _ _ => some .consent
  | .object _ _ => some .object
  | .withdraw _ _ => some .withdraw
  | .header _ _ => some .header
  | .recordBlock _ _ => some .recordBlock
  | .recordAsk _ _ => some .recordAsk
  | .chestDone _ _ => some .chestDone
  | .chestEntered _ _ => some .chestEntered
  | .chestRefused _ _ => some .chestRefused
  | .fillVoid _ _ => some .fillVoid
  | .markDone _ _ => some .markDone
  | .markEntered _ _ => some .markEntered
  | .adopt _ _ => some .adopt
  | .sheetTaken _ _ => some .sheetTaken
  | .leaseAsk _ _ => some .leaseAsk
  | .leaseGrant _ _ => some .leaseGrant
  | .leaseDone _ _ => some .leaseDone
  | .leaseEnd _ _ => some .leaseEnd
  | .leaseCancel _ _ => some .leaseCancel
  | .hold _ _ => some .holdGo
  | .go _ _ => some .holdGo
  | .noted _ _ => some .noted
  | _ => none

/-- The frame body that a command carries, if it is a frame and every field is valid. -/
def bodyOf : Instr → Option Msg
  | .join _ b => b.body.map .join
  | .presence _ b => b.body.map .presence
  | .claim _ b => b.map .claim
  | .consent _ b => b.map .consent
  | .object _ b => b.map .object
  | .withdraw _ b => b.map .withdraw
  | .header _ b => b.map .header
  | .recordBlock _ b => b.map .recordBlock
  | .recordAsk _ b => b.map .recordAsk
  | .chestDone _ b => b.map .chestDone
  | .chestEntered _ b => b.map .chestEntered
  | .chestRefused _ b => b.map .chestRefused
  | .fillVoid _ b => b.map .fillVoid
  | .markDone _ b => b.map .markDone
  | .markEntered _ b => b.map .markEntered
  | .adopt _ b => b.map .adopt
  | .sheetTaken _ b => b.map .sheetTaken
  | .leaseAsk _ b => b.map .leaseAsk
  | .leaseGrant _ b => b.map .leaseGrant
  | .leaseDone _ b => b.map .leaseDone
  | .leaseEnd _ b => b.map .leaseEnd
  | .leaseCancel _ b => b.map .leaseCancel
  | .hold _ b => b.map .hold
  | .go _ b => b.map .go
  | .noted _ b => b.map .noted
  | _ => none

/-- A body is of the command's kind, and within its ranges where the command is well-formed. -/
def Statement (i : Instr) : Prop :=
  ∀ m : Msg, bodyOf i = some m → kindOf i = some (msgKind m) ∧ (i.wf = true → m.wf = true)

/-- A command that is no frame. -/
theorem of_none {i : Instr} (h : bodyOf i = none) : Statement i := by
  intro m hm; rw [h] at hm; cases hm

/-- A frame's body, from what its kind and its well-formedness are. -/
theorem of_frame {α : Type} {i : Instr} (e : Env) (b : Option α) (f : α → Msg) (k : FrameKind)
    (hb : bodyOf i = b.map f) (hk : kindOf i = some k) (hw : i.wf = frameWf e (b.map f)) (hm : ∀ a, msgKind (f a) = k) :
    Statement i := by
  intro m h
  rw [hb] at h
  cases b with
  | none => cases h
  | some a =>
      cases h
      refine ⟨by rw [hk, hm], fun w => ?_⟩
      rw [hw] at w
      simp only [Option.map, frameWf, Bool.and_eq_true] at w
      exact w.2

theorem powerOn : Statement .powerOn := of_none rfl
theorem resetPinLow : Statement .resetPinLow := of_none rfl
theorem resetPinRelease (heldMs : Nat) : Statement (.resetPinRelease heldMs) := of_none rfl
theorem configLoadEnd (answers : Bool) : Statement (.configLoadEnd answers) := of_none rfl
theorem joinRetryDelayExpiry : Statement .joinRetryDelayExpiry := of_none rfl
theorem joinPeriodEnd : Statement .joinPeriodEnd := of_none rfl
theorem interframeGap : Statement .interframeGap := of_none rfl
theorem backoffSlot : Statement .backoffSlot := of_none rfl
theorem collision : Statement .collision := of_none rfl
theorem frameComplete : Statement .frameComplete := of_none rfl
theorem invalidFrame (bytes : List Byte) : Statement (.invalidFrame bytes) := of_none rfl
theorem join (e : Env) (b : JoinRead) : Statement (.join e b) := by
  intro m h
  obtain ⟨roles, start, blender, lane1, lane2⟩ := b
  cases start <;> cases blender <;> cases lane1 <;> cases lane2 <;>
    simp_all [bodyOf, kindOf, JoinRead.body, Instr.wf, JoinRead.wf]
  subst h
  simp_all [Msg.wf, msgKind]
theorem presence (e : Env) (b : PresenceRead) : Statement (.presence e b) := by
  intro m h
  obtain ⟨roles, state, mark⟩ := b
  cases state <;> simp_all [bodyOf, kindOf, PresenceRead.body, Instr.wf]
  subst h
  simp_all [Msg.wf, msgKind]
theorem claim (e : Env) (b : Option ClaimBody) : Statement (.claim e b) :=
  of_frame e b .claim .claim rfl rfl rfl (fun _ => rfl)
theorem consent (e : Env) (b : Option ConsentBody) : Statement (.consent e b) :=
  of_frame e b .consent .consent rfl rfl rfl (fun _ => rfl)
theorem object (e : Env) (b : Option ObjectBody) : Statement (.object e b) :=
  of_frame e b .object .object rfl rfl rfl (fun _ => rfl)
theorem withdraw (e : Env) (b : Option Nat) : Statement (.withdraw e b) :=
  of_frame e b .withdraw .withdraw rfl rfl rfl (fun _ => rfl)
theorem header (e : Env) (b : Option HeaderBody) : Statement (.header e b) :=
  of_frame e b .header .header rfl rfl rfl (fun _ => rfl)
theorem recordBlock (e : Env) (b : Option BlockBody) : Statement (.recordBlock e b) :=
  of_frame e b .recordBlock .recordBlock rfl rfl rfl (fun _ => rfl)
theorem recordAsk (e : Env) (b : Option Nat) : Statement (.recordAsk e b) :=
  of_frame e b .recordAsk .recordAsk rfl rfl rfl (fun _ => rfl)
theorem chestDone (e : Env) (b : Option ChestDoneBody) : Statement (.chestDone e b) :=
  of_frame e b .chestDone .chestDone rfl rfl rfl (fun _ => rfl)
theorem chestEntered (e : Env) (b : Option ChestEnteredBody) : Statement (.chestEntered e b) :=
  of_frame e b .chestEntered .chestEntered rfl rfl rfl (fun _ => rfl)
theorem chestRefused (e : Env) (b : Option RefusedBody) : Statement (.chestRefused e b) :=
  of_frame e b .chestRefused .chestRefused rfl rfl rfl (fun _ => rfl)
theorem fillVoid (e : Env) (b : Option VoidBody) : Statement (.fillVoid e b) :=
  of_frame e b .fillVoid .fillVoid rfl rfl rfl (fun _ => rfl)
theorem markDone (e : Env) (b : Option MarkDoneBody) : Statement (.markDone e b) :=
  of_frame e b .markDone .markDone rfl rfl rfl (fun _ => rfl)
theorem markEntered (e : Env) (b : Option MarkEnteredBody) : Statement (.markEntered e b) :=
  of_frame e b .markEntered .markEntered rfl rfl rfl (fun _ => rfl)
theorem adopt (e : Env) (b : Option AdoptBody) : Statement (.adopt e b) :=
  of_frame e b .adopt .adopt rfl rfl rfl (fun _ => rfl)
theorem sheetTaken (e : Env) (b : Option Nat) : Statement (.sheetTaken e b) :=
  of_frame e b .sheetTaken .sheetTaken rfl rfl rfl (fun _ => rfl)
theorem leaseAsk (e : Env) (b : Option LeaseAskBody) : Statement (.leaseAsk e b) :=
  of_frame e b .leaseAsk .leaseAsk rfl rfl rfl (fun _ => rfl)
theorem leaseGrant (e : Env) (b : Option LeaseGrantBody) : Statement (.leaseGrant e b) :=
  of_frame e b .leaseGrant .leaseGrant rfl rfl rfl (fun _ => rfl)
theorem leaseDone (e : Env) (b : Option Nat) : Statement (.leaseDone e b) :=
  of_frame e b .leaseDone .leaseDone rfl rfl rfl (fun _ => rfl)
theorem leaseEnd (e : Env) (b : Option LeaseEndBody) : Statement (.leaseEnd e b) :=
  of_frame e b .leaseEnd .leaseEnd rfl rfl rfl (fun _ => rfl)
theorem leaseCancel (e : Env) (b : Option Nat) : Statement (.leaseCancel e b) :=
  of_frame e b .leaseCancel .leaseCancel rfl rfl rfl (fun _ => rfl)
theorem hold (e : Env) (b : Option Nat) : Statement (.hold e b) :=
  of_frame e b .hold .holdGo rfl rfl rfl (fun _ => rfl)
theorem go (e : Env) (b : Option Nat) : Statement (.go e b) :=
  of_frame e b .go .holdGo rfl rfl rfl (fun _ => rfl)
theorem noted (e : Env) (b : Option NotedBody) : Statement (.noted e b) :=
  of_frame e b .noted .noted rfl rfl rfl (fun _ => rfl)
theorem confirmTimerExpiry (k : ExKey) : Statement (.confirmTimerExpiry k) := of_none rfl
theorem presenceTimerExpiry : Statement .presenceTimerExpiry := of_none rfl
theorem silenceTimerExpiry (station : Nat) : Statement (.silenceTimerExpiry station) := of_none rfl
theorem joinWatchExpiry (station : Nat) : Statement (.joinWatchExpiry station) := of_none rfl
theorem claimWindowExpiry : Statement .claimWindowExpiry := of_none rfl
theorem claimRetryDelayExpiry : Statement .claimRetryDelayExpiry := of_none rfl
theorem claimStaleTimerExpiry (inv : Nat) : Statement (.claimStaleTimerExpiry inv) := of_none rfl
theorem versionedResendDelayExpiry (inv : Nat) : Statement (.versionedResendDelayExpiry inv) := of_none rfl
theorem askTimerExpiry (inv : Nat) : Statement (.askTimerExpiry inv) := of_none rfl
theorem rebuildTimerExpiry (inv : Nat) : Statement (.rebuildTimerExpiry inv) := of_none rfl
theorem closedTimerExpiry (inv : Nat) : Statement (.closedTimerExpiry inv) := of_none rfl
theorem adoptionDelayExpiry (inv : Nat) : Statement (.adoptionDelayExpiry inv) := of_none rfl
theorem settleTimerExpiry (inv : Nat) : Statement (.settleTimerExpiry inv) := of_none rfl
theorem sample (word : BitVec 32) (bits : Nat) (flightMs : Nat) : Statement (.sample word bits flightMs) := of_none rfl
theorem lossTimerExpiry : Statement .lossTimerExpiry := of_none rfl
theorem starveTimerExpiry : Statement .starveTimerExpiry := of_none rfl
theorem stallTimerExpiry : Statement .stallTimerExpiry := of_none rfl
theorem drumTurnPulse : Statement .drumTurnPulse := of_none rfl
theorem chestPresenceChange (present : Bool) : Statement (.chestPresenceChange present) := of_none rfl
theorem holdLapseTimerExpiry : Statement .holdLapseTimerExpiry := of_none rfl
theorem headSettleTimerExpiry : Statement .headSettleTimerExpiry := of_none rfl
theorem laneHoldTimerExpiry (lane : Nat) : Statement (.laneHoldTimerExpiry lane) := of_none rfl
theorem laneEyeArrival (lane : Nat) : Statement (.laneEyeArrival lane) := of_none rfl
theorem compositionComplete : Statement .compositionComplete := of_none rfl
theorem strokeEnd : Statement .strokeEnd := of_none rfl
theorem strokeTimerExpiry : Statement .strokeTimerExpiry := of_none rfl
theorem portRequestAborted (bytes : List Byte) : Statement (.portRequestAborted bytes) := of_none rfl
theorem unknownRequest (kind : Byte) (checkGood : Bool) : Statement (.unknownRequest kind checkGood) := of_none rfl
theorem readStatus (r : Req Unit) : Statement (.readStatus r) := of_none rfl
theorem readReport (r : Req Unit) : Statement (.readReport r) := of_none rfl
theorem readInvoice (r : Req InvoiceRead) : Statement (.readInvoice r) := of_none rfl
theorem readStationTable (r : Req Unit) : Statement (.readStationTable r) := of_none rfl
theorem readTallies (r : Req Unit) : Statement (.readTallies r) := of_none rfl
theorem restartWarm (r : Req Unit) : Statement (.restartWarm r) := of_none rfl
theorem readConfigMemory (r : Req MemoryRead) : Statement (.readConfigMemory r) := of_none rfl
theorem configReadTransferEnd : Statement .configReadTransferEnd := of_none rfl
theorem writeConfigMemory (r : Req MemoryWrite) : Statement (.writeConfigMemory r) := of_none rfl
theorem configWriteTransferEnd : Statement .configWriteTransferEnd := of_none rfl
theorem forceAdopt (r : Req Nat) : Statement (.forceAdopt r) := of_none rfl
theorem placeOrder (r : Req OrderBody) : Statement (.placeOrder r) := of_none rfl
theorem cancel (r : Req Unit) : Statement (.cancel r) := of_none rfl
theorem resume (r : Req Unit) : Statement (.resume r) := of_none rfl
theorem redraw (r : Req Nat) : Statement (.redraw r) := of_none rfl
theorem endBatch (r : Req Unit) : Statement (.endBatch r) := of_none rfl
theorem confirmEmpty (r : Req Unit) : Statement (.confirmEmpty r) := of_none rfl
theorem carryOverSet (r : Req CarrySet) : Statement (.carryOverSet r) := of_none rfl
theorem start (r : Req Unit) : Statement (.start r) := of_none rfl
theorem stop (r : Req Unit) : Statement (.stop r) := of_none rfl
theorem clearRetry (r : Req Unit) : Statement (.clearRetry r) := of_none rfl
theorem clearVoid (r : Req Unit) : Statement (.clearVoid r) := of_none rfl
theorem resetHead (r : Req Unit) : Statement (.resetHead r) := of_none rfl
theorem zero (r : Req Unit) : Statement (.zero r) := of_none rfl
theorem clearLane (r : Req Nat) : Statement (.clearLane r) := of_none rfl
theorem reprint (r : Req Nat) : Statement (.reprint r) := of_none rfl
theorem handLane (r : Req Nat) : Statement (.handLane r) := of_none rfl
theorem handChest (r : Req ChestName) : Statement (.handChest r) := of_none rfl
theorem readPlate (r : Req Nat) : Statement (.readPlate r) := of_none rfl
theorem openSheet (r : Req (Option Nat)) : Statement (.openSheet r) := of_none rfl
theorem readSheetPart (r : Req Nat) : Statement (.readSheetPart r) := of_none rfl
theorem sheetDone (r : Req Unit) : Statement (.sheetDone r) := of_none rfl
theorem noise : Statement .noise := of_none rfl

end Sys2Proof.Laws.Named
end

