-- ==== Sys2Proof/Laws/Port.lean ====
section
/-! SUPPORT. What the port's shared tests leave of a request, and what a request that a block answers leaves. -/

namespace Sys2Proof.Machine

@[simp] theorem answer_canSend (s : State) (k : Byte) (a : PortAnswer) (b : List Byte) :
    (s.answer k a b).canSend = s.canSend := rfl

/-- A request that passes the tests goes to its block (R174). -/
theorem portTake_good {α : Type} (s : State) (k : Byte) (g : Group) (a : α) (body : List Byte)
    (take : α → State → State × Jobs) (h : PortTakes s g) : s.portTake k g (.good a) body take = take a s := by
  obtain ⟨h1, h2, h3, h4, h5, _⟩ := h
  have h6 : (g != .all && s.start.state == .offlineConfig) = false := by
    rcases h5 with h | h
    · simp [h]
    · simp [h]
  simp [State.portTake, h1, State.portTest, State.portBusy, Req.checked, h2, h3, State.portRefuses, Req.lengthy, h4, h6]

/-- A request of the port that passes the tests. -/
theorem request_good {α : Type} (s : State) (k : Byte) (g : Group) (a : α) (take : α → State → State × Jobs)
    (h : PortTakes s g) : s.request k g (.good a) take = State.settle (take a s) := by
  rw [State.request, portTake_good s k g a [] take h]

/-- A request that only its answer changes. -/
theorem request_answer {α : Type} (s : State) (k : Byte) (g : Group) (a : α) (take : α → State → State × Jobs)
    (c : PortAnswer) (b : List Byte) (h : PortTakes s g) (ht : take a s = (s.answer k c b, [])) :
    s.request k g (.good a) take = (s.answer k c b).tryTransmit := by
  rw [request_good s k g a take h, ht]
  exact settle_nil (s.answer k c b) h.2.2.2.2.2

/-- A request that leaves a state with nothing owed and raises no job. -/
theorem request_done {α : Type} (s t : State) (k : Byte) (g : Group) (a : α) (take : α → State → State × Jobs)
    (h : PortTakes s g) (ht : take a s = (t, [])) (ho : t.head.owedDone = []) :
    s.request k g (.good a) take = t.tryTransmit := by
  rw [request_good s k g a take h, ht, settle_nil _ ho]

end Sys2Proof.Machine
end

