-- ==== Sys2Proof/Laws/Start.lean ====
section
/-! SUPPORT. What a warm start leaves of the invoice table, the lanes and the paper unit. -/

namespace Sys2Proof.Machine

theorem warmShort_eq (r : Rec) (o : Option ShortSlot) :
    warmShort r o = o.bind (fun k =>
      if k.entering && (r.chestOf k.head k.token).isSome then none else some { k with entering := false }) := by
  cases o with
  | none => rfl
  | some k =>
    obtain ⟨e, _⟩ := k
    cases e <;> simp [warmShort]

/-- R50: what the invoice unit keeps over a warm start. -/
theorem warmBlocks_invoicesKept (s : State) : InvoicesKept s s.warmBlocks := by
  unfold InvoicesKept State.warmBlocks Inv.warm
  simp only [Inv.mk.injEq, and_true]
  congr 1
  funext e
  simp [Entry.warm, OwnerRec.warm, OwnerRec.start, OwnerRec.backTo, warmShort_eq]

/-- R155: what the marker keeps over a warm start. -/
theorem warmBlocks_lanesKept (s : State) : LanesKept s s.warmBlocks := by
  unfold LanesKept State.warmBlocks Marker.warm Lane.warm
  simp
  refine ⟨?_, ?_, ?_⟩ <;> intros <;> split <;> rfl

/-- The paper unit after a list of entries, none in the table any more, was freed and made gaps (R164). -/
theorem paper_freedAll (s : State) (l : List Nat) (p : Paper) (h : ∀ n ∈ l, s.inv.find n = none) :
    l.foldl (fun (p : Paper) n => (p.freed n).gap s n) p =
      { p with
        queue := p.queue.filter (fun k => !l.contains k.inv),
        waiting := p.waiting.filter (fun k => !l.contains k.inv),
        taking := p.taking.filter (fun k => !l.contains k.inv),
        gaps := (l.foldl gapsWith (p.gaps, p.gapOver)).1,
        gapOver := (l.foldl gapsWith (p.gaps, p.gapOver)).2,
        window := match p.window.shown with
          | none => p.window
          | some (n, _) => if l.contains n then { shown := none, cause := .retired } else p.window } := by
  induction l generalizing p with
  | nil =>
    cases p; rename_i w _; cases hw : w.shown <;> simp
  | cons n l ih =>
    rw [List.foldl_cons, ih _ (fun m hm => h m (by simp [hm]))]
    have hn := h n (by simp)
    have hg : ∀ q : Paper, q.gap s n =
        { q with gaps := (gapsWith (q.gaps, q.gapOver) n).1, gapOver := (gapsWith (q.gaps, q.gapOver) n).2 } := by
      intro q
      simp only [Paper.gap, hn, gapsWith]
      simp
      split <;> simp
    rw [hg]
    cases p; rename_i w tk
    obtain ⟨sh, ca⟩ := w
    simp [Paper.freed, Paper.unlist, List.filter_filter, Window.close]
    refine ⟨?_, ?_, ?_, ?_⟩
    · congr 1; funext a; rw [Bool.and_comm]; congr 1
    · congr 1; funext a; rw [Bool.and_comm]; congr 1
    · cases sh with
      | none => rfl
      | some v =>
        obtain ⟨m, x⟩ := v
        by_cases hm : m = n <;> simp [hm]
    · congr 1; funext a; rw [Bool.and_comm]; congr 1

/-- R171: what the paper unit keeps over a warm start. -/
theorem warmBlocks_paperKept (s : State) : PaperKept s s.warmBlocks := by
  have hw : ∀ n ∈ s.inv.ownClaims, ({ s with inv := s.inv.warm } : State).inv.find n = none := by
    intro n hn
    simp only [Inv.find, Inv.warm, List.find?_eq_none, List.mem_map, List.mem_filter]
    rintro e ⟨e', ⟨_, he⟩, rfl⟩
    simp [Entry.warm, Entry.num] at he ⊢
    intro h; simp [h, hn] at he
  constructor
  · intro h; simp [State.warmBlocks, h]
  · intro h
    simp only [State.warmBlocks, h, if_true]
    rw [paper_freedAll { s with inv := s.inv.warm } _ _ hw]
    simp [Paper.warm]
    refine ⟨?_, ?_⟩
    · cases hs : s.paper.window.shown with
      | none => simp [hs]
      | some v => by_cases hc : v.1 ∈ s.inv.ownClaims <;> simp [hc, hs]
    · intros; split <;> rfl

end Sys2Proof.Machine
end

