-- ==== Sys2Proof/Machine/Requests.lean ====
section
/-! DEFINITION. A port request as bytes (R173, R189): the command that the bytes the host clocked in, up to the
release of the select line, stand for. -/

namespace Sys2Proof.Machine

/-- The sum of the bytes modulo 256 is 0 (R189). -/
def sumGood (l : List Byte) : Bool := l.foldl (fun t b => t + b.toNat) 0 % 256 = 0

/-- A request whose body has an allowed length, read by `f`. -/
def reqOf {α : Type} (check lengthGood : Bool) (f : Option α) : Req α :=
  if !check then .badCheck
  else if !lengthGood then .badLength
  else match f with
    | none => .badValue
    | some a => .good a

/-- A garden mark of a request: all 00 for none; otherwise the bytes before the last padding, a 00 among them being a
character out of the set (R187, R189). -/
def gardenOf (l : List Byte) : Option Text :=
  match (l.reverse.dropWhile (fun b => b == 0#8)).reverse with
  | [] => none
  | t => some t

/-- Components of four bytes. -/
def compsOf : List Byte → List (Nat × Nat)
  | a :: b :: c :: d :: l => (a.toNat, b.toNat * 65536 + c.toNat * 256 + d.toNat) :: compsOf l
  | _ => []

/-- The body of PLACE ORDER. -/
def orderOf (l : List Byte) : Option OrderBody := do
  let (order, l) ← get2 l
  let (grade, l) ← get1 l
  let garden := gardenOf (l.take 8)
  let (mix, l) ← get1 (l.drop 8)
  let (_, l) ← get1 l
  some { order := order, grade := grade, garden := garden, mix := if mix = 0 then none else some mix, comps := compsOf l }

/-- PLACE ORDER has 13 + 4 × n bytes for the n components it counts, 1 to 8 (R189). -/
def orderLength (l : List Byte) : Bool :=
  match l[12]? with
  | none => false
  | some n => decide (1 ≤ n.toNat) && decide (n.toNat ≤ 8) && l.length == 13 + 4 * n.toNat

/-- One byte as an operand. -/
def one (l : List Byte) : Option Nat := (get1 l).map (fun p => p.1)
/-- Two bytes as an operand. -/
def two (l : List Byte) : Option Nat := (get2 l).map (fun p => p.1)

/-- An invoice, an ordinal and a count. -/
def invoiceReadOf (l : List Byte) : Option InvoiceRead := do
  let (n, l) ← get2 l
  let (o, l) ← get1 l
  let (c, _) ← get1 l
  some { inv := n, first := o, count := c }

/-- An offset and a count. -/
def memoryReadOf (l : List Byte) : Option MemoryRead := do
  let (o, l) ← get2 l
  let (c, _) ← get1 l
  some { offset := o, count := c }

/-- An offset and data. -/
def memoryWriteOf (l : List Byte) : Option MemoryWrite := do
  let (o, l) ← get2 l
  some { offset := o, data := l }

/-- A grade and a weight. -/
def carrySetOf (l : List Byte) : Option CarrySet := do
  let (g, l) ← get1 l
  let (w, _) ← get3 l
  some { grade := g, weight := w }

/-- An invoice and an ordinal. -/
def chestNameOf (l : List Byte) : Option ChestName := do
  let (n, l) ← get2 l
  let (o, _) ← get1 l
  some { inv := n, ordinal := o }

/-- The command of a whole request by its kind, body and check (R189). A 2-byte body of OPEN SHEET names the invoice it
holds, 0 too (log 107). -/
def requestOf (kind : Byte) (b : List Byte) (check : Bool) : Instr :=
  let n := b.length
  let plain := reqOf check (n == 0) (some ())
  match kind.toNat with
  | 0x01 => .readStatus plain
  | 0x02 => .readReport plain
  | 0x03 => .readInvoice (reqOf check (n == 4) (invoiceReadOf b))
  | 0x04 => .readStationTable plain
  | 0x05 => .readTallies plain
  | 0x06 => .restartWarm plain
  | 0x07 => .readConfigMemory (reqOf check (n == 3) (memoryReadOf b))
  | 0x08 => .writeConfigMemory (reqOf check (decide (3 ≤ n) && decide (n ≤ 34)) (memoryWriteOf b))
  | 0x09 => .forceAdopt (reqOf check (n == 2) (two b))
  | 0x10 => .placeOrder (reqOf check (orderLength b) (orderOf b))
  | 0x11 => .cancel plain
  | 0x12 => .resume plain
  | 0x13 => .redraw (reqOf check (n == 1) (one b))
  | 0x14 => .endBatch plain
  | 0x15 => .confirmEmpty plain
  | 0x16 => .carryOverSet (reqOf check (n == 4) (carrySetOf b))
  | 0x20 => .start plain
  | 0x21 => .stop plain
  | 0x22 =>
      if one b = some 2 then .clearVoid (reqOf check (n == 1) (some ()))
      else .clearRetry (reqOf check (n == 1) (if one b = some 1 then some () else none))
  | 0x23 => .resetHead plain
  | 0x24 => .zero plain
  | 0x30 => .clearLane (reqOf check (n == 1) (one b))
  | 0x31 => .reprint (reqOf check (n == 1) (one b))
  | 0x32 => if n = 3 then .handChest (reqOf check true (chestNameOf b)) else .handLane (reqOf check (n == 1) (one b))
  | 0x33 => .readPlate (reqOf check (n == 1) (one b))
  | 0x40 => .openSheet (reqOf check (n == 0 || n == 2) (if n = 0 then some none else (two b).map some))
  | 0x41 => .readSheetPart (reqOf check (n == 1) (one b))
  | 0x42 => .sheetDone plain
  | _ => .unknownRequest kind check

/-- The command of the bytes clocked in before the select line was released (R173). A request whose check byte alone has
not arrived counts as aborted, and bytes after the check byte are not read (the model's choice, log 114). -/
def commandOf (l : List Byte) : Instr :=
  match l with
  | k :: n :: rest =>
      if rest.length < n.toNat + 1 then .portRequestAborted l
      else requestOf k (rest.take n.toNat) (sumGood (l.take (n.toNat + 3)))
  | _ => .portRequestAborted l

end Sys2Proof.Machine
end

