-- ==== Sys2Proof/Tests/Slice0.lean ====
section
/-! SUPPORT. Tests by evaluation on small states. Three groups: what WellFormed refuses; values the manual works out, and
one step of some commands; and for every statement with hypotheses a theorem `test_meets_<Name>` that applies the
statement, clause by clause, to concrete states and operands: it compiles only because every hypothesis holds there. -/

namespace Sys2Proof.Tests

open Sys2Proof Sys2Proof.Machine

/-! ## Small states -/

def only (b h m p : Bool) : Roles := { blend := b, head := h, mark := m, paper := p }

/-- The text of a string of the text set. -/
def txt (s : String) : Text := s.toList.map (fun c => BitVec.ofNat 8 c.toNat)

def grade0 : Grade :=
  { target := 5000, underTol := 20, overTol := 50, tareNom := 1000, tareBand := 100, shortMin := 1000, name := txt "BOP",
    layout := 1 }

def layout0 : List (List LayoutItem) :=
  [[.field .garden 0 false false, .lit (txt " "), .field .grade 0 false false, .lit (txt " "),
    .field .season 0 false false],
   [.lit (txt "INV"), .field .invoice 5 true false, .lit (txt "/"), .field .chest 3 true false, .lit (txt " "),
    .field .net 0 false false]]

def cfg0 (r : Roles) : Cfg :=
  { Cfg.none with
    number := 3, roles := r, retryK := 1, scale := 8, first := 1, last := 100, season := txt "2025",
    garden := txt "MORVALE", span := 32768, overload := 8000000, band := 5, flight := 50, drumEmpty := 100, mixTurns := 10,
    chute := [(5, 1), (6, 2)], blender := 1, headEmpty := 500, dribble := 300, allowance := 40, topups := 1, lane1 := 5,
    lane2 := some 6, grades := List.replicate 12 grade0, layouts := [layout0, layout0, layout0, layout0] }

def peer0 : Peer := { Peer.cold with state := .present, silence := .running 1600, roles := some (only true false false false) }

/-- An ACTIVE station 3 with the roles, every other station PRESENT. -/
def st (r : Roles) : State :=
  { State.reset with
    start := { State.reset.start with state := .active }, cfg := cfg0 r,
    line := { State.reset.line with table := Vector.replicate 24 peer0 } }

def sB : State := st (only true false false false)
def sH : State := st (only false true false false)
def sM : State := st (only false false true false)
def sP : State := st (only false false false true)
def sBP : State := st (only true false false true)
def sBH : State := st (only true true false false)

/-- From head 5, and from blender 1, to station 3. -/
def e5 : Env := { dst := 3, src := 5 }
def e1 : Env := { dst := 3, src := 1 }

def hdr0 (n owner v : Nat) (q : InvState) : Header :=
  { inv := n, owner := owner, version := v, state := q, batch := owner, order := 7, garden := txt "MORVALE", grade := 0,
    charged := 50000, planned := 10, entered := 0, netTotal := 0, voidTotal := 0, voidCount := 0, residue := none,
    endCause := none, adoption := .unadopted, lostFills := 0 }

/-- An invoice of another owner, and one of this station. -/
def copy0 (n owner v : Nat) (q : InvState) : Entry := Entry.made (hdr0 n owner v q) .complete
def own0 (n v : Nat) (q : InvState) : Entry :=
  { copy0 n 3 v q with own := some (OwnerRec.start (copy0 n 3 v q).data) }

def chest0 (o : Nat) : Chest :=
  { ordinal := o, head := some 5, token := some 9, gross := some 6000, tare := some 1000, net := some 5000, short := false,
    topups := 0, flightLong := false, stencil := .pending, marker := none }

def with1 (s : State) (x : Entry) : State := { s with inv := { s.inv with table := [x] } }


/-! ## Chute leases -/

def lease5 : Lease := { head := 5, token := 9, purpose := .fill, inv := 4, number := 7 }
def lease6 : Lease := { head := 6, token := 8, purpose := .fill, inv := 4, number := 8 }
def ask9 (p : Purpose) : LeaseAskBody := { purpose := p, token := 9, inv := if p = .fill then 0 else 4 }

/-- A blender that discharges its invoice 4. -/
def sD : State :=
  { with1 sB (own0 4 1 .opened) with
    arb := { Arb.cold with openFlag := true, batch := some 4 },
    blend := { Blend.cold with state := .discharging } }

def ownR (n v : Nat) (q : InvState) : OwnerRec := OwnerRec.start (copy0 n 3 v q).data

theorem test_meets_LeaseAskQueued (h : Obligations.LeaseAskQueued) : True := by
  have _ := (h sB { dst := 3, src := 7 } (ask9 .fill) (by decide) rfl (by decide)).1 (by decide)
  have _ := (h sB e5 (ask9 .topup) (by decide) rfl (by decide)).2.1 (by decide) rfl (by decide)
  have _ := (h sB e5 (ask9 .fill) (by decide) rfl (by decide)).2.2 (by decide) rfl rfl (by decide)
  trivial

theorem test_meets_LeaseAskGranted (h : Obligations.LeaseAskGranted) : True := by
  have _ := h sD e5 (ask9 .fill) 4 (ownR 4 1 .opened) 1 (by decide) rfl (by decide) (by decide) rfl rfl rfl rfl rfl
    (by decide) (by decide) rfl rfl (by decide)
  trivial

theorem test_meets_LeaseDoneTaken (h : Obligations.LeaseDoneTaken) : True := by
  have _ := (h.1 sD { dst := 3, src := 7 } 7 (by decide) rfl (by decide)).1 (by decide)
  have _ := (h.1 sD e5 7 (by decide) rfl (by decide)).2.1 (by decide) (by decide)
  let s1 : State := { sD with arb := { sD.arb with current := some lease5, gate := true } }
  have _ := (h.1 s1 e5 7 (by decide) rfl (by decide)).2.2 lease5 (by decide) rfl rfl rfl rfl rfl
  let s2 : State := { sD with arb := { sD.arb with current := some lease5, next := some lease6, gate := true } }
  have _ := h.2 s2 e5 7 2 lease5 lease6 (ownR 4 1 .opened) (by decide) rfl (by decide) (by decide) rfl rfl rfl rfl rfl rfl
    (by decide) (by decide) (by decide) (by decide) rfl rfl (by decide)
  trivial

theorem test_meets_LeaseCancelFrees (h : Obligations.LeaseCancelFrees) : True := by
  have _ := (h sD { dst := 3, src := 7 } 9 (by decide) rfl (by decide)).1 (by decide)
  have _ := (h sD e5 9 (by decide) rfl (by decide)).2.1 (by decide) (by decide) (by decide)
  let s1 : State := { sD with arb := { sD.arb with current := some lease6, next := some lease5, gate := true } }
  have _ := (h s1 e5 9 (by decide) rfl (by decide)).2.2.1 lease5 (by decide) (by decide) rfl rfl rfl rfl
  let s2 : State := { sD with arb := { sD.arb with current := some lease5, gate := true } }
  have _ := (h s2 e5 9 (by decide) rfl (by decide)).2.2.2 lease5 (by decide) rfl rfl rfl rfl rfl
  trivial

def now0 : ChestNow :=
  { token := 9, inv := some 4, tare := 1000, gross := none, net := none, topups := 0, limit := 1, starved := false,
    flight := none, flightLong := false, cls := none, lease := none, purpose := .fill,
    voided := none }

def read0 (w : Int) : Reading :=
  { weight := some w, stable := true, becameStable := false, becameUnstable := false, overload := false,
    overloadMark := false, lost := false, lostMark := false, zeroTaken := false }

/-- A head in a state with a chest and a lease state. -/
def head0 (q : HeadState) (l : LeaseState) (c : ChestNow) : State :=
  { sH with head := { Head.cold with state := q, lease := l, chest := some c, last := some (read0 1000) } }

theorem test_meets_HoldAndGo (h : Obligations.HoldAndGo) : True := by
  have _ := (h sH e5 1 rfl).1 (by decide)
  have _ := (h sH e5 1 rfl).2.1 (by decide) (by decide)
  let s : State := { head0 .waiting .none now0 with head := { (head0 .waiting .none now0).head with hold := true } }
  have _ := (h s e5 1 rfl).2.2 now0 (by decide) rfl rfl rfl rfl (by decide)
  trivial

theorem test_meets_LeaseGrantStarts (h : Obligations.LeaseGrantStarts) : True := by
  have _ := (h sH e1 { slot := .current, inv := 4, lease := 7 } (by decide) rfl rfl (by decide)).1 rfl
  have _ := (h (head0 .waiting .asked now0) e1 { slot := .next, inv := 4, lease := 7 } (by decide) rfl rfl (by decide)).2.1
    now0 rfl rfl rfl rfl
  let fresh : ChestNow := { now0 with inv := none }
  have _ := (h (head0 .waiting .asked fresh) e1 { slot := .current, inv := 4, lease := 7 } (by decide) rfl rfl
    (by decide)).2.2.1 fresh 0 (read0 1000) rfl rfl (by decide) rfl (by decide) (by decide) rfl rfl
  have _ := (h (head0 .topupWait .next now0) e1 { slot := .current, inv := 4, lease := 7 } (by decide) rfl rfl
    (by decide)).2.2.2 now0 (read0 1000) rfl rfl (by decide) rfl rfl rfl rfl
  trivial

theorem test_meets_LeaseEndStarves (h : Obligations.LeaseEndStarves) : True := by
  let c : ChestNow := { now0 with lease := some 7 }
  have _ := (h (head0 .fast .current c) e1 { lease := 8, reason := .exhausted } c (by decide) rfl rfl rfl).1 (by decide)
    (by decide)
  have _ := (h (head0 .fast .current c) e1 { lease := 7, reason := .exhausted } c (by decide) rfl rfl rfl).2 rfl
    (by decide) (by decide)
  trivial

/-- An exchange of the station in flight to station 1. -/
def ex0 (k : ExKey) (n : Nat) (patient : Bool) : Exchange :=
  { id := 0, key := k, msg := .leaseCancel 9, dst := 1, peer := 1, resends := n, timer := .running 80, patient := patient }

def withEx (s : State) (x : Exchange) : State := { s with line := { s.line with exchanges := [x] } }

theorem test_meets_ChestRefusedHolds (h : Obligations.ChestRefusedHolds) : True := by
  let x := ex0 (.chestDone 4 9) 0 false
  have _ := h.1 (withEx (head0 .reported .none now0) x) e1 { inv := 4, token := 9, reason := .ended } now0 x (by decide)
    rfl rfl rfl rfl rfl rfl rfl rfl
  have _ := (h.2 (head0 .reported .none now0) e1 { inv := 4, token := 8, reason := .ended } now0 (by decide) rfl rfl).1
    (by decide)
  have _ := (h.2 (head0 .reported .none now0) e1 { inv := 4, token := 9, reason := .ended } now0 (by decide) rfl rfl).2
    rfl rfl rfl rfl rfl
  trivial

def entered0 : ChestEnteredBody :=
  { inv := 4, version := 2, ordinal := 1, head := 3, token := 9, gross := 6000, tare := 1000, net := 5000, short := false,
    topups := 0, flightLong := false }

def lane0 (l : List LaneEntry) : Lane := { Lane.cold with queue := l, holdT := .running 200 }
def item0 (n : Nat) (q : LaneState) : LaneEntry :=
  { inv := 4, ordinal := n, state := q, source := 1, cause := none, how := none, answer := .none, elsewhere := false,
    byMark := false, waits := .nothing }
/-- Chests 2, 3, … of invoice 4 in a lane. -/
def queued0 (n : Nat) : List LaneEntry := (List.range n).map (fun k => item0 (k + 2) .queued)
def job1 : Job := { lane := 1, inv := 4, ordinal := 1 }

/-- A marker with a lane 1, its head's state, and the plate in use. -/
def marker0 (l : Lane) (q : StencilHead) : State :=
  { sM with mark := { Marker.cold with lane1 := l, head := q,
                                       plateB := { Plate.cold with job := some job1, cond := .inUse } } }

theorem test_meets_ChestEnteredReleases (h : Obligations.ChestEnteredReleases) : True := by
  let y := ex0 (.chestDone 4 9) 0 false
  let c := copy0 4 1 1 .opened
  have _ := h.1 (withEx (with1 (head0 .reported .none now0) c) y) e1 entered0 now0 c y (by decide) rfl (by decide)
    (by decide) rfl rfl rfl rfl rfl rfl rfl rfl rfl rfl rfl
  let b : ChestEnteredBody := { entered0 with head := 5 }
  have m (l : Lane) := h.2.1 (with1 (marker0 l .idle) c) e1 b c 1
  have _ := (m (lane0 (queued0 3)) (by decide) rfl (by decide) (by decide) rfl rfl rfl rfl rfl rfl (by decide) rfl rfl rfl rfl
    rfl).1 rfl (by decide)
  have _ := (m (lane0 (queued0 4)) (by decide) rfl (by decide) (by decide) rfl rfl rfl rfl rfl rfl (by decide) rfl rfl rfl rfl
    rfl).2.1 rfl (by decide) (by decide) (by decide)
  have _ := (m (lane0 (queued0 5)) (by decide) rfl (by decide) (by decide) rfl rfl rfl rfl rfl rfl (by decide) rfl rfl rfl rfl
    rfl).2.1 rfl (by decide) (by decide) (by decide)
  have _ := (m (lane0 (queued0 6)) (by decide) rfl (by decide) (by decide) rfl rfl rfl rfl rfl rfl (by decide) rfl rfl rfl rfl
    rfl).2.2.1 rfl (by decide)
  let k : Overflow := { inv := 4, ordinal := 9, source := 1 }
  have _ := (m { lane0 (queued0 6) with overflow := some k } (by decide) rfl (by decide) (by decide) rfl rfl rfl rfl rfl rfl
    (by decide) rfl rfl rfl rfl rfl).2.2.2 k rfl
  have _ := h.2.2 (with1 (head0 .reported .none now0) c) e1 entered0 now0 c (by decide) rfl (by decide) (by decide) rfl rfl
    rfl rfl rfl rfl rfl rfl rfl rfl
  trivial

/-! ## Copies -/

theorem test_meets_CopyFollowsMarksAndAdoption (h : Obligations.CopyFollowsMarksAndAdoption) : True := by
  let x : Entry := { copy0 4 1 2 .opened with data := { (copy0 4 1 2 .opened).data with chests := [chest0 1] } }
  let s : State := with1 sB x
  have _ := (h.1 s e1 { inv := 4, version := 2, ordinal := 1, how := .printed, marker := 8 } x (by decide) rfl rfl
    (by decide) rfl rfl rfl rfl).1 (by decide)
  have _ := (h.1 s e1 { inv := 4, version := 3, ordinal := 1, how := .printed, marker := 8 } x (by decide) rfl rfl
    (by decide) rfl rfl rfl rfl).2.1 (by decide) (by decide)
  have _ := (h.1 s e1 { inv := 4, version := 4, ordinal := 1, how := .printed, marker := 8 } x (by decide) rfl rfl
    (by decide) rfl rfl rfl rfl).2.2 (by decide) rfl rfl (by decide)
  have _ := h.2 s e5 { inv := 4, oldOwner := 1, version := 3, forced := false } x (by decide) rfl rfl (by decide)
    (by decide) (by decide) (by decide) rfl rfl rfl rfl (by decide)
  trivial

theorem test_meets_HeaderTaken (h : Obligations.HeaderTaken) : True := by
  have _ := h.1 (with1 sB (copy0 4 1 2 .opened)) e1
    { hdr := hdr0 4 1 3 .ending, dump := false, resumed := false, newVoid := none, entryCount := 0 } (copy0 4 1 2 .opened)
    (by decide) rfl rfl (by decide) rfl rfl rfl rfl rfl (by decide) rfl rfl (by decide)
  have _ := h.2.1 sB e1 { hdr := hdr0 100 1 1 .opened, dump := false, resumed := false, newVoid := none, entryCount := 0 }
    (by decide) rfl rfl (by decide) rfl (by decide) (by decide) (by decide) rfl rfl rfl rfl
  let p : State := { with1 sP (copy0 4 1 2 .opened) with paper := { Paper.cold with acting := true } }
  have _ := (h.2.2.1 p e1 { hdr := hdr0 4 1 3 .closed, dump := false, resumed := false, newVoid := none, entryCount := 0 }
    (copy0 4 1 2 .opened) (by decide) rfl (by decide) rfl rfl (by decide)).1 rfl rfl rfl rfl rfl rfl rfl (by decide) rfl
    (by decide) (by decide) rfl
  have _ := (h.2.2.1 p e1 { hdr := hdr0 4 1 3 .retired, dump := false, resumed := false, newVoid := none, entryCount := 0 }
    (copy0 4 1 2 .opened) (by decide) rfl (by decide) rfl rfl (by decide)).2.1 rfl
  let k : PaperEntry := { inv := 4, seq := 1 }
  have _ := (h.2.2.1 { with1 sP (copy0 4 1 2 .closed) with paper := { Paper.cold with acting := true, queue := [k] } } e1
    { hdr := hdr0 4 1 3 .marking, dump := false, resumed := false, newVoid := none, entryCount := 0 }
    (copy0 4 1 2 .closed) (by decide) rfl (by decide) rfl rfl (by decide)).2.2 rfl rfl rfl rfl rfl (by decide)
  let second (owner v : Nat) : HeaderBody :=
    { hdr := hdr0 4 owner v .opened, dump := false, resumed := false, newVoid := none, entryCount := 0 }
  let s : State := with1 sB (own0 4 5 .opened)
  let j : State := { s with start := { s.start with state := .joining } }
  have two (s : State) (e : Env) (b : HeaderBody) := h.2.2.2.1 s e b (own0 4 5 .opened) (ownR 4 5 .opened)
  have _ := (two s e5 (second 5 4) (by decide) rfl rfl rfl rfl rfl (by decide) (by decide)).1 rfl (by decide)
  have _ := (two j e5 (second 5 4) (by decide) rfl rfl rfl rfl rfl (by decide) (by decide)).2.1 rfl (.inr (by decide))
  have _ := (two j e5 (second 3 6) (by decide) rfl rfl rfl rfl rfl (by decide) (by decide)).2.1 rfl (.inl rfl)
  have _ := (two j e5 (second 5 5) (by decide) rfl rfl rfl rfl rfl (by decide) (by decide)).2.2.1 rfl (by decide) rfl
  have _ := (two s e5 (second 5 5) (by decide) rfl rfl rfl rfl rfl (by decide) (by decide)).2.2.2.1 rfl (by decide)
    (by decide) (by decide) rfl (by decide)
  have _ := (two s e1 (second 1 5) (by decide) rfl rfl rfl rfl rfl (by decide) (by decide)).2.2.2.2
    (.inl ⟨rfl, by decide, by decide⟩) (by decide) rfl rfl (by decide) (by decide) (by decide)
  have _ := (two j e5 (second 5 6) (by decide) rfl rfl rfl rfl rfl (by decide) (by decide)).2.2.2.2
    (.inr ⟨rfl, by decide, by decide⟩) (by decide) rfl rfl (by decide) (by decide) (by decide)
  have taken (v : Nat) := h.2.2.2.2.1 s e5 { inv := 4, oldOwner := 3, version := v, forced := true } (own0 4 5 .opened)
    (ownR 4 5 .opened)
  have _ := (taken 4 (by decide) rfl rfl rfl rfl rfl rfl).1 (by decide)
  have _ := (taken 5 (by decide) rfl rfl rfl rfl rfl rfl).2 (by decide) (by decide) (by decide) rfl (by decide)
  have rival (s : State) (e : Env) (v : Nat) := h.2.2.2.2.2 s e { inv := 4, oldOwner := 3, version := v, forced := false }
    (own0 4 5 .opened) (ownR 4 5 .opened)
  have _ := (rival j e5 4 (by decide) rfl rfl rfl rfl rfl).1 rfl (by decide)
  have _ := (rival j e5 5 (by decide) rfl rfl rfl rfl rfl).2.1 rfl rfl
  have _ := (rival s e1 5 (by decide) rfl rfl rfl rfl rfl).2.2 (.inl ⟨rfl, by decide, by decide⟩) (by decide) rfl rfl
    (by decide) (by decide) (by decide)
  have _ := (rival j e5 6 (by decide) rfl rfl rfl rfl rfl).2.2 (.inr ⟨rfl, by decide⟩) (by decide) rfl rfl (by decide)
    (by decide) (by decide)
  trivial

theorem test_meets_DumpRebuildsCopy (h : Obligations.DumpRebuildsCopy) : True := by
  let r : Rebuild := { version := 5, count := 2, got := 0, wasClosed := false }
  let x : Entry := { copy0 4 1 2 .opened with copy := .rebuilding, rebuild := some r, rebuildT := .running 500 }
  have _ := (h (with1 sB x) e1 { inv := 4, version := 5, items := [.chest (chest0 1)] } x r (by decide) rfl rfl (by decide)
    rfl rfl rfl rfl rfl).1 (by decide)
  have _ := (h (with1 sB x) e1 { inv := 4, version := 5, items := [.chest (chest0 1), .chest (chest0 2)] } x r (by decide)
    rfl rfl (by decide) rfl rfl rfl rfl rfl).2 (by decide) rfl (by decide)
  trivial

theorem test_meets_RecordAskAnswered (h : Obligations.RecordAskAnswered) : True := by
  have _ := (h sB e5 4 (by decide) (by decide) (by decide)).1 rfl
  let o : OwnerRec := { ownR 4 1 .opened with dump := some { version := 1, rest := [] } }
  have _ := (h (with1 sB { own0 4 1 .opened with own := some o }) e5 4 (by decide) (by decide) (by decide)).2.1 o rfl rfl
  have _ := (h (with1 sB (own0 4 1 .opened)) e5 4 (by decide) (by decide) (by decide)).2.2 (ownR 4 1 .opened) rfl rfl
  trivial

/-! ## The owner -/

def done0 : ChestDoneBody :=
  { inv := 4, token := 9, gross := 6000, tare := 1000, net := 5000, topups := 0, cls := .full, flightLong := false }

theorem test_meets_ChestDoneEntered (h : Obligations.ChestDoneEntered) : True := by
  have _ := (h sB e5 done0 (by decide) (by decide) (by decide)).1 rfl
  let o : OwnerRec := { ownR 4 2 .opened with
    view := { (ownR 4 2 .opened).view with chests := [chest0 1] }, entryVer := [(1, 2)] }
  have _ := (h (with1 sB { own0 4 2 .opened with own := some o }) e5 done0 (by decide) (by decide) (by decide)).2.1 o
    (chest0 1) 2 rfl rfl (by decide) rfl rfl (by decide)
  have _ := (h (with1 sB (own0 4 1 .opened)) e5 done0 (by decide) (by decide) (by decide)).2.2.1 (ownR 4 1 .opened) rfl rfl
    rfl rfl rfl rfl rfl rfl rfl (by decide) (by decide)
  let b : ChestDoneBody := { done0 with net := 1500, cls := .short }
  let slot (t : Nat) : ShortSlot :=
    { entering := false, head := 5, token := t, gross := 2500, tare := 1000, net := 1500, topups := 0, flightLong := false }
  let at0 (o : OwnerRec) (q : InvState) : State := with1 sB { own0 4 1 q with own := some o }
  let o1 (t : Nat) : OwnerRec := { ownR 4 1 .opened with short := some (slot t) }
  have _ := ((h (at0 (o1 9) .opened) e5 b (by decide) (by decide) (by decide)).2.2.2 (o1 9) rfl rfl rfl (by decide)).1 rfl
  have _ := ((h (at0 (o1 8) .opened) e5 b (by decide) (by decide) (by decide)).2.2.2 (o1 8) rfl rfl rfl (by decide)).2.1
    (by decide) rfl rfl rfl rfl (by decide)
  let o2 := ownR 4 1 .opened
  have _ := (((h (at0 o2 .opened) e5 b (by decide) (by decide) (by decide)).2.2.2 o2 rfl rfl rfl (by decide)).2.2 rfl rfl rfl
    rfl (by decide) (by decide)).1 rfl
  let o3 := ownR 4 1 .ending
  have _ := (((h (at0 o3 .ending) e5 b (by decide) (by decide) (by decide)).2.2.2 o3 rfl rfl rfl (by decide)).2.2 rfl rfl rfl
    rfl (by decide) (by decide)).2 rfl rfl rfl rfl
  trivial

theorem test_meets_FillVoidRecorded (h : Obligations.FillVoidRecorded) : True := by
  let o : OwnerRec := { ownR 4 2 .opened with
    view := { (ownR 4 2 .opened).view with voids := [{ head := 5, token := 9, net := 100 }] } }
  have _ := (h (with1 sB { own0 4 2 .opened with own := some o }) e5 { inv := 4, token := 9, net := 100 } o (by decide)
    (by decide) (by decide) rfl rfl rfl).1 rfl
  have _ := (h (with1 sB (own0 4 1 .opened)) e5 { inv := 4, token := 9, net := 100 } (ownR 4 1 .opened) (by decide)
    (by decide) (by decide) rfl rfl rfl).2 rfl rfl rfl rfl (by decide) (by decide)
  trivial

theorem test_meets_MarkDoneEntered (h : Obligations.MarkDoneEntered) : True := by
  let b : MarkDoneBody := { inv := 4, ordinal := 1, how := .printed, marker := 8 }
  have _ := (h sB { dst := 3, src := 8 } b (by decide) (by decide) (by decide)).1 rfl
  let o : OwnerRec := { ownR 4 2 .opened with view := { (ownR 4 2 .opened).view with chests := [chest0 1] } }
  have _ := (h (with1 sB { own0 4 2 .opened with own := some o }) { dst := 3, src := 8 } b (by decide) (by decide)
    (by decide)).2 o (chest0 1) rfl rfl (by decide) rfl rfl (by decide)
  trivial

theorem test_meets_SheetTakenRetires (h : Obligations.SheetTakenRetires) : True := by
  let x : Entry := copy0 4 1 9 .closed
  let s : State := { with1 sP x with paper := { Paper.cold with window := { shown := some (4, 9), cause := .none } } }
  have _ := (h.2 s e5 4 x (by decide) (by decide) rfl).1 9 rfl rfl rfl rfl rfl
  have _ := (h.2 (with1 sB (own0 4 9 .closed)) e5 4 (own0 4 9 .closed) (by decide) (by decide) rfl).2 (ownR 4 9 .closed) rfl
    rfl rfl rfl rfl (by decide) (by decide)
  let f : HeaderBody := { hdr := hdr0 4 3 9 .retired, dump := false, resumed := false, newVoid := none, entryCount := 0 }
  let r : Retired := { inv := 4, version := 9, frame := f }
  let t : State := { sB with inv := { sB.inv with retired := [r] } }
  have _ := (h.1 t e5 4 r (by decide) (by decide) rfl rfl rfl).2 rfl (by decide)
  have _ := (h.1 { t with line := { t.line with txq := [jobFrame 0 (.header f) .plain] } } e5 4 r (by decide) (by decide) rfl
    rfl rfl).1 (by decide)
  trivial

/-! ## Claims -/

def claim0 (n : Nat) : ClaimBody := { inv := n, order := 7, grade := 0, garden := txt "MORVALE", net := 50000 }
def req0 : ClaimReq := { order := 7, grade := 0, garden := txt "MORVALE", charged := 50000 }

/-- A blender alone whose claim of 4 runs in its window. -/
def claiming (second : Bool) (l : List Nat) : State :=
  let s := with1 sB (own0 4 1 .claimed)
  { s with inv := { s.inv with phase := .window 4 second l, claimWindow := .running 1000, req := some req0, mark := 4 } }

theorem test_meets_ClaimAnswered (h : Obligations.ClaimAnswered) : True := by
  have _ := (h sB e5 (claim0 0) (by decide) rfl rfl (by decide) (by decide)).1 (by decide)
  have _ := (h sB e5 (claim0 101) (by decide) rfl rfl (by decide) (by decide)).1 (by decide)
  have _ := (h sB e5 (claim0 1) (by decide) rfl rfl (by decide) (by decide)).2.1 (by decide) rfl (by decide)
  have _ := (h sB e5 (claim0 100) (by decide) rfl rfl (by decide) (by decide)).2.1 (by decide) rfl (by decide)
  let s : State := { sB with inv := { sB.inv with table := List.replicate 24 (copy0 9 1 1 .opened) } }
  have _ := (h s e5 (claim0 4) (by decide) rfl rfl (by decide) (by decide)).2.2.1 (by decide) (by decide) (by decide)
  have _ := (h (with1 sB (copy0 4 5 1 .claimed)) e5 (claim0 4) (by decide) rfl rfl (by decide) (by decide)).2.2.2.1
    (copy0 4 5 1 .claimed) (by decide) rfl rfl rfl
  have _ := (h (with1 sB (copy0 4 1 1 .claimed)) e5 (claim0 4) (by decide) rfl rfl (by decide) (by decide)).2.2.2.2
    (copy0 4 1 1 .claimed) (by decide) rfl rfl (by decide)
  trivial

theorem test_meets_ConsentCounted (h : Obligations.ConsentCounted) : True := by
  have _ := (h (claiming false [1, 5]) e5 { inv := 4, claimant := 1 } false [1, 5] (by decide) rfl).1 (by decide)
  have _ := (h (claiming false [1, 5]) e5 { inv := 4, claimant := 3 } false [1, 5] (by decide) rfl).2.1 rfl (by decide)
  have _ := (h (claiming true [5]) e5 { inv := 4, claimant := 3 } true [5] (by decide) rfl).2.2 (ownR 4 1 .claimed) rfl
    (by decide) rfl rfl (by decide) (by decide)
  trivial

theorem test_meets_ClaimsGivenUp (h : Obligations.ClaimsGivenUp) : True := by
  have _ := h.1 (claiming false [5]) e5 { inv := 4, claimant := 3, reason := .held } false [5] req0 (by decide) rfl rfl rfl
    rfl rfl (by decide) (by decide) (by decide) (by decide) (by decide) (by decide)
  let x : Entry := { copy0 4 5 1 .claimed with staleT := .running 5000 }
  have _ := (h.2.1 (with1 sB x) 4 x rfl rfl (by decide) rfl rfl (by decide)).1 e5 (by decide) rfl rfl
  have _ := (h.2.1 (with1 sB x) 4 x rfl rfl (by decide) rfl rfl (by decide)).2.1 e1 (by decide) (by decide)
  have _ := (h.2.1 (with1 sB (copy0 4 5 2 .opened)) 4 (copy0 4 5 2 .opened) rfl rfl (by decide) rfl rfl (by decide)).2.1 e5
    (by decide) (by decide)
  have _ := (h.2.1 (with1 sB x) 4 x rfl rfl (by decide) rfl rfl (by decide)).2.2 (by decide) rfl rfl
  let gone : OwnerRec := { ownR 4 2 .opened with cancelled := true }
  let g : Entry := { copy0 4 3 1 .claimed with own := some gone }
  let hb : HeaderBody := { hdr := hdr0 4 3 2 .opened, dump := false, resumed := false, newVoid := none, entryCount := 0 }
  let hf : TxFrame := jobFrame 0 (.header hb) (.versioned 4 2)
  let s := with1 sB g
  have _ := h.2.2 { s with line := { s.line with sending := true, txq := [hf] } } hf [] 4 2 hb g gone _ (by decide) rfl rfl rfl
    rfl (by decide) rfl rfl rfl (by decide) rfl rfl (by decide) rfl rfl rfl rfl rfl rfl rfl (by decide) (by decide) rfl
  trivial

/-! ## NOTED and the station table -/

theorem test_meets_NotedTaken (h : Obligations.NotedTaken) : True := by
  have _ := (h sB e5 { kind := .leaseDone, number := 7, result := .ok }).1 (by decide) (by decide) (by decide)
  have _ := (h (with1 sB (copy0 4 5 2 .opened)) e5 { kind := .recordAsk, number := 4, result := .notHeld }).2.1
    (copy0 4 5 2 .opened) (by decide) (by decide) rfl rfl rfl rfl (by decide)
  let x : Exchange :=
    { id := 0, key := .fillVoid 4 9, msg := .fillVoid { inv := 4, token := 9, net := 100 }, dst := 1, peer := 1,
      resends := 0, timer := .running 80, patient := false }
  let s : State := head0 .voiding .none now0
  have _ := (h { s with line := { s.line with exchanges := [x] } } e1 { kind := .fillVoid, number := 9, result := .ok }).2.2
    x now0 4 (by decide) (by decide) (by decide) rfl rfl rfl rfl rfl (by decide) rfl rfl rfl rfl rfl rfl rfl
  trivial

def join0 : JoinBody :=
  { roles := only false true false false, start := .warm, blender := some 3, lane1 := none, lane2 := none }
def pres0 (q : PresState) : PresenceBody := { roles := only false true false false, state := q, mark := 9 }

/-- A JOIN whose start kind and first lane are not valid. -/
def joinPart : JoinRead := { join0.read with start := none, lane1 := none }

/-- A blender alone for which head 5 is not in the chute table. -/
def sN : State := { sB with cfg := { sB.cfg with chute := [] } }

theorem test_meets_JoinHeard (h : Obligations.JoinHeard) : True := by
  have _ := (h.2 sN e5 join0 (by decide) (by decide) (by decide) (by decide) (by decide)).1
  have _ := (h.2 sN { dst := 0, src := 24 } join0 (by decide) (by decide) (by decide) (by decide) (by decide)).2 rfl rfl
    (by decide) rfl rfl rfl (by decide) rfl
  have _ := (h.1 sN e5 joinPart (by decide) (by decide) (by decide) (by decide) (by decide)).1
  have _ := (h.1 sN { dst := 0, src := 24 } joinPart (by decide) (by decide) (by decide) (by decide) (by decide)).2 rfl rfl
    rfl (by decide) rfl rfl
  trivial

theorem test_meets_PresenceHeard (h : Obligations.PresenceHeard) : True := by
  have _ := h.1 sB e5 (only true false false false) 9 (by decide) (by decide) (by decide) (by decide) (by decide)
  have _ := (h.2.1 sB { dst := 0, src := 3 } (pres0 .active).read rfl).1 (by decide)
  have _ := (h.2.1 sB { dst := 0, src := 3 } (pres0 .active).read rfl).2.1 (by decide) rfl (by decide) rfl rfl (by decide)
  let d : State := { sB with start := { sB.start with state := .offlineDup true } }
  have _ := (h.2.1 d { dst := 0, src := 3 } (pres0 .active).read rfl).2.2 (by decide) rfl rfl
  have _ := (h.2.2 sB e5 (pres0 .active) (by decide) (by decide) (by decide) (by decide) (by decide)).1 rfl
  have _ := (h.2.2 sB { dst := 0, src := 1 } (pres0 .joining) (by decide) (by decide) (by decide) (by decide)
    (by decide)).2.1 rfl (by decide)
  have _ := (h.2.2 sB { dst := 0, src := 24 } (pres0 .active) (by decide) (by decide) (by decide) (by decide)
    (by decide)).2.2 rfl (by decide) (by decide)
  trivial

theorem test_meets_StationTimers (h : Obligations.StationTimers) : True := by
  let p : Peer := { peer0 with state := .joining, watch := .running 1600 }
  let s : State := { sN with line := sN.line.setPeer 24 p }
  have _ := (h.2.2.2.2.2 s 24 (by decide) (by decide)).1 rfl
  have _ := (h.2.2.2.2.2 s 24 (by decide) (by decide)).2.1 rfl rfl
  have _ := ((h.2.2.2.2.2 s 24 (by decide) (by decide)).2.2 rfl rfl (by decide) rfl rfl rfl).1 rfl
  have _ := ((h.2.2.2.2.2 s 24 (by decide) (by decide)).2.2 rfl rfl (by decide) rfl rfl rfl).2 rfl rfl
  have _ := ((h.2.2.2.2.2 sN 1 (by decide) (by decide)).2.2 rfl rfl (by decide) rfl rfl rfl).1 rfl
  let paper (l : List Entry) (a : Bool) (lower : Bool) : State :=
    { sP with inv := { sP.inv with table := l }, paper := { Paper.cold with acting := a }
              line := sP.line.setPeer 2 { peer0 with roles := some (only false false false lower) } }
  have alone (l : List Entry) (a lower : Bool) (n : Nat)
      (g : Ready (paper l a lower) ∧ n ≠ 3 ∧ ((paper l a lower).line.peer n).silence.on = true ∧
        ((paper l a lower).line.peer n).state = .present ∧
        l.all (fun x => x.own.isNone && x.data.hdr.owner != n) = true) :=
    h.2.2.2.1 (paper l a lower) _ n g.1 rfl rfl g.2.1 rfl rfl g.2.2.1 g.2.2.2.1 g.2.2.2.2 rfl
  let u : Entry := { copy0 4 1 9 .closed with copy := .stale, askT := .running 500 }
  have _ := (alone [] true false 2 (by decide)).1 (by decide)
  have _ := (alone [] false true 1 (by decide)).1 (by decide)
  have _ := (alone [] true true 1 (by decide)).2.1 (by decide) rfl
  have _ := ((alone [copy0 7 1 9 .closed, copy0 4 1 9 .closed] false true 2 (by decide)).2.2 (by decide) rfl).1
    (copy0 4 1 9 .closed) (copy0 7 1 9 .closed) (by decide) rfl rfl
  have _ := ((alone [u] false true 2 (by decide)).2.2 (by decide) rfl).2 u (by decide) (by decide) rfl rfl
  have gone (s : State) (n : Nat)
      (g : Ready s ∧ s.cfg.roles = only true false false false ∧ n ≠ s.self ∧ s.inv.phase = .idle ∧
        s.line.exchanges = [] ∧ (s.line.peer n).silence.on = true ∧ (s.line.peer n).state = .present) :=
    h.2.2.2.2.1 s _ n g.1 g.2.1 g.2.2.1 g.2.2.2.1 g.2.2.2.2.1 g.2.2.2.2.2.1 g.2.2.2.2.2.2 rfl
  let c (q : InvState) (y : CopyState) (a : Timer) : Entry := { copy0 4 5 1 q with copy := y, adoptT := a }
  have _ := ((gone (with1 sB (c .claimed .complete .stopped)) 5 (by decide)).1 _ (by decide) rfl rfl rfl).1 rfl (by decide)
  have _ := ((gone (with1 sB (c .opened .complete .stopped)) 5 (by decide)).1 _ (by decide) rfl rfl rfl).2 rfl
  have _ := ((gone (with1 sB (c .closed .stale .stopped)) 5 (by decide)).1 _ (by decide) rfl rfl rfl).2 rfl
  have _ := ((gone (with1 sB (c .ending .complete (.running 100))) 5 (by decide)).1 _ (by decide) rfl rfl rfl).2 rfl
  let o (k : Nat) : OwnerRec := { ownR 4 2 .opened with
    fills := [{ head := 5, token := 9, leases := 1, lost := false }],
    view := { (ownR 4 2 .opened).view with hdr := { hdr0 4 3 2 .opened with lostFills := k } } }
  have _ := (gone (with1 sB { own0 4 2 .opened with own := some (o 0) }) 5 (by decide)).2.1 _ (o 0) _ _ (by decide)
    (by decide) rfl rfl rfl rfl rfl rfl rfl rfl (by decide) rfl
  have _ := (gone (with1 sB { own0 4 2 .opened with own := some (o 255) }) 5 (by decide)).2.1 _ (o 255) _ _ (by decide)
    (by decide) rfl rfl rfl rfl rfl rfl rfl rfl (by decide) rfl
  let chute (l m : Option Lease) (q : List Ask) : State := { sB with
    arb := { Arb.cold with openFlag := true, batch := some 4, gate := l.isSome, current := l, next := m, queue := q } }
  have _ := ((gone (chute (some lease5) none []) 5 (by decide)).2.2.1 rfl (by decide) rfl rfl).1 lease5 rfl rfl rfl
  have _ := ((gone (chute (some lease6) (some lease5) []) 5 (by decide)).2.2.1 rfl (by decide) rfl rfl).2 lease6 lease5
    rfl (by decide) rfl rfl
  have _ := (gone (chute (some lease6) none [{ head := 5, purpose := .fill, token := 9 }]) 5 (by decide)).2.2.2 _ rfl
    (by decide) rfl rfl rfl rfl rfl
  trivial

/-! ## The line unit -/

/-- A blender with an order whose third bin is drawn. -/
def comp0 : Comp := { bin := 3, target := 50000, drawn := 0, state := .drawing, start := some 100, peak := 50000, settle := false }
def order0 (cl : OrderClaim) (d : Draw) : Order :=
  { number := 7, grade := 0, garden := txt "MORVALE", mix := 10, comps := [comp0], cur := some 0, charged := none, turns := 0,
    claim := cl, batch := some 4, draw := d }

/-- A blender with an order, in a state. -/
def drum (q : BlendState) (o : Order) : State :=
  { sB with blend := { Blend.cold with state := q, order := some o, starve := .running 6000, stall := .running 10000 } }

def presFrame : TxFrame := jobFrame 0 sB.presenceMsg .presence
def doneFrame : TxFrame := jobFrame 1 (.leaseDone 7) (.exch 0)

/-- A station that sends, with its queue. -/
def sending (l : List TxFrame) (a : Nat) : State :=
  { sB with line := { sB.line with sending := true, txq := l, attempts := a } }

theorem test_meets_LineIdleAndBackoff (h : Obligations.LineIdleAndBackoff) : True := by
  have _ := (h.1 sB (by decide)).1 rfl (by decide)
  have _ := (h.1 { sB with line := { sB.line with txq := [presFrame] } } (by decide)).2.1 rfl (by decide) rfl
  have _ := (h.1 (sending [presFrame] 1) (by decide)).2.2.1 rfl
  let s (k : Nat) : State := { sB with line := { sB.line with gap := true, backoff := some (k + 1), txq := [presFrame] } }
  have _ := (h.2.1 (s 62) 62 (by decide) rfl rfl rfl).1 (by decide)
  have _ := (h.2.1 (s 1) 1 (by decide) rfl rfl rfl).1 (by decide)
  have _ := (h.2.1 (s 0) 0 (by decide) rfl rfl rfl).2 rfl (by decide)
  have _ := (h.2.2 sB (by decide)).1 rfl
  have _ := (h.2.2 (sending [presFrame] 1) (by decide)).2 presFrame [] rfl rfl
  trivial

theorem test_meets_CollisionBacksOff (h : Obligations.CollisionBacksOff) : True := by
  have _ := (h (sending [{ presFrame with cancel := true }] 1) _ [] (by decide) rfl rfl).1 rfl
  have _ := (h (sending [presFrame] 24) presFrame [] (by decide) rfl rfl).2.1 rfl (by decide) (by decide)
  have _ := (h (sending [presFrame] 23) presFrame [] (by decide) rfl rfl).2.2 rfl (by decide)
  have _ := (h (sending [presFrame] 1) presFrame [] (by decide) rfl rfl).2.2 rfl (by decide)
  trivial

theorem test_meets_FrameCompletes (h : Obligations.FrameCompletes) : True := by
  let out (s : State) (f : TxFrame) : State := { s with line := { s.line with sending := true, txq := [f], attempts := 1 } }
  let claim : TxFrame := jobFrame 0 (.claim (claim0 4)) (.claim 4)
  let c (second : Bool) (l : List Nat) (p : Option Roles) : State :=
    let s := claiming false []
    out { s with inv := { s.inv with phase := .queued 4 second l, claimWindow := .stopped }
                 line := { s.line with table := Vector.replicate 24 { peer0 with roles := p } } } claim
  have _ := (h.1 (c false [] (some (only true false false false))) claim [] 4 (claim0 4) [] (by decide) rfl rfl).1 rfl
    (by decide)
  have _ := (h.1 (c true [5] none) claim [] 4 (claim0 4) [5] (by decide) rfl rfl).2.1 rfl (by decide)
  have _ := (h.1 (c false [] none) claim [] 4 (claim0 4) [] (by decide) rfl rfl).2.2 (ownR 4 1 .claimed) rfl (by decide) rfl
    rfl (by decide) (by decide)
  let hd (q : InvState) : HeaderBody :=
    { hdr := hdr0 4 3 2 q, dump := false, resumed := false, newVoid := none, entryCount := 0 }
  let hf (q : InvState) : TxFrame := jobFrame 0 (.header (hd q)) (.versioned 4 2)
  have own (s : State) (q : InvState) (x : Entry) (o : OwnerRec) := h.2.1 (out s (hf q)) (hf q) [] 4 2 (hd q) x o
  have _ := (own (with1 sB (own0 4 1 .opened)) .ending (own0 4 1 .opened) (ownR 4 1 .opened) (by decide) rfl rfl rfl rfl
    (by decide) rfl rfl rfl (by decide)).1 (.inl rfl)
  let m : State := drum .mixing (order0 .asked .settling)
  have _ := (own { with1 m (own0 4 1 .claimed) with inv := { (with1 m (own0 4 1 .claimed)).inv with phase := .firm 4 } }
    .opened (own0 4 1 .claimed) (ownR 4 1 .claimed) (by decide) rfl rfl rfl rfl (by decide) rfl rfl rfl (by decide)).2.1
    (order0 .asked .settling) rfl rfl rfl rfl rfl rfl
  have _ := (own (with1 sB (own0 4 1 .marking)) .closed (own0 4 1 .marking) (ownR 4 1 .marking) (by decide) rfl rfl rfl rfl
    (by decide) rfl rfl rfl (by decide)).2.2.1 rfl (by decide) rfl
  have _ := (own (with1 sB (own0 4 1 .closed)) .retired (own0 4 1 .closed) (ownR 4 1 .closed) (by decide) rfl rfl rfl rfl
    (by decide) rfl rfl rfl (by decide)).2.2.2 rfl (by decide) (by decide)
  let ef : TxFrame := jobFrame 0 (.chestEntered entered0) (.versioned 4 2)
  have _ := h.2.2.1 (out (with1 sB (own0 4 1 .opened)) ef) ef [] 4 2 entered0 (own0 4 1 .opened) (ownR 4 1 .opened) (by decide)
    rfl rfl rfl rfl rfl (by decide) rfl rfl rfl (by decide) rfl
  let ab : AdoptBody := { inv := 4, oldOwner := 1, version := 3, forced := false }
  let af : TxFrame := jobFrame 0 (.adopt ab) (.adopt 4)
  let ar (q : InvState) : Rec :=
    { (copy0 4 1 2 q).data with hdr := { (copy0 4 1 2 q).data.hdr with version := 3, owner := 3, adoption := .plain } }
  have _ := (h.2.2.2.1 (out (with1 sB (copy0 4 1 2 .ending)) af) af [] 4 ab (copy0 4 1 2 .ending) (ar .ending) (by decide) rfl
    rfl rfl rfl rfl (by decide) rfl rfl (by decide) (by decide) rfl).1 rfl
  have _ := (h.2.2.2.1 (out (with1 sB (copy0 4 1 2 .opened)) af) af [] 4 ab (copy0 4 1 2 .opened) (ar .opened) (by decide) rfl
    rfl rfl rfl rfl (by decide) rfl rfl (by decide) (by decide) rfl).2 rfl (by decide) (by decide)
  let jf : TxFrame := jobFrame 0 (.join join0) .join
  let sj : State := { sB with start := { sB.start with state := .joining, retryT := .running 500 } }
  have _ := h.2.2.2.2.1 (out sj jf) jf [] join0 (by decide) rfl rfl rfl rfl (by decide) (by decide)
  have _ := (h.2.2.2.2.2 (sending [presFrame] 1) presFrame [] (by decide) rfl rfl).1 _ rfl rfl rfl (by decide)
  have _ := (h.2.2.2.2.2 (sending [doneFrame] 1) doneFrame [] (by decide) rfl rfl).2 0 rfl (by decide) (by decide)
  trivial

theorem test_meets_ConfirmAndPresenceTimers (h : Obligations.ConfirmAndPresenceTimers) : True := by
  let k : ExKey := .leaseCancel 9
  have _ := (h.1 (withEx sH (ex0 k 2 false)) k (ex0 k 2 false) (by decide) rfl).1 (by decide) (by decide)
  have _ := (h.1 (withEx sH (ex0 k 3 true)) k (ex0 k 3 true) (by decide) rfl).2.1 (by decide) rfl
  have _ := (h.1 (withEx sH (ex0 k 3 false)) k (ex0 k 3 false) (by decide) rfl).2.2 9 (by decide) rfl rfl
  have fails (s : State) (k : ExKey) (g : Ready (withEx s (ex0 k 3 false))) :=
    h.2.1 (withEx s (ex0 k 3 false)) _ k (ex0 k 3 false) g (by simp [withEx, ex0, Timer.on]) (Nat.le_refl 3) rfl rfl
  let chute (l m : Option Lease) : State := { sB with
    arb := { Arb.cold with openFlag := true, batch := some 4, gate := l.isSome, current := l, next := m } }
  have _ := ((fails (chute none none) (.leaseGrant 7) (by decide)).1 7 rfl rfl).1 rfl rfl
  have _ := ((fails (chute (some lease5) none) (.leaseGrant 7) (by decide)).1 7 rfl rfl).2.1 lease5 (by decide) rfl rfl rfl rfl
  have _ := ((fails (chute (some lease6) (some lease5)) (.leaseGrant 7) (by decide)).1 7 rfl rfl).2.2 lease6 lease5
    (by decide) rfl rfl (by decide) rfl rfl
  let e (a : MarkAnswer) : LaneEntry := { item0 1 .printed with answer := a }
  let marks (a b : LaneEntry) : State :=
    { marker0 (lane0 [a]) .idle with mark := { (marker0 (lane0 [a]) .idle).mark with lane2 := lane0 [b] } }
  have _ := ((fails (marker0 (lane0 [e .none]) .idle) (.markDone 4 1) (by decide)).2.1 4 1 1 (e .none) rfl rfl rfl rfl
    (by decide) rfl rfl).1 (by decide)
  have _ := ((fails (marks (item0 1 .queued) (e .full)) (.markDone 4 1) (by decide)).2.1 4 1 2 (e .full) rfl rfl rfl rfl
    (by decide) rfl rfl).1 (by decide)
  have _ := ((fails (marks (e .notHeld) (e .full)) (.markDone 4 1) (by decide)).2.1 4 1 1 (e .notHeld) rfl rfl rfl rfl
    (by decide) rfl rfl).2 (e .full) rfl (by decide) rfl rfl
  let p : State := { sP with paper := { Paper.cold with taking := [{ inv := 4, waits := .nothing }] } }
  have _ := (fails p (.sheetTaken 4) (by decide)).2.2 4 rfl rfl
  let s : State := { sB with line := { sB.line with presence := .running 200 } }
  have _ := (h.2.2 { s with line := { s.line with txq := [presFrame] } } (by decide) rfl).1 (by decide)
  have _ := (h.2.2 s (by decide) rfl).2 (by decide) (by decide)
  trivial

/-! ## Timers of the invoice unit -/

theorem test_meets_ClaimTimers (h : Obligations.ClaimTimers) : True := by
  have _ := (h (claiming false [5]) (by decide) (by decide)).1 4 [5] (own0 4 1 .claimed) rfl rfl rfl
  have _ := (h (claiming true [5]) (by decide) (by decide)).2.1 4 [5] rfl rfl (by decide) (by decide) rfl rfl
  let s : State := { sB with inv := { sB.inv with phase := .retry, claimRetry := .running 2000, req := some req0, mark := 99 } }
  have _ := (h s (by decide) (by decide)).2.2 req0 rfl rfl rfl rfl (by decide) (by decide)
  trivial

theorem test_meets_CopyTimers (h : Obligations.CopyTimers) : True := by
  let x1 : Entry := { copy0 4 1 2 .opened with copy := .stale, askT := .running 500 }
  have _ := (h (with1 sB x1) 4 x1 (by decide) (by decide) (by decide) rfl rfl).1 rfl rfl (by decide)
  let x2 : Entry := { copy0 4 1 2 .opened with askT := .running 500 }
  have _ := (h (with1 sB x2) 4 x2 (by decide) (by decide) (by decide) rfl rfl).2.1 rfl rfl
  let x3 : Entry := { copy0 4 1 2 .opened with copy := .rebuilding, rebuildT := .running 500 }
  have _ := (h (with1 sB x3) 4 x3 (by decide) (by decide) (by decide) rfl rfl).2.2.1 rfl rfl rfl rfl rfl rfl
  let x4 : Entry := { copy0 4 1 2 .closed with closedT := .running 10000 }
  have _ := (h (with1 sB x4) 4 x4 (by decide) (by decide) (by decide) rfl rfl).2.2.2 rfl rfl rfl (by decide)
  trivial

/-- A station at the end of its join period. -/
def joining0 (s : State) : State := { s with start := { s.start with state := .joining, joinT := .running 2000 } }

/-- The records of an owner of invoice 4 with frames of other stations at its version. -/
def rival (l : List Nat) : OwnerRec := { ownR 4 1 .opened with conflicts := l }

theorem test_meets_OwnerTimers (h : Obligations.OwnerTimers) : True := by
  let x : Entry := { copy0 4 1 2 .opened with orphan := true, adoptT := .running 300 }
  let s : State := with1 sB x
  have _ := (h.1 { s with line := s.line.setPeer 1 { peer0 with state := .absent } } 4 (by decide) (by decide) (by decide)).1 x
    rfl rfl rfl (by decide) rfl (by decide) (by decide)
  let q : OwnerRec := { ownR 4 2 .marking with settle := .running 5000 }
  have _ := (h.1 (with1 sB { own0 4 2 .marking with own := some q }) 4 (by decide) (by decide) (by decide)).2.1 q rfl rfl
    (by decide) rfl (by decide)
  let o : OwnerRec := { ownR 4 2 .ending with
    settle := .running 5000, view := { (ownR 4 2 .ending).view with chests := [chest0 1] } }
  have _ := (h.1 (with1 sB { own0 4 2 .ending with own := some o }) 4 (by decide) (by decide) (by decide)).2.2.1 o rfl rfl
    (by decide) rfl rfl rfl (by decide) rfl (by decide)
  let f : TxFrame := jobFrame 0 (.sheetTaken 4) (.versioned 4 2)
  let p : OwnerRec := { ownR 4 2 .opened with resend := [f], resendDelay := .running 1000 }
  have _ := (h.1 (with1 sB { own0 4 2 .opened with own := some p }) 4 (by decide) (by decide) (by decide)).2.2.2 p f rfl rfl
    rfl rfl
  let settled (l : List Nat) := h.2.1 { sB.inv with table := [{ own0 4 1 .opened with own := some (rival l) }] } sB 4
    { own0 4 1 .opened with own := some (rival l) } (rival l) rfl rfl rfl
  have _ := ((settled [5, 2, 1]).1 1 (by decide) (by decide)).1 (by decide) rfl rfl
  have _ := ((settled [2, 5]).1 2 (by decide) (by decide)).1 (by decide) rfl rfl
  have _ := ((settled [5, 4]).1 4 (by decide) (by decide)).2 (by decide) (by decide) rfl
  have _ := (settled []).2 rfl (by decide) rfl
  let j (o : OwnerRec) := h.2.2 (joining0 (with1 sB { own0 4 1 .opened with own := some o })) 4
    { own0 4 1 .opened with own := some o } o { o.view.hdr with owner := 3 }
  have _ := ((j (rival [5, 2, 1]) (by decide) rfl rfl rfl rfl rfl rfl rfl rfl rfl (by decide)).1 1 (by decide)
    (by decide)).1 (by decide) rfl rfl (by decide)
  have _ := ((j (rival [5, 4]) (by decide) rfl rfl rfl rfl rfl rfl rfl rfl rfl (by decide)).1 4 (by decide)
    (by decide)).2 (by decide) rfl rfl
  have _ := (j (rival []) (by decide) rfl rfl rfl rfl rfl rfl rfl rfl rfl (by decide)).2.1 rfl rfl rfl
  let e (t : Timer) (l : List Fill) (q : InvState) (c : Stencil) : OwnerRec := { ownR 4 1 q with
    settle := t, fills := l, view := { (ownR 4 1 q).view with chests := [{ chest0 1 with stencil := c }] } }
  let f : Fill := { head := 5, token := 9, leases := 1, lost := false }
  have _ := (j (e .stopped [] .ending .pending) (by decide) rfl rfl rfl rfl rfl rfl rfl rfl rfl (by decide)).2.2.1 rfl rfl rfl
    rfl rfl
  have _ := (j (e (.running 5000) [] .ending .pending) (by decide) rfl rfl rfl rfl rfl rfl rfl rfl rfl (by decide)).2.2.1 rfl
    rfl rfl rfl rfl
  have _ := (j (e (.running 5000) [f] .ending .pending) (by decide) rfl rfl rfl rfl rfl rfl rfl rfl rfl
    (by decide)).2.2.2.1 f _ rfl rfl rfl rfl rfl rfl rfl rfl
  have _ := (j (e .stopped [] .marking .printed) (by decide) rfl rfl rfl rfl rfl rfl rfl rfl rfl (by decide)).2.2.2.2 rfl rfl
    rfl (by decide)
  trivial

/-! ## Weighing -/

def fe0 (l : List Int) : FrontEnd := { FrontEnd.cold with window := l, loss := .running 100 }

theorem test_meets_CalibrationConverts (h : Obligations.CalibrationConverts) : True := by
  have _ := (h 100 100 32768).1 (by decide)
  have _ := (h 100 99 32768).2.1 (by decide)
  trivial

theorem test_meets_StabilityDecides (h : Obligations.StabilityDecides) : True := by
  have _ := (h { fe0 [] with ref := some 100, count := 11 } 5 105).1 100 rfl (by decide) (by decide)
  have _ := (h { fe0 [] with ref := some 100, count := 12 } 5 95).2.1 100 rfl (by decide) rfl
  have _ := (h { fe0 [] with ref := some 100, count := 12 } 5 106).2.2.1 (.inr ⟨100, rfl, by decide⟩)
  have _ := (h (fe0 []) 5 106).2.2.1 (.inl rfl)
  trivial

theorem test_meets_SampleJoinsWindow (h : Obligations.SampleJoinsWindow) : True := by
  have _ := (h.2.1 (fe0 [1]) (cfg0 sH.cfg.roles) 8000001).1 (by decide) rfl
  have _ := (h.2.1 { fe0 [1] with overload := true } (cfg0 sH.cfg.roles) (-8000001)).2.1 (by decide) rfl
  have _ := (h.2.1 (fe0 [1, 2]) (cfg0 sH.cfg.roles) 8000000).2.2 (by decide) (by decide) (by decide)
  have h := And.intro h.1 h.2.2
  have _ := (h.2 (fe0 [1]) (cfg0 sB.cfg.roles) 8000001).1 (by decide) rfl
  have _ := (h.2 { fe0 [1] with overload := true } (cfg0 sB.cfg.roles) (-8000001)).2.1 (by decide) rfl
  have _ := (h.2 (fe0 [1, 2]) (cfg0 sB.cfg.roles) 8000000).2.2.1 (by decide) (by decide) (by decide)
  have _ := (h.2 (fe0 [1, 2, 3]) (cfg0 sB.cfg.roles) (-8000000)).2.2.2 1 2 3 (by decide) (by decide) (.inl rfl)
  have _ := (h.2 (fe0 [0, 1, 2, 3]) (cfg0 sB.cfg.roles) 5).2.2.2 1 2 3 (by decide) (by decide) (.inr ⟨0, rfl⟩)
  let f (c : Int) (tr : Bool) : FrontEnd := { fe0 [c, c, c] with ref := some 0, count := 11, tracking := tr }
  have _ := (h.1 (f 100 true) _ { cfg0 sB.cfg.roles with band := 50 } 100 100 100 100 (by decide) (by decide) (.inl rfl) rfl).1 (by decide)
  have _ := (h.1 (f (-100) true) _ { cfg0 sB.cfg.roles with band := 50 } (-100) (-100) (-100) (-100) (by decide) (by decide)
    (.inl rfl) rfl).1 (by decide)
  have _ := (h.1 (f 102 true) _ { cfg0 sB.cfg.roles with band := 51 } 102 102 102 102 (by decide) (by decide) (.inl rfl)
    rfl).2 (by decide)
  have _ := (h.1 (f 10 false) _ (cfg0 sB.cfg.roles) 10 10 10 10 (by decide) (by decide) (.inl rfl) rfl).2 (by decide)
  trivial

/-- The word of a count, its check byte last (R51, R188). -/
def word0 (c : Nat) : BitVec 32 :=
  BitVec.ofNat 32 (c * 256 + (165 ^^^ (c / 65536) ^^^ (c / 256 % 256) ^^^ (c % 256)))

theorem test_meets_ReadingsHandedOn (h : Obligations.ReadingsHandedOn) : True := by
  have _ := (h sB 0#32 31 0 (by decide) rfl rfl rfl).1 (by decide)
  have _ := (h sB (word0 5) 32 0 (by decide) rfl rfl rfl).2.1 5 (by decide)
  have _ := (h { sB with fe := fe0 [1] } 0#32 32 0 (by decide) rfl rfl rfl).2.2 rfl
  trivial

/-! ## The drum -/

theorem test_meets_DrumTimersAndTurns (h : Obligations.DrumTimersAndTurns) : True := by
  let o := order0 .none .pouring
  have _ := (h (drum .charging o) o (by decide) rfl rfl).1 0 comp0 rfl rfl rfl rfl rfl
  have _ := (h (drum .mixing o) o (by decide) rfl rfl).2.1 rfl rfl
  let o8 : Order := { o with turns := 8 }
  have _ := (h (drum .mixing o8) o8 (by decide) rfl rfl).2.2.1 rfl rfl (by decide)
  let o9 : Order := { o with turns := 9 }
  have _ := (h (drum .mixing o9) o9 (by decide) rfl rfl).2.2.2.1 rfl rfl (by decide) (by decide)
  let of : Order := { o9 with claim := .firm }
  let j : State := { drum .mixing of with start := { sB.start with state := .joining } }
  have _ := (h j of (by decide) rfl rfl).2.2.2.2.1 rfl rfl rfl (by decide) rfl
  have _ := (h (drum .mixing of) of (by decide) rfl rfl).2.2.2.2.2 4 rfl rfl rfl (by decide) rfl rfl rfl
  trivial

/-! ## The head -/

def headWith (q : HeadState) (c : ChestNow) (x : HeadFault) : State :=
  { sH with head := { (head0 q .none c).head with cause := some x } }

/-- The front end after a count, and whether the zero moved. -/
def after (s : State) (head : Bool) (c : Int) : FrontEnd × Bool := s.fe.accept s.cfg head c

theorem after_pair (s : State) (head : Bool) (c : Int) :
    s.fe.accept s.cfg head c = ((after s head c).1, (after s head c).2) := rfl

theorem test_meets_HeadInputsAndTimers (h : Obligations.HeadInputsAndTimers) : True := by
  have _ := (h State.reset).2.1 true (by decide)
  let s : State := { sH with head := { Head.cold with state := .empty, last := some (read0 501) } }
  have _ := (h s).2.2.1 501 (by decide) rfl rfl rfl (by decide) (by decide)
  let g : State := { sH with head := { Head.cold with hold := true, lapse := .running 600 } }
  have _ := (h g).2.2.2.1 (by decide) rfl rfl (by decide)
  let t : State := { head0 .settling .none now0 with
    head := { (head0 .settling .none now0).head with settle := .running 4000 } }
  have _ := (h t).2.2.2.2.2.2.2 now0 (by decide) rfl rfl rfl rfl rfl
  have _ := (h { t with head := { t.head with flight := .running 0 } }).2.2.2.2.2.2.2 now0 (by decide) rfl rfl rfl rfl rfl
  let l : State := { head0 .waiting .none now0 with
    head := { (head0 .waiting .none now0).head with hold := true, lapse := .running 600 } }
  have _ := (h l).2.2.2.2.1 now0 (by decide) rfl rfl rfl rfl rfl rfl (by decide)
  let z : State := { sH with
    head := { Head.cold with state := .empty }
    fe := { fe0 [90, 90, 90] with ref := some 45, count := 11, tracking := true } }
  have _ := (h z).2.2.2.2.2.1 (word0 90) 32 0 90 (after z true 90).1 (by decide) rfl rfl (by decide)
    (Prod.ext rfl (by decide))
  let p (hold : Bool) (c : Int) (last : Nat) : State := { sH with
    presence := true
    head := { Head.cold with state := .taring, hold := hold, lastToken := last }
    fe := { fe0 [c, c, c] with ref := some (c.tdiv 2), count := 11 } }
  have tare (s : State) (c w : Int) (t : Nat) := (h s).2.2.2.2.2.2.1 (word0 c.toNat) 32 0 t c w
    (after s true c).1 (after s true c).2
  have _ := (tare (p false 2000 9) 2000 1000 10 (by decide) rfl rfl rfl (by decide) (after_pair _ _ _) (by decide) (by decide) (by decide)
    (by decide) (by decide)).1 (by decide) rfl (by decide)
  have _ := (tare (p true 2200 255) 2200 1100 0 (by decide) rfl rfl rfl (by decide) (after_pair _ _ _) (by decide) (by decide) (by decide)
    (by decide) (by decide)).2.1 (by decide) rfl
  have _ := (tare (p false 2202 255) 2202 1101 0 (by decide) rfl rfl rfl (by decide) (after_pair _ _ _) (by decide) (by decide)
    (by decide) (by decide) (by decide)).2.2 (by decide) rfl rfl
  trivial

theorem test_meets_HeadStartStopZero (h : Obligations.HeadStartStopZero) : True := by
  have _ := (h sH (by decide)).1 rfl rfl
  have _ := (h (head0 .waiting .none now0) (by decide)).2.1 (by decide)
  have _ := (h sH (by decide)).2.2.1 (.inr rfl)
  have _ := (h (head0 .waiting .none now0) (by decide)).2.2.2.1 (by decide) (by decide)
  have _ := (h { sH with presence := true } (by decide)).2.2.2.2.1 (.inl rfl)
  have _ := (h (head0 .waiting .none now0) (by decide)).2.2.2.2.1
    (.inr (.inr (.inr (.inr (.inr ⟨by decide, by decide, by decide⟩)))))
  let s (w : Int) : State := { sH with fe := { fe0 [] with avg := some 4100, weight := some w, stable := true } }
  have _ := ((h (s 2001) (by decide)).2.2.2.2.2 4100 2001 (by decide) rfl (.inl rfl) rfl rfl rfl rfl rfl).1 (by decide)
  have _ := ((h (s 2000) (by decide)).2.2.2.2.2 4100 2000 (by decide) rfl (.inl rfl) rfl rfl rfl rfl rfl).2 (by decide) (by decide)
  have _ := ((h (s (-2000)) (by decide)).2.2.2.2.2 4100 (-2000) (by decide) rfl (.inl rfl) rfl rfl rfl rfl rfl).2 (by decide)
    (by decide)
  let u (q : HeadState) (x : Option HeadFault) (c : Option ChestNow) : State :=
    { s 2000 with head := { Head.cold with state := q, cause := x, chest := c } }
  have _ := ((h (u .empty none none) (by decide)).2.2.2.2.2 4100 2000 (by decide) rfl (.inr (.inl rfl)) rfl rfl rfl rfl
    rfl).2 (by decide) (by decide)
  have _ := ((h (u .held (some .unstable) none) (by decide)).2.2.2.2.2 4100 2000 (by decide) rfl (.inr (.inr ⟨rfl, .inl rfl⟩))
    rfl rfl rfl rfl rfl).2 (by decide) (by decide)
  have _ := ((h (u .held (some .chestLost) (some now0)) (by decide)).2.2.2.2.2 4100 2000 (by decide) rfl
    (.inr (.inr ⟨rfl, .inr (.inl rfl)⟩)) rfl rfl rfl rfl rfl).2 (by decide) (by decide)
  trivial

theorem test_meets_HeadClears (h : Obligations.HeadClears) : True := by
  have _ := (h sH (by decide)).1 (by decide)
  have _ := (h (headWith .held now0 .overLimit) (by decide)).2.1 now0 rfl (.inl rfl) rfl
  have _ := (h (headWith .held now0 .unstable) (by decide)).2.2.1 now0 4 (by decide) rfl (.inr rfl) rfl rfl (by decide)
  let failed (hold : Bool) (c : ChestNow) (f : SendFrame) : State :=
    let s := headWith .held c .send
    { s with head := { s.head with sendFrame := some f, hold := hold } }
  let c : ChestNow := { now0 with inv := none }
  have _ := ((h (failed false c .askFill) (by decide)).2.2.2.1 c rfl rfl rfl rfl rfl).1
  have _ := ((h (failed false c .askFill) (by decide)).2.2.2.1 c rfl rfl rfl rfl rfl).2.1 rfl rfl (by decide)
  have _ := ((h (failed true c .askFill) (by decide)).2.2.2.1 c rfl rfl rfl rfl rfl).2.2 rfl
  have _ := ((h (failed false now0 .chestDone) (by decide)).2.2.2.2.1 now0 4 rfl rfl rfl rfl rfl).2 rfl (by decide)
  have _ := (h sH (by decide)).2.2.2.2.2.1 (by decide) (by decide)
  have _ := (h (headWith .held now0 .scaleLost) (by decide)).2.2.2.2.2.2 now0 4 rfl (.inl rfl) rfl rfl (by decide)
  trivial

/-! ## The marker -/

/-- The same with a composition running. -/
def composing0 (l : Lane) : State :=
  { marker0 l .stroking with mark := { (marker0 l .stroking).mark with plateA := { Plate.cold with cond := .composing } } }

theorem test_meets_LaneInputs (h : Obligations.LaneInputs) : True := by
  let five := lane0 [item0 1 .printing, item0 2 .queued, item0 3 .queued, item0 4 .queued, item0 5 .queued]
  let c : Entry := { copy0 4 1 2 .opened with data := { (copy0 4 1 2 .opened).data with chests := [chest0 1] } }
  let eye (k : PlateCond) : State :=
    let s := marker0 (lane0 [item0 1 .queued]) .stroking
    with1 { s with mark := { s.mark with plateA := { Plate.cold with cond := k } } } c
  have _ := h.1 (eye .empty) 1 5 (item0 1 .queued) c (chest0 1) (by decide) rfl rfl rfl (.inl rfl) rfl rfl rfl rfl rfl rfl
  have _ := h.1 (eye .spent) 1 5 (item0 1 .queued) c (chest0 1) (by decide) rfl rfl rfl (.inr rfl) rfl rfl rfl rfl rfl rfl
  let done : State :=
    let s := marker0 (lane0 [item0 1 .queued]) .idle
    { s with mark := { s.mark with arrivals := [job1], plateA :=
        { Plate.cold with job := some job1, cond := .composing, building := [txt "INV00004/001 50.00"] } } }
  have _ := h.2.1 done job1 (by decide) rfl rfl rfl rfl rfl
  let b : MarkEnteredBody := { inv := 4, version := 2, ordinal := 1, how := .printed, marker := 3 }
  let full (n : Nat) : State := with1 (marker0 { lane0 (item0 1 .printed :: queued0 n) with holdFlag := true } .stroking) c
  have _ := (h.2.2.1 (full 4) e1 b c 1 5 (item0 1 .printed) (by decide) rfl (by decide) (by decide) rfl rfl rfl (by decide) rfl
    rfl rfl rfl rfl (by decide) rfl (by decide) (by decide)).1 (by decide)
  have _ := (h.2.2.1 (full 3) e1 b c 1 5 (item0 1 .printed) (by decide) rfl (by decide) (by decide) rfl rfl rfl (by decide) rfl
    rfl rfl rfl rfl (by decide) rfl (by decide) (by decide)).2 (by decide) rfl (by decide)
  let z := ex0 (.markDone 4 1) 0 false
  have later (s : State) (v : Nat) := h.2.2.2.1 s e1 { b with version := v } c 1 5 (item0 1 .printed)
  have _ := (later (full 4) 3 _ _ (.inl ⟨by decide, rfl⟩) (.inr ⟨rfl, by decide, rfl⟩) rfl (by decide) (by decide) rfl rfl rfl
    rfl rfl rfl rfl rfl (by decide) rfl (by decide) (by decide)).1 (by decide)
  have _ := (later (full 5) 2 _ _ (.inl ⟨by decide, rfl⟩) (.inl ⟨by decide, rfl⟩) rfl (by decide) (by decide) rfl rfl rfl
    rfl rfl rfl rfl rfl (by decide) rfl (by decide) (by decide)).2.1 (.inl (by decide))
  let one : State := with1 (marker0 (lane0 [item0 1 .printed]) .stroking) c
  have _ := (later (withEx one z) 2 _ _ (.inr ⟨z, by decide, rfl, rfl⟩) (.inl ⟨by decide, rfl⟩) rfl (by decide) (by decide)
    rfl rfl rfl rfl rfl rfl rfl rfl (by decide) rfl (by decide) (by decide)).2.1 (.inr (by decide))
  have _ := (later (withEx (full 3) z) 3 _ _ (.inr ⟨z, by decide, rfl, rfl⟩) (.inr ⟨rfl, by decide, rfl⟩) rfl (by decide)
    (by decide) rfl rfl rfl rfl rfl rfl rfl rfl (by decide) rfl (by decide) (by decide)).2.2 (by decide) rfl (by decide)
  have h := h.2.2.2.2
  have _ := (h (composing0 five) 1 5 (by decide) rfl rfl rfl rfl).1 (by decide) rfl (by decide)
  let four := lane0 [item0 1 .printing, item0 2 .queued, item0 3 .queued, item0 4 .queued]
  have _ := (h (composing0 four) 1 5 (by decide) rfl rfl rfl rfl).2.1 (by decide) rfl
  have _ := (h (composing0 { four with stray := true }) 1 5 (by decide) rfl rfl rfl rfl).2.2.1 rfl
  have _ := (h (composing0 four) 1 5 (by decide) rfl rfl rfl rfl).2.2.2.1 (item0 2 .queued) rfl rfl rfl
  let s := composing0 four
  have _ := (h { s with mark := { s.mark with arrivals := [{ job1 with ordinal := 2 }] } } 1 5 (by decide) rfl rfl rfl
    rfl).2.2.2.2.1 rfl rfl
  have _ := (h s 2 6 (by decide) rfl rfl rfl rfl).2.2.2.2.2.1 rfl rfl rfl
  trivial

theorem test_meets_StrokeEnds (h : Obligations.StrokeEnds) : True := by
  let s := marker0 (lane0 [item0 1 .printing]) .stroking
  have _ := (h s job1 (item0 1 .printing) 5 (by decide) rfl (.inl rfl) rfl rfl rfl rfl rfl rfl rfl).1 (by decide)
  have _ := (h { s with mark := { s.mark with stroke := .running 3000 } } job1 (item0 1 .printing) 5 (by decide) rfl
    (.inl rfl) rfl rfl rfl rfl rfl rfl rfl).2 rfl
  trivial

theorem test_meets_LaneRequests (h : Obligations.LaneRequests) : True := by
  have _ := (h sM 0 (by decide) (by decide) rfl rfl).1 rfl
  have _ := (h sM 3 (by decide) (by decide) rfl rfl).1 rfl
  have _ := (h sM 1 (by decide) (by decide) rfl rfl).2.1 rfl rfl rfl rfl
  have _ := (h (marker0 { lane0 [] with stray := true } .idle) 1 (by decide) (by decide) rfl rfl).2.2.1 rfl rfl rfl rfl
  have _ := (h sM 2 (by decide) (by decide) rfl rfl).2.2.2.1 rfl rfl (by decide)
  let l := lane0 [item0 1 .fault]
  have _ := (h (marker0 l .held) 1 (by decide) (by decide) rfl rfl).2.2.2.2.1 (item0 1 .fault) rfl rfl (by decide)
  have _ := (h (marker0 l .idle) 1 (by decide) (by decide) rfl rfl).2.2.2.2.2.1 (item0 1 .fault) rfl rfl rfl (by decide)
  let x (q : Stencil) : Entry :=
    { copy0 4 1 2 .opened with data := { (copy0 4 1 2 .opened).data with chests := [{ chest0 1 with stencil := q }] } }
  have _ := ((h (with1 sM (x .hand)) 1 (by decide) (by decide) rfl rfl).2.2.2.2.2.2.1 { inv := 4, ordinal := 1 } (x .hand)
    { chest0 1 with stencil := .hand } rfl rfl rfl rfl rfl).1 (by decide)
  have _ := ((h (with1 sM (x .pending)) 1 (by decide) (by decide) rfl rfl).2.2.2.2.2.2.1 { inv := 4, ordinal := 1 }
    (x .pending) { chest0 1 with stencil := .pending } rfl rfl rfl rfl rfl).2 rfl rfl (by decide)
  let kept (n : Nat) (q : StencilHead) : State := marker0 { lane0 (queued0 n) with
    laneOver := true, overflow := some { inv := 4, ordinal := 9, source := 1 } } q
  have _ := ((h (marker0 { lane0 [] with laneOver := true } .idle) 1 (by decide) (by decide) rfl rfl).2.2.2.2.2.2.2.1 5 rfl
    rfl rfl).1 (.inl rfl)
  have _ := ((h (kept 6 .idle) 1 (by decide) (by decide) rfl rfl).2.2.2.2.2.2.2.1 5 rfl rfl rfl).1 (.inr (by decide))
  have _ := (((h (kept 3 .held) 1 (by decide) (by decide) rfl rfl).2.2.2.2.2.2.2.1 5 rfl rfl rfl).2 _ rfl).1 (by decide)
  have _ := (((h (kept 4 .idle) 1 (by decide) (by decide) rfl rfl).2.2.2.2.2.2.2.1 5 rfl rfl rfl).2 _ rfl).2 (.inl rfl)
    (by decide)
  have _ := (((h (kept 5 .idle) 1 (by decide) (by decide) rfl rfl).2.2.2.2.2.2.2.1 5 rfl rfl rfl).2 _ rfl).2 (.inr rfl)
    (by decide)
  let open1 (l : List LaneEntry) : State := marker0 { lane0 l with unconfirmed := true } .idle
  let p : LaneEntry := { item0 1 .printed with how := some .hand, answer := .full }
  have _ := ((h (open1 []) 1 (by decide) (by decide) rfl rfl).2.2.2.2.2.2.2.2.1 rfl rfl rfl).1 rfl
  have _ := ((h (open1 [p, item0 2 .queued]) 1 (by decide) (by decide) rfl rfl).2.2.2.2.2.2.2.2.1 rfl rfl rfl).2 p rfl
    (by decide)
  let bad (y : List Entry) (r : List Nat) : State := { marker0 l .held with
    inv := { sM.inv with table := y }, start := { sM.start with rejected := r },
    mark := { (marker0 l .held).mark with plateB := Plate.cold } }
  have _ := ((h (bad [] []) 1 (by decide) (by decide) rfl rfl).2.2.2.2.2.2.2.2.2 (item0 1 .fault) job1 rfl rfl rfl
    (by decide) rfl).1 rfl
  have _ := (((h (bad [copy0 4 1 2 .opened] []) 1 (by decide) (by decide) rfl rfl).2.2.2.2.2.2.2.2.2 (item0 1 .fault) job1
    rfl rfl rfl (by decide) rfl).2.1 _ rfl rfl).1 rfl
  have _ := (((h (bad [{ copy0 4 1 2 .opened with copy := .stale }] []) 1 (by decide) (by decide) rfl
    rfl).2.2.2.2.2.2.2.2.2 (item0 1 .fault) job1 rfl rfl rfl (by decide) rfl).2.1 _ rfl rfl).2 (by decide)
  have _ := (((h (bad [x .pending] [0]) 1 (by decide) (by decide) rfl rfl).2.2.2.2.2.2.2.2.2 (item0 1 .fault) job1 rfl rfl rfl
    (by decide) rfl).2.2 _ _ rfl rfl).1 (by decide)
  have _ := (((h (bad [x .pending] []) 1 (by decide) (by decide) rfl rfl).2.2.2.2.2.2.2.2.2 (item0 1 .fault) job1 rfl rfl rfl
    (by decide) rfl).2.2 _ _ rfl rfl).2 (by decide)
  trivial

/-! ## Readings at a head and at the drum -/

/-- A head whose next good sample averages to a count that weighs half of it. -/
def feeding (q : HeadState) (c : ChestNow) (count : Int) : State :=
  { head0 q .current c with fe := { fe0 [count, count, count] with ref := some (count.tdiv 2), count := 12, stable := true } }

/-- A settling head whose weight is half the count, with its flight and settle timers. -/
def settling0 (c : ChestNow) (count : Int) : State :=
  let s := feeding .settling c count
  { s with head := { s.head with lease := .none, flight := .running 0, settle := .running 4000 } }

def fed0 : ChestNow := { now0 with lease := some 7 }

theorem test_meets_HeadWeighs (h : Obligations.HeadWeighs) : True := by
  let s1 := feeding .fast fed0 4000
  have _ := (h s1 (word0 4000) 32 400 4000 2000 (after s1 true 4000).1 (after s1 true 4000).2 fed0 (by decide) rfl
    (by decide) (after_pair _ _ _) (by decide) (by decide) (by decide) rfl).1 (.inl rfl) (.inr (by decide)) (by decide)
  let s2 := feeding .fast fed0 11450
  have _ := (h s2 (word0 11450) 32 400 11450 5725 (after s2 true 11450).1 (after s2 true 11450).2 fed0 (by decide) rfl
    (by decide) (after_pair _ _ _) (by decide) (by decide) (by decide) rfl).2.1 rfl (by decide) (by decide)
  let s3 := feeding .dribble fed0 12000
  have _ := (h s3 (word0 12000) 32 400 12000 6000 (after s3 true 12000).1 (after s3 true 12000).2 fed0 (by decide) rfl
    (by decide) (after_pair _ _ _) (by decide) (by decide) (by decide) rfl).2.2.1 (.inr rfl) (by decide) (by decide)
  let s4 := settling0 now0 12102
  have _ := (h s4 (word0 12102) 32 400 12102 6051 (after s4 true 12102).1 (after s4 true 12102).2 now0 (by decide) rfl
    (by decide) (after_pair _ _ _) (by decide) (by decide) (by decide) rfl).2.2.2.1 rfl (by decide) rfl rfl (by decide)
  let s5 := settling0 now0 12100
  have _ := (h s5 (word0 12100) 32 1500 12100 6050 (after s5 true 12100).1 (after s5 true 12100).2 now0 (by decide) rfl
    (by decide) (after_pair _ _ _) (by decide) (by decide) (by decide) rfl).2.2.2.2.1 4 rfl (by decide) rfl rfl (by decide) (by decide)
    (by decide)
  let s6 := settling0 now0 11960
  have _ := (h s6 (word0 11960) 32 1501 11960 5980 (after s6 true 11960).1 (after s6 true 11960).2 now0 (by decide) rfl
    (by decide) (after_pair _ _ _) (by decide) (by decide) (by decide) rfl).2.2.2.2.1 4 rfl (by decide) rfl rfl (by decide) (by decide)
    (by decide)
  let s7 (c : ChestNow) (k : Int) := settling0 c k
  have under (c : ChestNow) (k w : Int) := h (s7 c k) (word0 k.toNat) 32 400 k w (after (s7 c k) true k).1
    (after (s7 c k) true k).2 c
  have _ := ((under now0 11958 5979 (by decide) rfl (by decide) (after_pair _ _ _) (by decide) (by decide) (by decide)
    rfl).2.2.2.2.2 4 rfl (by decide) rfl rfl (by decide)).1 rfl (by decide) (by decide)
  let c1 : ChestNow := { now0 with topups := 1 }
  have _ := ((under c1 11958 5979 (by decide) rfl (by decide) (after_pair _ _ _) (by decide) (by decide) (by decide)
    rfl).2.2.2.2.2 4 rfl (by decide) rfl rfl (by decide)).2.1 rfl (by decide) rfl
  let c2 : ChestNow := { now0 with starved := true }
  have _ := ((under c2 4000 2000 (by decide) rfl (by decide) (after_pair _ _ _) (by decide) (by decide) (by decide)
    rfl).2.2.2.2.2 4 rfl (by decide) rfl rfl (by decide)).2.2.1 rfl (by decide) (by decide)
  have _ := ((under c2 3998 1999 (by decide) rfl (by decide) (after_pair _ _ _) (by decide) (by decide) (by decide)
    rfl).2.2.2.2.2 4 rfl (by decide) rfl rfl (by decide)).2.2.2 rfl (by decide) (by decide)
  trivial

/-- A blender in the middle of a draw, whose next good sample weighs half the count. -/
def drawing0 (d : Draw) (count : Int) (stable : Bool) (q : StationState) : State :=
  let s := drum .charging (order0 .none d)
  { s with start := { s.start with state := q }
           fe := { fe0 [count, count, count] with
             ref := some (if stable then count.tdiv 2 else 0), count := if stable then 11 else 0, stable := false } }

theorem test_meets_BlendPours (h : Obligations.BlendPours) : True := by
  let s1 := drawing0 .waitStart 1000 true .active
  have _ := (h.2 s1 (word0 1000) 32 0 0 1000 500 (after s1 false 1000).1 (after s1 false 1000).2 (order0 .none .waitStart)
    comp0 (by decide) rfl rfl (by decide) (after_pair _ _ _) (by decide) rfl rfl rfl rfl).1 rfl (by decide)
  let s2 := drawing0 .pouring 100098 false .active
  have _ := (h.2 s2 (word0 100098) 32 0 0 100098 50049 (after s2 false 100098).1 (after s2 false 100098).2
    (order0 .none .pouring) comp0 (by decide) rfl rfl (by decide) (after_pair _ _ _) (by decide) rfl rfl rfl rfl).2.1 100 rfl rfl
    (by decide) (by decide)
  let s3 := drawing0 .pouring 100100 false .active
  have _ := (h.2 s3 (word0 100100) 32 0 0 100100 50050 (after s3 false 100100).1 (after s3 false 100100).2
    (order0 .none .pouring) comp0 (by decide) rfl rfl (by decide) (after_pair _ _ _) (by decide) rfl rfl rfl rfl).2.2.1 100 rfl rfl
    (by decide) (by decide) (by decide)
  let s4 := drawing0 .settling 100200 true .joining
  have _ := (h.2 s4 (word0 100200) 32 0 0 100200 50100 (after s4 false 100200).1 (after s4 false 100200).2
    (order0 .none .settling) comp0 (by decide) rfl rfl (by decide) (after_pair _ _ _) (by decide) rfl rfl rfl rfl).2.2.2.2.2 100 rfl rfl
    (by decide) rfl (by decide) rfl (by decide) rfl
  have rise (s : State) (c w : Int) := h.2 s (word0 c.toNat) 32 0 0 c w (after s false c).1 (after s false c).2
  let low : Comp := { comp0 with peak := 40000 }
  let x : Order := { order0 .none .pouring with comps := [low] }
  let r (c : Int) : State :=
    let s := drawing0 .pouring c false .active
    { s with blend := { s.blend with order := some x } }
  have _ := (rise (r 100098) 100098 50049 x low (by decide) rfl rfl (by decide) (after_pair _ _ _) (by decide) rfl rfl rfl
    rfl).2.2.2.1 100 rfl rfl (by decide) (by decide)
  have _ := (rise (r 100100) 100100 50050 x low (by decide) rfl rfl (by decide) (after_pair _ _ _) (by decide) rfl rfl rfl
    rfl).2.2.2.2.1 100 rfl rfl (by decide) (by decide) (by decide)
  let o : OwnerRec := { ownR 4 2 .opened with fills := [{ head := 5, token := 9, leases := 1, lost := false }] }
  let d (c : Int) : State :=
    let s := drum .discharging (order0 .firm .settling)
    { with1 s { own0 4 2 .opened with own := some o } with
      arb := { Arb.cold with openFlag := true, batch := some 4 }
      fe := { fe0 [c, c, c] with ref := some (c.tdiv 2), count := 11 } }
  have low (c w : Int) := h.1 (d c) (word0 c.toNat) 32 0 4 c w (after (d c) false c).1 (after (d c) false c).2
    (order0 .firm .settling) o
  have _ := (low 200 100 (by decide) rfl rfl (by decide) (after_pair _ _ _) (by decide) (by decide) rfl rfl rfl rfl).1
    (by decide)
  have _ := (low 198 99 (by decide) rfl rfl (by decide) (after_pair _ _ _) (by decide) (by decide) rfl rfl rfl rfl).2
    (by decide) (by decide) rfl rfl rfl rfl (by decide) rfl rfl rfl (by decide) rfl rfl
  trivial

/-! ## The port -/

def statusRow : PortRow := ⟨0x01#8, .all, .readStatus⟩
def startRow : PortRow := ⟨0x20#8, .head, .start⟩
def offline (s : State) : State := { s with start := { s.start with state := .offlineConfig } }
def busy (s : State) (t : Transfer) : State := { s with port := { s.port with handling := some t } }

def orderA (n : Nat) : OrderBody :=
  { order := 77, grade := 0, garden := some (txt "MORVALE"), mix := none, comps := [(4, 9000), (7, n)] }

theorem test_meets_PortTests (h : Obligations.PortTests) : True := by
  have _ := (h sB rfl).2.2.2.1 0x7F#8
  have _ := (h (busy sB (.read 0 1)) rfl).2.2.2.1 0x7F#8 (.inl (by decide))
  have _ := (h State.reset rfl).2.2.2.1 0x7F#8 (.inr rfl)
  have _ := (h sB rfl).2.2.2.2.1 0x7F#8 rfl (by decide)
  have m : statusRow ∈ portRows ⟨4, 1, 0⟩ ⟨0, 1⟩ ⟨0, []⟩ 1 ⟨0, 0⟩ ⟨4, 1⟩ none := by simp [portRows, statusRow]
  have k : startRow ∈ portRows ⟨4, 1, 0⟩ ⟨0, 1⟩ ⟨0, []⟩ 1 ⟨0, 0⟩ ⟨4, 1⟩ none := by simp [portRows, startRow]
  have _ := ((h State.reset rfl).2.2.2.2.2.2 _ _ _ _ _ _ _ _ rfl m).2.1 (.good ()) (by decide) (.inr rfl)
  have _ := (((h sB rfl).2.2.2.2.2.2 _ _ _ _ _ _ _ _ rfl k).2.2 rfl (by decide)).2.1 (by decide)
  have _ := (((h (offline sH) rfl).2.2.2.2.2.2 _ _ _ _ _ _ _ _ rfl k).2.2 rfl (by decide)).2.2.1 (by decide) (by decide)
    (by decide)
  have _ := (((h sH rfl).2.2.2.2.2.2 _ _ _ _ _ _ _ _ rfl k).2.2 rfl (by decide)).2.2.2 (by decide) (.inr (by decide))
  have place (s : State) (q : s.start.resetLow = false) := (h s q).2.2.2.2.2.1
  have _ := (place (busy sB (.read 0 1)) rfl rfl).2.1 (.good (orderA 6200)) (by decide) (.inl (by decide))
  have _ := (place State.reset rfl rfl).2.1 .badValue (by decide) (.inr rfl)
  have _ := ((place sH rfl rfl).2.2 rfl (by decide)).2.1 (orderA 6200) rfl
  have _ := ((place (offline sB) rfl rfl).2.2 rfl (by decide)).2.2.1 (orderA 6200) rfl rfl
  have _ := ((place sB rfl rfl).2.2 rfl (by decide)).2.2.2 rfl (by decide)
  trivial

def rep0 : Report := Report.of .peerAbsent none none (some 5) .absent

theorem test_meets_PortReads (h : Obligations.PortReads) : True := by
  have _ := (h sB (by decide)).2.1 rfl
  have _ := (h (sB.report rep0) (by decide)).2.2.1 rep0 [] rfl
  have _ := (h sB (by decide)).2.2.2.1 ⟨4, 1, 0⟩ rfl
  have _ := (h (with1 sB (own0 4 1 .opened)) (by decide)).2.2.2.2.1 ⟨4, 121, 0⟩ (own0 4 1 .opened) rfl (by decide)
  have _ := (h (with1 sB (own0 4 1 .opened)) (by decide)).2.2.2.2.2.1 ⟨4, 120, 8⟩ (own0 4 1 .opened) rfl (by decide)
    (by decide) (by decide)
  have _ := ((h sM (by decide)).2.2.2.2.2.2.2 rfl (by decide)).1 3 (by decide) (by decide)
  have _ := (((h sM (by decide)).2.2.2.2.2.2.2 rfl (by decide)).2 1 .a (.inl ⟨rfl, rfl⟩)).1 (by decide)
  have _ := (((h (composing0 Lane.cold) (by decide)).2.2.2.2.2.2.2 rfl (by decide)).2 1 .a (.inl ⟨rfl, rfl⟩)).2 rfl
  have _ := (((h sM (by decide)).2.2.2.2.2.2.2 rfl (by decide)).2 2 .b (.inr ⟨rfl, rfl⟩)).1 (by decide)
  trivial

theorem test_meets_MemoryTransfers (h : Obligations.MemoryTransfers) : True := by
  have _ := h.1 ⟨4, 1, 0⟩ ⟨0, 1⟩ ⟨0, []⟩ 1 ⟨0, 1⟩ ⟨4, 1⟩ none _ (.head _)
  have _ := (h.2 sB).1 3 (.inr rfl)
  have _ := (h.2 { sB.answer 0x02#8 .state [] with start := { sB.start with resetLow := true } }).1 3 (.inl rfl)
  have _ := (h.2 (sB.answer 0x02#8 .state [])).2.1 ⟨0x02#8, .state, []⟩ rfl rfl
  have _ := ((h.2 sB).2.2.1 ⟨2017, 32⟩ (by decide)).1 (by decide)
  have _ := ((h.2 sB).2.2.1 ⟨2016, 32⟩ (by decide)).2 (by decide) (by decide) (by decide)
  have _ := ((h.2 sB).2.2.2.1 ⟨2047, [1#8, 2#8]⟩ (by decide)).1 (by decide)
  have _ := ((h.2 sB).2.2.2.1 ⟨2047, [1#8]⟩ (by decide)).2 (by decide)
  have _ := (h.2 (busy sB (.read 2016 32))).2.2.2.2.1 2016 32 rfl
  have _ := (h.2 (busy sB (.write 2047 [1#8]))).2.2.2.2.2 2047 [1#8] rfl rfl
  trivial

/-- A blender in a state with a drum weight that is stable. -/
def drumAt (q : BlendState) (w : Int) : State :=
  { sB with fe := { fe0 [] with weight := some w, stable := true }
            blend := { Blend.cold with state := q, last := some (read0 w) } }

theorem test_meets_BlendRequests (h : Obligations.BlendRequests) : True := by
  have _ := ((h (drum .charging (order0 .none .pouring)) (by decide)).1 (orderA 6200)).1 (.inl (by decide))
  have _ := (((h sB (by decide)).1 { orderA 6200 with grade := 12 }).2 rfl rfl).1 (by decide)
  have _ := (((h { sB with start := { sB.start with rejected := [0] } } (by decide)).1 (orderA 6200)).2 rfl rfl).2.1
    (by decide) (by decide)
  let s : State := { sB with cfg := { sB.cfg with grades := List.replicate 12 { grade0 with target := 100 } } }
  have _ := (((h s (by decide)).1 (orderA 3001)).2 rfl rfl).2.2.1 (by decide) (by decide) (by decide)
  have _ := (((h s (by decide)).1 (orderA 3000)).2 rfl rfl).2.2.2 (by decide) (by decide) (by decide) (by decide) rfl
  have _ := (h sB (by decide)).2.1 (by decide)
  let o := order0 .none .settling
  have _ := (h (drum .charging o) (by decide)).2.2.1 o (by decide) rfl (.inl rfl)
  let lost := drum .discharging (order0 .firm .settling)
  have _ := (h { lost with blend := { lost.blend with stop := some .ownerLost } } (by decide)).2.2.1
    (order0 .firm .settling) (by decide) rfl (.inr ⟨rfl, rfl, rfl⟩)
  have _ := (h sB (by decide)).2.2.2.1 (by decide)
  let held (x : BlendHeld) (o : Order) : State :=
    { drum .held o with blend := { (drum .held o).blend with held := some x } }
  have _ := (h (held .mixStall o) (by decide)).2.2.2.2.1 rfl rfl
  have _ := ((h (held .shortfall o) (by decide)).2.2.2.2.2.1 o 0 12 comp0 rfl rfl rfl rfl rfl).1 rfl
  have _ := ((h (held .shortfall o) (by decide)).2.2.2.2.2.1 o 0 12 comp0 rfl rfl rfl rfl rfl).2.1 (by decide)
  let c : Comp := { comp0 with settle := true }
  let r : Order := { o with comps := [c] }
  have _ := ((h (held .shortfall r) (by decide)).2.2.2.2.2.1 r 0 11 c rfl rfl rfl rfl rfl).2.2 (by decide) (by decide)
    (by decide) rfl rfl rfl
  have _ := (h sB (by decide)).2.2.2.2.2.2.1 (by decide)
  let d := drum .discharging (order0 .firm .settling)
  have _ := (h { d with blend := { d.blend with stop := some .stopped } } (by decide)).2.2.2.2.2.2.2.1
    (order0 .firm .settling) rfl rfl rfl
  let f : OwnerRec := { ownR 4 2 .opened with fills := [{ head := 5, token := 9, leases := 1, lost := false }] }
  let e : State := { with1 d { own0 4 2 .opened with own := some f } with arb := { Arb.cold with openFlag := true, batch := some 4 } }
  have _ := (h e (by decide)).2.2.2.2.2.2.2.2.1 (order0 .firm .settling) 4 f (by decide) (by decide) rfl rfl rfl rfl rfl rfl
    rfl rfl rfl (by decide) rfl rfl rfl (by decide) rfl rfl
  have _ := (h sB (by decide)).2.2.2.2.2.2.2.2.2.1 (.inl (by decide))
  have _ := ((h (drumAt .blocked 100) (by decide)).2.2.2.2.2.2.2.2.2.2.1 100 rfl rfl).1 (by decide)
  have _ := ((h (drumAt .blocked 99) (by decide)).2.2.2.2.2.2.2.2.2.2.1 99 rfl rfl).2 (by decide)
  have _ := ((h sB (by decide)).2.2.2.2.2.2.2.2.2.2.2.1 ⟨11, 500001⟩).1 (by decide)
  have _ := (((h sB (by decide)).2.2.2.2.2.2.2.2.2.2.2.1 ⟨11, 500000⟩).2 (by decide) (by decide)).2 (by decide)
  let k : Order := { o with comps := [{ comp0 with bin := 12 }] }
  have _ := (((h (drum .charging k) (by decide)).2.2.2.2.2.2.2.2.2.2.2.1 ⟨0, 500000⟩).2 (by decide) (by decide)).1 (by decide)
  let claim (p : ClaimPhase) : State :=
    let s := drum .waitClaim (order0 .asked .settling)
    { s with inv := { s.inv with phase := p } }
  let a (p : ClaimPhase) (hp : PortTakes (claim p) .blend) :=
    ((h (claim p) hp).2.2.2.2.2.2.2.2.2.2.2.2.1 (order0 .asked .settling) rfl rfl).1 rfl
  have _ := (a .seasonEnd (by decide)).1 (.inr (.inr (.inl rfl)))
  have _ := (a (.firm 4) (by decide)).2.1 4 rfl
  have _ := (a (.queued 4 false []) (by decide)).2.2.1 4 [] rfl rfl rfl
  have _ := (a (.window 4 true [7]) (by decide)).2.2.2 4 true [7] rfl rfl rfl (by decide) (by decide) rfl
  have _ := ((h (with1 (drum .mixing (order0 .firm .settling)) (own0 4 65532 .opened)) (by decide)
    ).2.2.2.2.2.2.2.2.2.2.2.2.1 (order0 .firm .settling) rfl rfl).2 4 (ownR 4 65532 .opened) _ rfl rfl (by decide)
    (by decide) (by decide) rfl rfl rfl rfl rfl rfl rfl (by decide) (by decide) rfl
  let kept (x : Blend) (r : Option Reading) : Blend := { x with last := r }
  let starved (cs : List Comp) (r : Option Reading) (q : StationState) : State :=
    let s := held .shortfall { o with comps := cs }
    { s with blend := kept s.blend r, start := { s.start with state := q } }
  let z : Comp := { comp0 with bin := 12, drawn := 9, state := .shortfall, settle := true }
  have next := fun (r : Option Reading) (hp : PortTakes (starved [z, comp0] r .active) .blend) =>
    ((h (starved [z, comp0] r .active) hp).2.2.2.2.2.2.2.2.2.2.2.2.2.1 { o with comps := [z, comp0] } 0 0 z _ _ rfl rfl rfl
      rfl rfl rfl rfl rfl rfl).1 comp0 rfl
  have _ := (next none (by decide)).1 rfl
  have _ := (next (some (read0 12)) (by decide)).2 12 rfl
  have last := fun (q : StationState) (hp : PortTakes (starved [z] none q) .blend) =>
    ((h (starved [z] none q) hp).2.2.2.2.2.2.2.2.2.2.2.2.2.1 { o with comps := [z] } 0 0 z _ _ rfl rfl rfl rfl rfl rfl rfl
      rfl rfl).2 rfl
  have _ := (last .joining (by decide)).1 (by decide)
  have _ := (last .active (by decide)).2 (by decide) rfl (by decide) (by decide) (by decide)
  let woken (cs : List Comp) (d : Draw) (r : Option Reading) : State :=
    let s := held .restart { o with comps := cs, draw := d }
    { s with blend := kept s.blend r }
  have w := fun (c : Comp) (cs : List Comp) (d : Draw) (r : Option Reading) (hp : PortTakes (woken (c :: cs) d r) .blend) =>
    (h (woken (c :: cs) d r) hp).2.2.2.2.2.2.2.2.2.2.2.2.2.2.1 { o with comps := c :: cs, draw := d } 0 11 c _ rfl rfl rfl rfl
      rfl rfl
  have _ := (w comp0 [] .settling none (by decide)).1 rfl rfl
  have _ := (w comp0 [comp0] .settling (some (read0 90)) (by decide)).2.1 90 comp0 rfl rfl rfl (by decide)
  have _ := ((w comp0 [] .paused none (by decide)).2.2.1 100 (by decide) rfl).1 rfl
  have _ := ((w comp0 [] .pouring (some (read0 99)) (by decide)).2.2.1 100 (by decide) rfl).2 99 rfl
  have _ := (w { comp0 with start := none } [] .waitStart none (by decide)).2.2.2.1 (by decide) rfl rfl
  have _ := (w { comp0 with bin := 12 } [] .pouring none (by decide)).2.2.2.2.1 (.inl rfl)
  have _ := (w comp0 [] .pouring none (by decide)).2.2.2.2.2 (by decide) (by decide) (by decide) rfl
  have _ := (h (woken [comp0] .settling (some (read0 90))) (by decide)).2.2.2.2.2.2.2.2.2.2.2.2.2.2.2
    { o with comps := [comp0], draw := .settling } 0 1 comp0 100 90 rfl (.inl rfl) rfl rfl rfl (by decide) (by decide)
    (by decide) rfl rfl
  trivial

/-! ## The paper unit -/

def closed0 : Entry := copy0 4 1 9 .closed
def shown0 (x : Entry) (v : Nat) : State :=
  { with1 sP x with paper := { Paper.cold with window := { shown := some (4, v), cause := .none } } }

theorem test_meets_PaperRequests (h : Obligations.PaperRequests) : True := by
  have _ := ((h sP 4).1 (by decide)).1 rfl
  let q : State := { with1 sP closed0 with paper := { Paper.cold with queue := [{ inv := 4, seq := 1 }] } }
  have _ := ((h q 4).1 (by decide)).2.1 { inv := 4, seq := 1 } [] closed0 rfl rfl rfl rfl rfl
  have _ := ((h sP 4).1 (by decide)).2.2.1 rfl
  have _ := (((h (with1 sP (copy0 4 1 9 .opened)) 4).1 (by decide)).2.2.2.1 _ rfl).1 (.inl (by decide))
  have _ := (((h (with1 sP closed0) 4).1 (by decide)).2.2.2.1 _ rfl).2 rfl rfl rfl
  have _ := (((h sP 4).1 (by decide)).2.2.2.2.1 rfl).2
  have _ := (((h (shown0 closed0 9) 4).1 (by decide)).2.2.2.2.2 9 2 closed0 rfl rfl).1 (by decide)
  have _ := (((h (shown0 closed0 9) 4).1 (by decide)).2.2.2.2.2 9 1 closed0 rfl rfl).2.1 (by decide) rfl rfl
  have _ := (((h (shown0 closed0 8) 4).1 (by decide)).2.2.2.2.2 8 1 closed0 rfl rfl).2.2.1 (by decide) (.inr (by decide))
  have _ := (((h (shown0 closed0 8) 4).1 (by decide)).2.2.2.2.2 8 1 closed0 rfl rfl).2.2.2.1 (.inr (by decide))
  let x : Entry := { closed0 with orphan := true }
  have _ := (((h (shown0 x 9) 4).1 (by decide)).2.2.2.2.2 9 1 x rfl rfl).2.2.2.2.1 rfl rfl rfl
  have _ := (((h (shown0 closed0 9) 4).1 (by decide)).2.2.2.2.2 9 1 closed0 rfl rfl).2.2.2.2.2 rfl rfl rfl (by decide)
    (by decide)
  have _ := ((h sB 4).2 (by decide)).1 rfl
  let y : Entry := { copy0 4 1 2 .opened with orphan := true }
  have _ := (((h (with1 sP closed0) 4).2 (by decide)).2 closed0 rfl).1 (.inr (.inl rfl))
  have _ := (((h (with1 sB y) 4).2 (by decide)).2 y rfl).2 (by decide) (by decide) rfl rfl rfl (.inr rfl) rfl (by decide)
    (by decide)
  trivial

/-! ## Starts -/

def low (s : State) : State := { s with start := { s.start with resetLow := true } }

theorem test_meets_StartEvents (h : Obligations.StartEvents) : True := by
  have _ := (h sB).1 rfl
  have _ := (h (busy sB (.write 0 [1#8]))).2.1 0 [1#8] rfl
  have _ := (h (low sB)).2.2.1 rfl
  have _ := (h sB).2.2.2.1 rfl rfl
  have _ := ((h sB).2.2.2.2 10).1 rfl
  have _ := ((h (low sB)).2.2.2.2 10).2.1 rfl rfl (by decide)
  have _ := (((h (low State.reset)).2.2.2.2 9).2.2 rfl rfl (by decide)).1 rfl rfl
  have _ := (((h (low sB)).2.2.2.2 9).2.2 rfl rfl (by decide)).2 (.inl (by decide))
  trivial

theorem test_meets_RestartWarm (h : Obligations.RestartWarm) : True := by
  have m : statusRow ∈ portRows ⟨4, 1, 0⟩ ⟨0, 1⟩ ⟨0, []⟩ 1 ⟨0, 0⟩ ⟨4, 1⟩ none := by simp [portRows, statusRow]
  have g := (h sB (by decide)).2 State.reset rfl rfl rfl
  have _ := g.1 _ _ _ _ _ _ _ _ (.good ()) m (by decide)
  have _ := g.2.1 (.good (orderA 6200)) (by decide)
  trivial

/-- The configuration memory of a station 3 with the roles byte `r`, below its check: common fields, those of every role,
twelve equal grades, four layouts of one empty line; every other byte is FF. -/
def body0 (r : Byte) : List Host.Cell :=
  let cells (a : Nat) (l : List Byte) : List Host.Cell := (List.range l.length).zipWith (fun k b => (a + k, b)) l
  cells 0 ([0x4C#8, 0x53#8, 3#8, r, 1#8, 8#8, 0#8, 1#8, 0#8, 100#8] ++ txt "2025" ++ txt "MORVALE" ++
      [0#8, 0#8, 0#8, 0#8, 0x80#8, 0#8, 0x7A#8, 0x12#8, 0#8, 5#8, 0#8, 50#8, 0#8, 100#8, 10#8, 5#8, 1#8, 6#8, 2#8, 0#8]) ++
    cells 0x30 [1#8, 0#8, 0x01#8, 0xF4#8, 0x01#8, 0x2C#8, 0#8, 40#8, 1#8, 5#8, 6#8] ++
    (List.range 12).flatMap (fun k => cells (0x40 + 20 * k)
      ([0x13#8, 0x88#8, 0#8, 20#8, 0#8, 50#8, 0x03#8, 0xE8#8, 0#8, 100#8, 0x03#8, 0xE8#8] ++ txt "BOP" ++
        [0#8, 0#8, 0#8, 1#8])) ++
    (List.range 4).flatMap (fun k => cells (0x130 + 241 * k) [1#8, 0#8])

/-- The two check bytes, and the memory with them. -/
def check0 (r : Byte) : List Host.Cell :=
  let c := crc16 (Memory.readMany (body0 r) 2 2044)
  [(0x7FE, BitVec.ofNat 8 (c / 256)), (0x7FF, BitVec.ofNat 8 c)]
def image (r : Byte) : List Host.Cell := body0 r ++ check0 r

theorem crcBit_lt (c : Nat) (h : c < 65536) : crcBit c < 65536 := by
  unfold crcBit
  split
  · exact Nat.xor_lt_two_pow (n := 16) (by omega) (by omega)
  · omega

theorem crcByte_lt (c : Nat) (b : Byte) (h : c < 65536) : crcByte c b < 65536 := by
  unfold crcByte
  iterate 8 refine crcBit_lt _ ?_
  exact Nat.xor_lt_two_pow (n := 16) h (by have := b.isLt; omega)

theorem crc_lt (l : List Byte) : ∀ c, c < 65536 → l.foldl crcByte c < 65536 := by
  induction l with
  | nil => exact fun c h => h
  | cons b l ih =>
    intro c h
    rw [List.foldl_cons]
    exact ih _ (crcByte_lt c b h)

theorem read_append (m l : List Host.Cell) (n : Nat) (h : ∀ p ∈ l, p.1 ≠ n) :
    Memory.read (m ++ l) n = Memory.read m n := by
  induction m with
  | nil =>
    induction l with
    | nil => rfl
    | cons p l ih =>
      obtain ⟨a, b⟩ := p
      have ha : a ≠ n := h (a, b) (by simp)
      simpa [Memory.read, ha] using ih (fun q hq => h q (by simp [hq]))
  | cons p m ih =>
    obtain ⟨a, b⟩ := p
    by_cases ha : a = n <;> simp [Memory.read, ha, ih]

theorem readMany_append (m l : List Host.Cell) (lo k : Nat) (hl : ∀ p ∈ l, lo ≤ p.1) :
    ∀ a, a + k ≤ lo → Memory.readMany (m ++ l) a k = Memory.readMany m a k := by
  induction k with
  | zero => exact fun _ _ => rfl
  | succ k ih =>
    intro a ha
    have h1 := read_append m l a (fun p hp => by have := hl p hp; omega)
    simp [Memory.readMany, h1, ih (a + 1) (by omega)]

theorem read_past (m l : List Host.Cell) (n : Nat) (h : m.all (fun p => decide (p.1 < n)) = true) :
    Memory.read (m ++ l) n = Memory.read l n := by
  induction m with
  | nil => rfl
  | cons p m ih =>
    obtain ⟨a, b⟩ := p
    simp only [List.all_cons, Bool.and_eq_true, decide_eq_true_eq] at h
    have ha : a ≠ n := by omega
    simpa [Memory.read, ha] using ih h.2

/-- Two check bytes over the first bytes of a memory hold their check. -/
theorem check_holds (m : List Host.Cell) (k : Nat) (h : m.all (fun p => decide (p.1 < k + 2)) = true) :
    ∀ c, c = crc16 (Memory.readMany m 2 k) →
      ∀ i, i = m ++ [(k + 2, BitVec.ofNat 8 (c / 256)), (k + 3, BitVec.ofNat 8 c)] →
      crc16 (Memory.readMany i 2 k) = at2 (Memory.read i) (k + 2) := by
  intro c hc i hi
  have hlt : c < 65536 := hc ▸ crc_lt _ 65535 (by omega)
  have h1 : Memory.readMany i 2 k = Memory.readMany m 2 k := by
    rw [hi]
    exact readMany_append _ _ (k + 2) _ (by simp) _ (by omega)
  have h2 := read_past m [(k + 2, BitVec.ofNat 8 (c / 256)), (k + 3, BitVec.ofNat 8 c)] (k + 2) h
  have h3 := read_past m [(k + 2, BitVec.ofNat 8 (c / 256)), (k + 3, BitVec.ofNat 8 c)] (k + 3)
    (List.all_eq_true.2 fun p hp => by have := List.all_eq_true.1 h p hp; simp at this ⊢; omega)
  rw [h1, ← hc]
  simp only [at2, at1, hi, h2, show k + 2 + 1 = k + 3 from rfl, h3]
  simp [Memory.read]
  omega

/-- The roles byte of each role alone: BLEND, HEAD, MARK, PAPER. -/
def roleBytes : List Byte := [1#8, 2#8, 4#8, 8#8]

theorem test_image_values : roleBytes.all (fun r =>
    ((valueTests (Memory.read (image r))).find? (fun t => !t.2)).isNone) = true := by decide +kernel

theorem test_image_places : roleBytes.all (fun r =>
    (body0 r).all (fun p => decide (p.1 < 2046)) && decide (at2 (Memory.read (image r)) 0 = 0x4C53)) = true := by
  decide +kernel

/-- The four memories are good, and a load that reads one takes its configuration. -/
theorem test_good_image (r : Byte) (h : r ∈ roleBytes) :
    loadMemory (image r) true = .inr (cfgAt (Memory.read (image r))) := by
  have hv := List.all_eq_true.1 test_image_values r h
  have hp := List.all_eq_true.1 test_image_places r h
  simp only [Bool.and_eq_true, decide_eq_true_eq] at hp
  have hc : crc16 (Memory.readMany (image r) 2 2044) = at2 (Memory.read (image r)) 2046 :=
    check_holds (body0 r) 2044 hp.1 _ rfl _ rfl
  have hf : memoryFault (image r) = none := by
    rw [memoryFault]
    simp only [hc, hp.2, Option.isNone_iff_eq_none.1 hv]
    simp
  simp [loadMemory, hf]

theorem test_image_role (r : Byte) (h : r ∈ roleBytes) :
    (cfgAt (Memory.read (image r))).number = 3 ∧ (cfgAt (Memory.read (image r))).roles = rolesOf r.toNat := by
  have := List.all_eq_true.1 (show roleBytes.all (fun r => decide ((cfgAt (Memory.read (image r))).number = 3) &&
    decide ((cfgAt (Memory.read (image r))).roles = rolesOf r.toNat)) = true by decide +kernel) r h
  simpa using this

/-- A station 3 that loads after a warm start, with the image of its one role. -/
def loads (q : Roles) (r : Byte) : State :=
  { st q with cfgMem := image r, start := { (st q).start with state := .loading, isCold := false } }

theorem test_meets_LoadAndJoinPeriod (h : Obligations.LoadAndJoinPeriod) : True := by
  have hl := test_good_image
  have hr := test_image_role
  have _ := (h.1 State.reset rfl rfl).1 false .signature rfl
  have _ := (h.1 State.reset rfl rfl).2.2.1 (.inl (by decide))
  have _ := (h.1 { State.reset with cfgMem := image 8#8 } rfl rfl).2.2.2.1 _ (hl 8#8 (by decide)) rfl rfl rfl rfl rfl rfl
  have _ := (h.1 (loads (only false false false true) 8#8) rfl rfl).2.2.2.2 _ (hl 8#8 (by decide)) rfl
  let b (q : BlendState) (o : Option Order) : State :=
    { loads (only true false false false) 1#8 with blend := { Blend.cold with state := q, order := o } }
  have lb (q : BlendState) (o : Option Order) : LoadsWarm (b q o) (cfgAt (Memory.read (image 1#8))) :=
    ⟨rfl, rfl, rfl, hl 1#8 (by decide), (hr 1#8 (by decide)).1, (hr 1#8 (by decide)).2, rfl, rfl, rfl⟩
  let o : Order := { order0 .asked .settling with charged := some 50000 }
  have _ := ((h.2.1 _ _ (lb .charging (some (order0 .none .pouring)))).1 rfl).1 _ rfl rfl rfl
  have _ := ((h.2.1 _ _ (lb .mixing (some o))).1 rfl).2.1 rfl
  have _ := ((h.2.1 _ _ (lb .discharging (some (order0 .firm .settling)))).1 rfl).2.2.1 rfl
  have _ := ((h.2.1 _ _ (lb .idle none)).1 rfl).2.2.2.1 (.inl rfl)
  have _ := ((h.2.1 _ _ (lb .waitClaim (some o))).1 rfl).2.2.2.2 o 50000 (.inr (.inl rfl)) rfl rfl rfl
  let d (q : HeadState) : State :=
    { loads (only false true false false) 2#8 with head := { Head.cold with state := q, chest := some now0 } }
  have ld (q : HeadState) : LoadsWarm (d q) (cfgAt (Memory.read (image 2#8))) :=
    ⟨rfl, rfl, rfl, hl 2#8 (by decide), (hr 2#8 (by decide)).1, (hr 2#8 (by decide)).2, rfl, rfl, rfl⟩
  have _ := ((h.2.1 _ _ (ld .settling)).2.1 rfl).1 (.inr (.inr (.inl rfl)))
  have _ := ((h.2.1 _ _ (ld .waiting)).2.1 rfl).2.1 rfl
  have _ := ((h.2.1 _ _ (ld .voiding)).2.1 rfl).2.2.1 (.inr ⟨rfl, rfl⟩)
  have _ := ((h.2.1 _ _ (ld .empty)).2.1 rfl).2.2.2.1 rfl
  have _ := ((h.2.1 _ _ (ld .locked)).2.1 rfl).2.2.2.2 (.inr (.inr (.inr (.inr (.inl rfl)))))
  have _ := (h.2.1 (loads (only false false true false) 4#8) (cfgAt (Memory.read (image 4#8)))
    ⟨rfl, rfl, rfl, hl 4#8 (by decide), (hr 4#8 (by decide)).1, (hr 4#8 (by decide)).2, rfl, rfl, rfl⟩).2.2.1 rfl
  have _ := (h.2.1 (loads (only false false false true) 8#8) (cfgAt (Memory.read (image 8#8)))
    ⟨rfl, rfl, rfl, hl 8#8 (by decide), (hr 8#8 (by decide)).1, (hr 8#8 (by decide)).2, rfl, rfl, rfl⟩).2.2.2 rfl
  let j : State := { sB with start := { sB.start with state := .joining, joinT := .running 2000, retryT := .running 500 } }
  have _ := (h.2.2.1 j (by decide) rfl (by decide)).1 rfl
  have _ := ((h.2.2.1 j (by decide) rfl (by decide)).2 rfl).1
  have _ := (((h.2.2.1 j (by decide) rfl (by decide)).2 rfl).2 rfl (by decide) rfl).1 (by decide)
  let mine : Entry := { copy0 4 3 2 .opened with copy := .stale }
  have _ := (((h.2.2.1 (with1 j mine) (by decide) rfl (by decide)).2 rfl).2 rfl (by decide) rfl).2 mine rfl rfl rfl rfl (by decide)
  have _ := (h.2.2.2.1 { j with inv := { j.inv with withdrawOwed := [4, 5] } } rfl).1 [4, 5] (by decide) (by decide) (by decide) rfl
    rfl rfl
  have _ := (h.2.2.2.1 { j with inv := { j.inv with
    phase := .waitActive, req := some { order := 7, grade := 0, garden := txt "MORVALE", charged := 50000 } } } rfl).2.1 _ 1
    (by decide) (by decide) (by decide) rfl rfl rfl rfl (by decide) (by decide) (by decide)
  have _ := (h.2.2.2.1 { with1 j (own0 4 1 .opened) with blend := { Blend.cold with
    state := .discharging, order := some { order0 .firm .settling with batch := some 4 } } } rfl).2.2 4 (own0 4 1 .opened)
    (ownR 4 1 .opened) _ (by decide) rfl rfl rfl rfl rfl rfl rfl rfl rfl (by decide) rfl rfl rfl rfl rfl rfl
  let g (q : HeadState) (c : ChestNow) : State := { joining0 sH with head := { Head.cold with
    state := q, chest := some c, waitJoin := true } }
  let done : ChestNow := { now0 with gross := some 6000, net := some 5000, cls := some .short }
  let gone : ChestNow := { now0 with voided := some 5000 }
  have _ := (h.2.2.2.2.1 (g .reported done) done 4 rfl (by decide) (by decide) (by decide) rfl rfl rfl).1 6000 5000 .short rfl rfl rfl rfl
    (by decide)
  have _ := (h.2.2.2.2.1 (g .voiding gone) gone 4 rfl (by decide) (by decide) (by decide) rfl rfl rfl).2 5000 rfl rfl rfl (by decide)
  let p (n : Nat) : LaneEntry := { item0 n .printed with how := some .printed, waits := .endOfJoin }
  let r : LooseReport := { inv := 4, ordinal := 7, source := some 1, waits := .endOfJoin }
  let m (l : List LaneEntry) (k : List LooseReport) : State :=
    joining0 { sM with mark := { Marker.cold with lane1 := lane0 l, loose := k } }
  have _ := (h.2.2.2.2.2.1 (m [item0 2 .printed, p 1] []) rfl (by decide) (by decide) (by decide) rfl rfl).1 1 (p 1) (by decide) rfl
    (by decide) rfl (by decide)
  have _ := (h.2.2.2.2.2.1 (m [item0 7 .printed] [r]) rfl (by decide) (by decide) (by decide) rfl rfl).2 r (by decide) rfl (by decide)
    (.inl rfl)
  have _ := (h.2.2.2.2.2.1 (m [] [r]) rfl (by decide) (by decide) (by decide) rfl rfl).2 r (by decide) rfl (by decide) (.inl rfl)
  let back (n : Nat) : LaneEntry := { p n with source := 3, waits := .owner }
  have _ := (h.2.2.2.2.2.1 (m [{ back 2 with source := 1 }, back 1] []) rfl (by decide) (by decide) (by decide) rfl rfl).1 1 (back 1)
    (by decide) rfl (by decide) rfl (by decide)
  let low (s : State) : State := { s with line := s.line.setPeer 1 { peer0 with roles := some (only false false false true) } }
  let u (a : Bool) (l : List Taking) (x : List Entry) : State :=
    { joining0 sP with inv := { sP.inv with table := x }, paper := { Paper.cold with acting := a, taking := l } }
  let k : Taking := { inv := 4, waits := .endOfJoin }
  have _ := ((h.2.2.2.2.2.2 (u true [] []) rfl (by decide) (by decide) (by decide)).1 rfl).1 (by decide)
  have _ := ((h.2.2.2.2.2.2 (low (u false [] [])) rfl (by decide) (by decide) (by decide)).1 rfl).1 (by decide)
  have _ := ((h.2.2.2.2.2.2 (low (u true [] [])) rfl (by decide) (by decide) (by decide)).1 rfl).2.1 rfl (by decide)
  have _ := ((h.2.2.2.2.2.2 (u false [] [copy0 4 1 2 .closed]) rfl (by decide) (by decide) (by decide)).1 rfl).2.2 (copy0 4 1 2 .closed)
    rfl (by decide) rfl rfl
  have _ := (h.2.2.2.2.2.2 (u true [k, { inv := 5, waits := .owner }] [copy0 4 1 2 .closed]) rfl (by decide) (by decide) (by decide)).2 k
    (copy0 4 1 2 .closed) rfl rfl (by decide) (by decide)
  trivial

/-! ## Frames as bytes, the queue and the invariants -/

def checked (l : List Byte) : List Byte := l ++ put2 (crc16 l)

theorem test_meets_FrameTallies (h : Obligations.FrameTallies) : True := by
  have _ := (h.1 [3#8, 1#8, 0x14#8, 0#8, 0#8]).1 (by decide)
  have _ := (h.1 (List.replicate 55 0#8)).2.1 (by decide)
  have _ := (h.1 (List.replicate 54 0#8)).2.2 (by decide) (by decide) |>.1 (by decide +kernel)
  have good (l : List Byte) := (h.1 l).2.2
  have f1 := (good (checked [3#8, 1#8, 25#8, 1#8, 7#8]) (by decide) (by decide)).2 (by decide +kernel)
  have _ := f1.1 (by decide)
  have f2 := (good (checked [3#8, 1#8, 0x14#8, 2#8, 7#8]) (by decide) (by decide)).2 (by decide +kernel)
  have _ := f2.2.1 (by decide)
  have f3 := (good (checked [25#8, 1#8, 0x14#8, 1#8, 7#8]) (by decide) (by decide)).2 (by decide +kernel)
  have _ := f3.2.2.1 (by decide)
  have f4 := (good (checked [3#8, 0#8, 0x14#8, 1#8, 7#8]) (by decide) (by decide)).2 (by decide +kernel)
  have _ := f4.2.2.2.1 (.inl (by decide))
  have f5 := (good (checked [3#8, 1#8, 0x14#8, 2#8, 7#8, 7#8]) (by decide) (by decide)).2 (by decide +kernel)
  have _ := (f5.2.2.2.2 .leaseDone (by decide) (by decide)).1 (by decide)
  have f6 := (good (checked [24#8, 24#8, 0x14#8, 1#8, 7#8]) (by decide) (by decide)).2 (by decide +kernel)
  have _ := (f6.2.2.2.2 .leaseDone (by decide) (by decide)).2 (by decide) (by decide) (by decide) (by decide) (by decide)
  have t (l : List Byte) := h.2.1 sB l (by decide) rfl
  have _ := (t [1#8]).1 (by decide)
  have _ := (t (List.replicate 55 0#8)).2.1 (by decide)
  have _ := (t (List.replicate 54 0#8)).2.2.1 (by decide +kernel)
  have _ := (t (checked [3#8, 1#8, 25#8, 1#8, 7#8])).2.2.2 (by decide +kernel)
  have _ := h.2.2.1 sB (by decide)
  have _ := h.2.2.2.2.1 sB ⟨0, 3⟩ (pres0 .active).read (by decide) rfl
  have _ := h.2.2.2.2.2 sB (by decide)
  trivial

theorem test_meets_FrameRoundTrip (h : Obligations.FrameRoundTrip) : True := by
  have _ := h { dst := 24, src := 24 } (.leaseDone 255) (by decide) (by decide)
  have _ := h { dst := 0, src := 1 } (.header
    { hdr := hdr0 3150 2 1 .opened, dump := true, resumed := false, newVoid := some ⟨5, 9, 100⟩, entryCount := 1 }) (by decide) (by decide)
  have _ := h e5 (.recordBlock { inv := 4, version := 5, items := [.chest (chest0 1), .void ⟨5, 9, 1⟩] }) (by decide) (by decide)
  trivial

theorem test_meets_StepRunsFrontCommand (h : Obligations.StepRunsFrontCommand) : True := by
  have _ := h.1 .noise [.powerOn] { sB with pending := [.noise, .powerOn] } rfl
  have _ := h.2 sB rfl
  trivial

/-- The end of a write of the memory's last byte. -/
def writing0 : State := { busy sB (.write 2047 [1#8]) with pending := [.configWriteTransferEnd] }

theorem test_meets_MemoryKept (h : Obligations.MemoryKept) : True := by
  have _ := (h writing0 _ rfl rfl).2 2046 (by intro o d hd; cases hd; decide)
  trivial

theorem test_meets_BoundsHold (h : Obligations.BoundsHold) : True := by
  have _ := h writing0 _ rfl ⟨by unfold LineBounded; decide, ⟨by decide, by decide, by decide, by decide, fun _ h => absurd h List.not_mem_nil, by decide⟩,
    by unfold ChuteBounded; decide, by unfold LanesBounded; decide⟩
  trivial

theorem test_meets_ChuteStaysOrderly (h : Obligations.ChuteStaysOrderly) : True := by
  let s : State := { sD with arb := { sD.arb with current := some lease5, next := some lease6, gate := true }
                             pending := [.leaseDone e5 (some 7)] }
  have _ := h s _ rfl (by unfold Arb.orderly; decide)
  trivial

/-! ## What WellFormed refuses: one ill-formed command for each check -/

def frame (m : Option Msg) : Bool := frameWf e5 m
def chestIll (f : Chest → Chest) : Bool := (Item.chest (f (chest0 1))).wf
def hdrIll (f : Header → Header) : Bool := (f (hdr0 4 1 1 .opened)).wf

theorem test_wf_hdr0 : hdrIll id = true := by decide
theorem test_wf_chest0 : chestIll id = true := by decide
theorem test_wf_envelope : (Instr.hold ⟨25, 5⟩ none).wf = false ∧ (Instr.hold ⟨3, 0⟩ none).wf = false ∧
    (Instr.hold ⟨3, 25⟩ none).wf = false := by decide
theorem test_wf_text : textOk 8 [] = false ∧ textOk 8 (txt "ABCDEFGHI") = false ∧ textOk 8 [0x61#8] = false ∧
    textOk 8 (txt "A1 -./:") = true := by decide
theorem test_wf_header_numbers : hdrIll (fun h => { h with inv := 0 }) = false ∧ hdrIll (fun h => { h with inv := 65536 }) = false ∧
    hdrIll (fun h => { h with owner := 25 }) = false ∧ hdrIll (fun h => { h with version := 65536 }) = false ∧
    hdrIll (fun h => { h with batch := 25 }) = false ∧ hdrIll (fun h => { h with order := 65536 }) = false := by decide
theorem test_wf_header_content : hdrIll (fun h => { h with garden := [] }) = false ∧ hdrIll (fun h => { h with grade := 256 }) = false ∧
    hdrIll (fun h => { h with charged := 500001 }) = false ∧ hdrIll (fun h => { h with planned := 256 }) = false ∧
    hdrIll (fun h => { h with entered := 256 }) = false ∧ hdrIll (fun h => { h with netTotal := 500001 }) = false := by decide
theorem test_wf_header_counts : hdrIll (fun h => { h with voidTotal := 500001 }) = false ∧
    hdrIll (fun h => { h with voidCount := 256 }) = false ∧ hdrIll (fun h => { h with residue := some 500001 }) = false ∧
    hdrIll (fun h => { h with lostFills := 256 }) = false := by decide
theorem test_wf_chest : chestIll (fun c => { c with ordinal := 0 }) = false ∧ chestIll (fun c => { c with ordinal := 256 }) = false ∧
    chestIll (fun c => { c with topups := 4 }) = false ∧ chestIll (fun c => { c with marker := some 0 }) = false ∧
    chestIll (fun c => { c with head := none }) = false ∧ chestIll (fun c => { c with head := some 0 }) = false := by decide
theorem test_wf_chest_weights : chestIll (fun c => { c with token := some 256 }) = false ∧
    chestIll (fun c => { c with gross := some 65536 }) = false ∧ chestIll (fun c => { c with tare := some 65536 }) = false ∧
    chestIll (fun c => { c with net := some 65536 }) = false := by decide
theorem test_wf_void : (Item.void ⟨25, 9, 100⟩).wf = false ∧ (Item.void ⟨5, 256, 100⟩).wf = false ∧
    (Item.void ⟨5, 9, 65536⟩).wf = false := by decide
theorem test_wf_join_presence : frame (some (.join { join0 with blender := some 25 })) = false ∧
    frame (some (.join { join0 with lane1 := some 0 })) = false ∧ frame (some (.join { join0 with lane2 := some 25 })) = false ∧
    frame (some (.presence { pres0 .active with mark := 65536 })) = false ∧
    (Instr.join e5 { joinPart with blender := some (some 25) }).wf = false ∧
    (Instr.join e5 { joinPart with lane2 := some (some 0) }).wf = false ∧ (Instr.join ⟨25, 5⟩ joinPart).wf = false ∧
    (Instr.presence e5 ⟨only true false false false, none, 65536⟩).wf = false := by decide
theorem test_wf_claim : frame (some (.claim (claim0 0))) = false ∧ frame (some (.claim { claim0 4 with order := 65536 })) = false ∧
    frame (some (.claim { claim0 4 with grade := 256 })) = false ∧ frame (some (.claim { claim0 4 with garden := [] })) = false ∧
    frame (some (.claim { claim0 4 with net := 500001 })) = false ∧ frame (some (.claim (claim0 65536))) = false := by decide
theorem test_wf_claim_answers : frame (some (.consent ⟨65536, 3⟩)) = false ∧ frame (some (.consent ⟨4, 25⟩)) = false ∧
    frame (some (.object ⟨65536, 3, .held⟩)) = false ∧ frame (some (.object ⟨4, 25, .held⟩)) = false ∧
    frame (some (.withdraw 65536)) = false := by decide
theorem test_wf_records : frame (some (.header ⟨hdr0 0 1 1 .opened, false, false, none, 0⟩)) = false ∧
    frame (some (.header ⟨hdr0 4 1 1 .opened, false, false, some ⟨25, 9, 1⟩, 0⟩)) = false ∧
    frame (some (.header ⟨hdr0 4 1 1 .opened, false, false, none, 256⟩)) = false ∧
    frame (some (.recordBlock ⟨65536, 1, [.chest (chest0 1)]⟩)) = false ∧
    frame (some (.recordBlock ⟨4, 65536, [.chest (chest0 1)]⟩)) = false ∧ frame (some (.recordBlock ⟨4, 1, []⟩)) = false := by
  decide
theorem test_wf_record_items : frame (some (.recordBlock ⟨4, 1, List.replicate 4 (.chest (chest0 1))⟩)) = false ∧
    frame (some (.recordBlock ⟨4, 1, [.chest (chest0 0)]⟩)) = false ∧ frame (some (.recordAsk 65536)) = false := by decide
theorem test_wf_chest_done : frame (some (.chestDone { done0 with inv := 65536 })) = false ∧
    frame (some (.chestDone { done0 with token := 256 })) = false ∧ frame (some (.chestDone { done0 with gross := 65536 })) = false ∧
    frame (some (.chestDone { done0 with tare := 65536 })) = false ∧ frame (some (.chestDone { done0 with net := 65536 })) = false ∧
    frame (some (.chestDone { done0 with topups := 256 })) = false := by decide
theorem test_wf_chest_entered : frame (some (.chestEntered { entered0 with inv := 65536 })) = false ∧
    frame (some (.chestEntered { entered0 with version := 65536 })) = false ∧
    frame (some (.chestEntered { entered0 with ordinal := 256 })) = false ∧
    frame (some (.chestEntered { entered0 with head := 25 })) = false ∧
    frame (some (.chestEntered { entered0 with token := 256 })) = false ∧
    frame (some (.chestEntered { entered0 with topups := 4 })) = false := by decide
theorem test_wf_chest_entered_weights : frame (some (.chestEntered { entered0 with gross := 65536 })) = false ∧
    frame (some (.chestEntered { entered0 with tare := 65536 })) = false ∧
    frame (some (.chestEntered { entered0 with net := 65536 })) = false := by decide
theorem test_wf_refused_void : frame (some (.chestRefused ⟨65536, 9, .ended⟩)) = false ∧
    frame (some (.chestRefused ⟨4, 256, .ended⟩)) = false ∧ frame (some (.fillVoid ⟨65536, 9, 1⟩)) = false ∧
    frame (some (.fillVoid ⟨4, 256, 1⟩)) = false ∧ frame (some (.fillVoid ⟨4, 9, 65536⟩)) = false := by decide
theorem test_wf_marks : frame (some (.markDone ⟨65536, 1, .hand, 8⟩)) = false ∧ frame (some (.markDone ⟨4, 256, .hand, 8⟩)) = false ∧
    frame (some (.markDone ⟨4, 1, .hand, 25⟩)) = false ∧ frame (some (.markEntered ⟨65536, 1, 1, .hand, 8⟩)) = false ∧
    frame (some (.markEntered ⟨4, 65536, 1, .hand, 8⟩)) = false ∧ frame (some (.markEntered ⟨4, 1, 256, .hand, 8⟩)) = false ∧
    frame (some (.markEntered ⟨4, 1, 1, .hand, 25⟩)) = false := by decide
theorem test_wf_adopt_sheet : frame (some (.adopt ⟨65536, 1, 1, true⟩)) = false ∧ frame (some (.adopt ⟨4, 25, 1, true⟩)) = false ∧
    frame (some (.adopt ⟨4, 1, 65536, true⟩)) = false ∧ frame (some (.sheetTaken 65536)) = false := by decide
theorem test_wf_leases : frame (some (.leaseAsk ⟨.fill, 256, 0⟩)) = false ∧ frame (some (.leaseAsk ⟨.topup, 9, 65536⟩)) = false ∧
    frame (some (.leaseGrant ⟨.next, 65536, 7⟩)) = false ∧ frame (some (.leaseGrant ⟨.next, 4, 256⟩)) = false ∧
    frame (some (.leaseDone 256)) = false ∧ frame (some (.leaseEnd ⟨256, .stopped⟩)) = false ∧
    frame (some (.leaseCancel 256)) = false := by decide
theorem test_wf_hold_go_noted : frame (some (.hold 256)) = false ∧ frame (some (.go 256)) = false ∧
    frame (some (.noted ⟨.recordAsk, 65536, .ok⟩)) = false := by decide
theorem test_wf_timers : (Instr.silenceTimerExpiry 0).wf = false ∧ (Instr.joinWatchExpiry 25).wf = false ∧
    (Instr.claimStaleTimerExpiry 65536).wf = false ∧ (Instr.versionedResendDelayExpiry 65536).wf = false ∧
    (Instr.askTimerExpiry 65536).wf = false ∧ (Instr.rebuildTimerExpiry 65536).wf = false ∧
    (Instr.closedTimerExpiry 65536).wf = false ∧ (Instr.adoptionDelayExpiry 65536).wf = false ∧
    (Instr.settleTimerExpiry 65536).wf = false ∧ (Instr.laneHoldTimerExpiry 3).wf = false := by decide
theorem test_wf_inputs : (Instr.sample 0#32 33 0).wf = false ∧ (Instr.laneEyeArrival 0).wf = false ∧
    (Instr.portRequestAborted (List.replicate 48 0#8)).wf = false := by decide
theorem test_wf_reads : (Instr.readInvoice (.good ⟨65536, 1, 1⟩)).wf = false ∧ (Instr.readInvoice (.good ⟨4, 256, 1⟩)).wf = false ∧
    (Instr.readInvoice (.good ⟨4, 1, 256⟩)).wf = false ∧ (Instr.readConfigMemory (.good ⟨65536, 1⟩)).wf = false ∧
    (Instr.readConfigMemory (.good ⟨0, 256⟩)).wf = false ∧ (Instr.readPlate (.good 256)).wf = false ∧
    (Instr.openSheet (.good (some 65536))).wf = false ∧ (Instr.readSheetPart (.good 256)).wf = false := by decide
theorem test_wf_writes : (Instr.writeConfigMemory (.good ⟨65536, [1#8]⟩)).wf = false ∧
    (Instr.writeConfigMemory (.good ⟨0, []⟩)).wf = false ∧
    (Instr.writeConfigMemory (.good ⟨0, List.replicate 33 1#8⟩)).wf = false ∧ (Instr.forceAdopt (.good 65536)).wf = false := by
  decide
theorem test_wf_order : (Instr.placeOrder (.good { orderA 1 with order := 65536 })).wf = false ∧
    (Instr.placeOrder (.good { orderA 1 with grade := 256 })).wf = false ∧
    (Instr.placeOrder (.good { orderA 1 with garden := some (List.replicate 9 65#8) })).wf = false ∧
    (Instr.placeOrder (.good { orderA 1 with mix := some 0 })).wf = false ∧
    (Instr.placeOrder (.good { orderA 1 with comps := [] })).wf = false ∧
    (Instr.placeOrder (.good { orderA 1 with comps := List.replicate 9 (4, 1) })).wf = false ∧
    (Instr.placeOrder (.good { orderA 1 with comps := [(256, 1)] })).wf = false ∧
    (Instr.placeOrder (.good (orderA 16777216))).wf = false := by decide
theorem test_wf_blend_head : (Instr.redraw (.good 256)).wf = false ∧ (Instr.carryOverSet (.good ⟨256, 1⟩)).wf = false ∧
    (Instr.carryOverSet (.good ⟨0, 16777216⟩)).wf = false := by decide
theorem test_wf_lanes : (Instr.clearLane (.good 256)).wf = false ∧ (Instr.reprint (.good 256)).wf = false ∧
    (Instr.handLane (.good 256)).wf = false ∧ (Instr.handChest (.good ⟨65536, 1⟩)).wf = false ∧
    (Instr.handChest (.good ⟨4, 256⟩)).wf = false := by decide

/-! ## Values of the manual, and one step of some commands -/

/-- The state a command leaves. -/
def did (c : Instr) (s : State) : State :=
  match exec c s with
  | .next t => t
  | _ => s

def answerOf (s : State) : Option (Byte × PortAnswer) := s.port.answer.map (fun a => (a.kind, a.code))
def sent (s : State) : List (Nat × Msg) := s.line.txq.map (fun f => (f.dst, f.msg))

/-- The check over the digits 1 to 9, as the generator and preset of R188 give it. -/
theorem test_crc16 : crc16 (txt "123456789") = 0x29B1 := by decide +kernel
/-- R147: the two kept lines of the manual's layout. -/
theorem test_plate_lines :
    renderPlate { sM with cfg := { sM.cfg with grades := List.replicate 12 grade0 } } (hdr0 3142 3 1 .opened)
      { chest0 7 with net := some 5008 } layout0 = [txt "MORVALE BOP 2025", txt "INV03142/007 50.08"] := by decide
/-- R187: the bytes of a HEADER begin with its envelope, and the fields follow in their order. -/
theorem test_header_bytes : (frameBytes ⟨0, 2⟩ (.header ⟨hdr0 3150 2 1 .opened, false, false, none, 0⟩)).take 15 =
    [0#8, 2#8, 7#8, 43#8, 0x0C#8, 0x4E#8, 2#8, 0#8, 1#8, 2#8, 0#8, 2#8, 0#8, 7#8, 0x4D#8] := by decide
theorem test_lease_done_bytes : (frameContent ⟨3, 5⟩ (.leaseDone 9)) = [3#8, 5#8, 0x14#8, 1#8, 9#8] := by decide
/-- R52 at both signs: halves are rounded toward zero. -/
theorem test_calibrate : calibrate 100 32768 5101 = 2500 ∧ calibrate 100 32768 (-4901) = -2500 := by decide
/-- The planned count of the worked sequence: 15220 over 5000. -/
theorem test_planned : sB.planned 15220 0 = 3 := by decide
theorem test_place_order : (did (.placeOrder (.good (orderA 6200))) sB).blend.state = .charging := by decide
theorem test_place_order_busy : answerOf (did (.placeOrder (.good (orderA 6200))) (drum .mixing (order0 .none .settling))) =
    some (0x10#8, .state) := by decide
theorem test_read_status_loading : answerOf (did (.readStatus (.good ())) State.reset) = some (0x01#8, .busy) := by decide
theorem test_request_wrong_role : answerOf (did (.start (.good ())) sB) = some (0x20#8, .role) := by decide
theorem test_start : (did (.start (.good ())) sH).head.state = .empty := by decide
theorem test_load_bad : (did (.configLoadEnd true) State.reset).start.state = .offlineConfig := by decide
theorem test_chest_unknown : sent (did (.chestDone e5 (some done0)) sB) =
    [(5, .chestRefused ⟨4, 9, .unknown⟩)] := by decide
theorem test_record_ask_not_held : sent (did (.recordAsk e5 (some 4)) sB) = [(5, notedMsg .recordAsk 4 .notHeld)] := by decide
theorem test_own_number_heard : (did (.noted ⟨0, 3⟩ (some ⟨.leaseDone, 1, .ok⟩)) sB).start.state = .offlineDup true := by decide
theorem test_other_destination : sent (did (.recordAsk ⟨4, 5⟩ (some 4)) sB) = [] := by decide
theorem test_invalid_body : sent (did (.recordAsk e5 none) sB) = [] := by decide
theorem test_chest_placed : (did (.chestPresenceChange true)
    { sH with head := { Head.cold with state := .empty, last := some (read0 501) } }).head.state = .taring := by decide
theorem test_power_on : (did .powerOn sB).blend = Blend.cold ∧ (did .powerOn sB).start = Start.cold .coldPower false := by decide
theorem test_unknown_kind : answerOf (did (.unknownRequest 0x7F#8 true) sB) = some (0x7F#8, .unknown) := by decide
theorem test_withFetchWord : sB.withFetchWord 8 5 = sB := rfl
theorem test_step_idle : step sB = .next sB := rfl


/-- A HEADER of this station for its invoice 4 at a version, as a change and as a repeat. -/
def hdrFrame (v : Nat) (repeats : Bool) : TxFrame :=
  jobFrame 0 (headerMsg (hdr0 4 3 v .opened) false none) (if repeats then .repeated 4 v else .versioned 4 v)
/-- R35: the frame that failed takes the repeat of its own version and the later change with it, in version order. -/
theorem test_failed_frame_holds_the_repeat :
    let t := did .collision (with1 (sending [hdrFrame 2 false, hdrFrame 2 true, hdrFrame 3 false] 24) (own0 4 1 .opened))
    t.line.txq = [] ∧ (t.inv.owned 4).map (fun o => o.resend) = some [hdrFrame 2 false, hdrFrame 2 true, hdrFrame 3 false] := by
  decide
/-- R35: a repeat that fails waits as a change does. -/
theorem test_failed_repeat_waits : ((did .collision (with1 (sending [hdrFrame 2 true] 24) (own0 4 2 .opened))).inv.owned 4).map
    (fun o => (o.resend, o.resendDelay)) = some ([hdrFrame 2 true], .running 200) := by decide
/-- R90: after CANCEL of a batch whose invoice was lost, a TOPUP for it is answered EXHAUSTED. -/
theorem test_topup_after_cancel_of_lost_batch :
    let s := drum .discharging (order0 .firm .settling)
    let t := did (.cancel (.good ())) { s with blend := { s.blend with stop := some .ownerLost } }
    t.blend.state = .blocked ∧ sent (did (.leaseAsk e5 (some (ask9 .topup))) t) = [(5, .leaseEnd ⟨0, .exhausted⟩)] := by decide
/-- R62: a warm start drops the latest weight. -/
theorem test_warm_start_drops_weight :
    (did (.restartWarm (.good ())) { sH with head := { sH.head with lastWeight := some 5 } }).head.lastWeight = none := by decide
/-- R148: the freed copy of a claim given up is no record for the job that waited for it. -/
theorem test_freed_copy_faults_waiting_job :
    let m := marker0 (lane0 [item0 1 .queued]) .idle
    let x : Entry := { copy0 4 1 0 .claimed with copy := .stale }
    let t := did (.withdraw { dst := 0, src := 1 } (some 4)) (with1 { m with mark := { m.mark with arrivals := [job1] } } x)
    (t.mark.lane1.queue.map (fun e => (e.state, e.cause)), t.mark.arrivals) = ([(.fault, some .noRecord)], []) := by decide
/-- R20, R185: the end of the join period reports the own entry's move to PRESENT. -/
theorem test_own_entry_present :
    (did .joinPeriodEnd (joining0 sB)).port.reports = [Report.of .peerPresent none none (some 3) .absent] := by decide
/-- R173, R189: FF in every place until the answer is ready, then its bytes. -/
theorem test_not_ready : sB.portReads 3 = [0xFF#8, 0xFF#8, 0xFF#8] ∧
    (sB.answer 0x02#8 .state []).portReads 2 = [0x02#8, 0x05#8] := by decide
/-- R13, R153, R154: the report of an entry that comes to PRINTED replaces the one in flight with no entry for its pair, which
is over; one that waits has no exchange and stays. -/
theorem test_stroke_replaces_loose_report :
    let s := marker0 (lane0 [item0 1 .printing]) .stroking
    let t (w : Waits) := did .strokeEnd { s with mark := { s.mark with
      loose := [{ inv := 4, ordinal := 1, source := some 5, waits := w }] } }
    ((t .nothing).mark.loose.length, (t .owner).mark.loose.length, (t .nothing).line.exchanges.length) = (0, 1, 1) := by
  decide
/-- R125, R128: an adopter keeps one version for each chest entry, whatever it issues later (log 20). -/
theorem test_adopterVersions :
    let o := OwnerRec.start { (copy0 4 1 2 .ending).data with chests := [{ chest0 1 with stencil := .printed }, placeholder 2] }
    ({ o with issued := 9 } : OwnerRec).entryVersion 4 1 = Config.entryVersion 4 1 % 3 ∧
      o.markVersion 4 1 = Config.markVersion 4 1 % 3 ∧ verOf o.entryVer 2 = none := by
  refine ⟨rfl, rfl, rfl⟩

/-- R124: the exchange left from an earlier chest is not the open exchange of the chest in progress. -/
theorem test_reportExchange :
    let s := head0 .reported .none now0
    (withEx s (ex0 (.chestDone 4 8) 0 true)).reportExchange = none ∧
      (withEx s (ex0 (.chestDone 4 9) 0 false)).reportExchange = some (ex0 (.chestDone 4 9) 0 false) := by
  decide

/-- R29, R81: a firm claim that is cancelled does not hold back the next request, which is claimed at once. -/
theorem test_cancelled_firm_claim :
    let i := { (with1 sB (own0 4 1 .claimed)).inv with mark := 4, phase := .firm 4 }
    let e := i.takeCancel.st.takeClaimAsk sB req0
    (e.st.phase, e.st.mark, e.st.cancelledFirm 4, e.acts.length) = (.queued 5 false [], 5, true, 1) := by decide

/-- R80: a change of owner gives a stop that is pending for END BATCH the cause OWNER_LOST. -/
theorem test_owner_lost_over_stopped :
    let s := with1 (drum .discharging (order0 .firm .settling)) (own0 4 1 .opened)
    let t := did (.adopt ⟨0, 1⟩ (some ⟨4, 1, 2, true⟩)) { s with blend := { s.blend with stop := some .stopped } }
    (t.blend.state, t.blend.stop, (t.inv.owned 4).isNone) = (.discharging, some .ownerLost, true) := by decide
/-- R125, R131: the HEADER of the count that a void lowers follows the CHEST-ENTERED of the same event (log 22). -/
theorem test_void_of_lost_fill :
    let o := ownR 4 1 .ending
    let o1 := { o with fills := [⟨5, 9, 1, true⟩, ⟨6, 8, 1, false⟩], short := some ⟨false, 6, 8, 2000, 1000, 1000, 0, false⟩,
                       view := { o.view with hdr := { o.view.hdr with lostFills := 1 } } }
    let t := did (.fillVoid e5 (some ⟨4, 9, 100⟩)) (with1 sB { own0 4 1 .ending with own := some o1 })
    (sent t).map (fun m => match m.2 with
      | .header h => (some h.hdr.version, some h.hdr.lostFills)
      | .chestEntered c => (some c.version, none)
      | _ => (none, none)) = [(some 2, some 1), (none, none), (some 3, none), (some 4, some 0)] := by decide
end Sys2Proof.Tests
end

/-! ## O53: the class of received bytes and the line error tallies (R3, R4)

Two layers carry the statement: `classify` is said once over bytes that pass the tests of length and check (`Framed`), and
the four tallies, read together as `Line.tallies`, are shown to be left alone by everything that the jobs of a command do. -/

namespace Sys2Proof.Machine

/-! ### The class of received bytes (R3) -/

theorem getCode_none_iff {α : Type} (codes : List α) (k : Byte) :
    getCode codes [k] = none ↔ k.toNat = 0 ∨ codes.length < k.toNat := by
  cases hk : k.toNat with
  | zero => simp [getCode, get1, hk]
  | succ n => simp [getCode, get1, hk, ← Option.eq_none_iff_forall_ne_some]

theorem getCode_of_getElem? {α : Type} {codes : List α} {k : Byte} {a : α} (h : 1 ≤ k.toNat)
    (ha : codes[k.toNat - 1]? = some a) : getCode codes [k] = some (a, []) := by
  cases hk : k.toNat with
  | zero => omega
  | succ n =>
    rw [hk, Nat.add_sub_cancel] at ha
    simp [getCode, get1, hk, ha]

theorem checkGood_iff (l : List Byte) :
    checkGood l = true ↔ l.drop (l.length - 2) = put2 (crc16 (l.take (l.length - 2))) := by
  rw [checkGood, beq_iff_eq]
  exact eq_comm

/-- The bytes pass the first three tests of R3: they are neither SHORT nor LONG, and their check is right. -/
structure Framed (l : List Byte) : Prop where
  atLeast : 6 ≤ l.length
  atMost  : l.length ≤ 54
  check   : checkGood l = true

theorem Framed.not_short {l : List Byte} (h : Framed l) : ¬ l.length < 6 := Nat.not_lt.2 h.atLeast

theorem Framed.not_long {l : List Byte} (h : Framed l) : ¬ l.length + 2 > 56 := Nat.not_lt.2 (Nat.add_le_add_right h.atMost 2)

/-- The part of the FORM test that does not read the kind's body lengths (R3). -/
def BadField (d sr n : Byte) (bodyLength : Nat) : Prop :=
  n.toNat ≠ bodyLength ∨ 24 < d.toNat ∨ sr.toNat = 0 ∨ 24 < sr.toNat

theorem classify_short {l : List Byte} (h : l.length < 6) : classify l = .short := by
  simp [classify, h]

theorem classify_long {l : List Byte} (h : 54 < l.length) : classify l = .long := by
  have h6 : ¬ l.length < 6 := by omega
  simp [classify, h6, h]

theorem classify_check {l : List Byte} (h6 : 6 ≤ l.length) (h54 : l.length ≤ 54) (hc : checkGood l = false) :
    classify l = .check := by
  have hs : ¬ l.length < 6 := by omega
  have hl : ¬ l.length + 2 > 56 := by omega
  simp only [classify, hs, hl, hc, if_false, Bool.not_false, if_true]

section
variable {d sr k n : Byte} {rest : List Byte}

theorem classify_unknownKind (h : Framed (d :: sr :: k :: n :: rest)) (hk : getCode frameKinds [k] = none) :
    classify (d :: sr :: k :: n :: rest) = .form := by
  simp only [classify, h.not_short, h.not_long, h.check, hk, if_false, Bool.not_true, Bool.false_eq_true]

/-- A known kind: the other conditions of the FORM test decide between FORM and valid. -/
theorem classify_knownKind (h : Framed (d :: sr :: k :: n :: rest)) {kind : FrameKind} {q : List Byte}
    (hk : getCode frameKinds [k] = some (kind, q)) :
    (rest.length - 2 ∉ bodyLengths kind ∨ BadField d sr n (rest.length - 2) →
      classify (d :: sr :: k :: n :: rest) = .form) ∧
    (rest.length - 2 ∈ bodyLengths kind → ¬ BadField d sr n (rest.length - 2) →
      ∃ m : Option Msg, classify (d :: sr :: k :: n :: rest) = .valid kind { dst := d.toNat, src := sr.toNat } m) := by
  have hb : (rest.take (rest.length - 2)).length = rest.length - 2 := by simp
  simp only [classify, h.not_short, h.not_long, h.check, hk, hb, if_false, Bool.not_true, Bool.false_eq_true, BadField]
  constructor
  · intro hbad
    rw [if_pos]
    simp only [Bool.not_eq_true', List.contains_eq_mem, decide_eq_false_iff_not]
    tauto
  · intro hmem hgood
    refine ⟨_, if_neg ?_⟩
    simp only [Bool.not_eq_true', List.contains_eq_mem, decide_eq_false_iff_not]
    tauto

theorem classify_badField (h : Framed (d :: sr :: k :: n :: rest)) (hb : BadField d sr n (rest.length - 2)) :
    classify (d :: sr :: k :: n :: rest) = .form := by
  cases hk : getCode frameKinds [k] with
  | none => exact classify_unknownKind h hk
  | some p => exact (classify_knownKind h hk).1 (.inr hb)

end

/-- Six bytes or more are a head of four and the rest. -/
theorem four_and_rest : ∀ {l : List Byte}, 6 ≤ l.length → ∃ d sr k n rest, l = d :: sr :: k :: n :: rest
  | d :: sr :: k :: n :: rest, _ => ⟨d, sr, k, n, rest, rfl⟩
  | [], h | [_], h | [_, _], h | [_, _, _], h => by simp at h

/-! ### The four tallies are left alone by jobs (R4) -/

/-- The four line error tallies. -/
def Line.tallies (l : Line) : Nat × Nat × Nat × Nat := (l.tallyShort, l.tallyLong, l.tallyCheck, l.tallyForm)

theorem tallies_eq_iff (l m : Line) :
    l.tallies = m.tallies ↔
      l.tallyShort = m.tallyShort ∧ l.tallyLong = m.tallyLong ∧ l.tallyCheck = m.tallyCheck ∧
        l.tallyForm = m.tallyForm := by
  simp [Line.tallies]

@[simp] theorem frameEnd_tallies (l : Line) : l.frameEnd.tallies = l.tallies := by
  unfold Line.frameEnd; split <;> rfl

@[simp] theorem dropEx_tallies (l : Line) (id : Nat) : (l.dropEx id).tallies = l.tallies := rfl

@[simp] theorem removeWhere_tallies (l : Line) (p : TxFrame → Bool) : (l.removeWhere p).tallies = l.tallies := by
  unfold Line.removeWhere
  repeat' split
  all_goals rfl

@[simp] theorem tryTransmit_tallies_eq (s : State) : s.tryTransmit.line.tallies = s.line.tallies :=
  (tallies_eq_iff _ _).2 (tryTransmit_tallies s)

@[simp] theorem tellFailed_tallies (s : State) (f : TxFrame) (b : Bool) :
    (s.tellFailed f b).1.line.tallies = s.line.tallies := by
  unfold State.tellFailed
  repeat' split
  all_goals simp

@[simp] theorem sendFrame_tallies (s : State) (f : TxFrame) : (s.sendFrame f).1.line.tallies = s.line.tallies := by
  unfold State.sendFrame
  repeat' split
  · simp
  · simp
  · rfl

/-- A new record in the exchange table (R13). -/
theorem newEx_tallies (l : Line) (x : List Exchange) (n : Nat) :
    ({ l with exchanges := x, nextEx := n } : Line).tallies = l.tallies := rfl

@[simp] theorem openExchange_tallies (s : State) (k : ExKey) (m : Msg) (d p : Nat) (b : Bool) :
    (s.openExchange k m d p b).1.line.tallies = s.line.tallies := by
  unfold State.openExchange
  dsimp only
  repeat' split
  all_goals simp [newEx_tallies]

@[simp] theorem perform1_tallies (s : State) (a : Act) : (s.perform1 a).1.line.tallies = s.line.tallies := by
  cases a <;> simp [State.perform1]

@[simp] theorem perform_tallies (l : List Act) (s : State) : (s.perform l).1.line.tallies = s.line.tallies := by
  induction l generalizing s with
  | nil => rfl
  | cons a l ih => simp [State.perform, ih]

@[simp] theorem takeStart_tallies (s : State) (e : Ev) : (s.takeStart e).1.line.tallies = s.line.tallies := by
  unfold State.takeStart
  repeat' split
  all_goals simp

@[simp] theorem takeJob_tallies (s : State) (b : Block) (e : Ev) :
    (s.takeJob b e).1.line.tallies = s.line.tallies := by
  unfold State.takeJob
  split
  · cases b <;>
      simp [State.runInv, State.runBlend, State.runArb, State.runHead, State.runMark, State.runPaper]
  · rfl

@[simp] theorem payDone_tallies (s : State) : s.payDone.1.line.tallies = s.line.tallies := by
  unfold State.payDone
  repeat' split
  all_goals simp

/-- The end of a command leaves the tallies as the command's own effect has them. -/
@[simp] theorem settle_tallies (r : State × Jobs) : (State.settle r).line.tallies = r.1.line.tallies :=
  settle_keeps (fun t => t.line.tallies = r.1.line.tallies) (fun u b e h => by simp [h]) (fun u h => by simp [h])
    (fun u h => by simp [h]) r rfl

/-! ### A frame of an invalid class (R4) -/

/-- A command that raises no job, owes nothing and leaves the line short of its gap does only its own effect. -/
theorem act_still {s t : State} {f : State → State × Jobs} (hw : s.working = true) (hf : f s = (t, []))
    (ho : t.head.owedDone = []) (hq : t.still) : s.act f = t := by
  rw [act_working s f hw, hf, settle_nil t ho, tryTransmit_quiet t hq]

theorem exec_invalidFrame (l : List Byte) (s : State) :
    exec (.invalidFrame l) s = .next (s.act (fun s => s.heardBytes l)) := rfl

/-- A frame of an invalid class raises its own tally by one up to 255, and ends as any frame (R1, R4). -/
theorem exec_invalidFrame_tallied (s : State) (l : List Byte) (hw : s.working = true) (ho : s.head.owedDone = []) :
    (classify l = .short →
      exec (.invalidFrame l) s =
        .next { s with line := { s.line.frameEnd with tallyShort := min (s.line.tallyShort + 1) 255 } }) ∧
    (classify l = .long →
      exec (.invalidFrame l) s =
        .next { s with line := { s.line.frameEnd with tallyLong := min (s.line.tallyLong + 1) 255 } }) ∧
    (classify l = .check →
      exec (.invalidFrame l) s =
        .next { s with line := { s.line.frameEnd with tallyCheck := min (s.line.tallyCheck + 1) 255 } }) ∧
    (classify l = .form →
      exec (.invalidFrame l) s =
        .next { s with line := { s.line.frameEnd with tallyForm := min (s.line.tallyForm + 1) 255 } }) := by
  obtain ⟨hS, hL, hC, hF⟩ := (tallies_eq_iff _ _).1 (frameEnd_tallies s.line)
  refine ⟨fun hc => ?_, fun hc => ?_, fun hc => ?_, fun hc => ?_⟩
  all_goals
    refine (exec_invalidFrame l s).trans (congrArg _ (act_still hw ?_ ho (frameEnd_quiet s.line)))
    simp only [State.heardBytes, hc, bump, hS, hL, hC, hF]

/-! ### READ TALLIES and the starts (R4) -/

theorem exec_readTallies {s : State} (h : PortTakes s .all) :
    exec (.readTallies (.good ())) s =
      .next (State.tryTransmit (({ s with line := { s.line with
        tallyShort := 0, tallyLong := 0, tallyCheck := 0, tallyForm := 0 } }).answer 0x05#8 .ok s.line.tallyBody)) := by
  have hr := request_good s 0x05#8 .all () (fun _ s => s.readTallies) h
  obtain ⟨_, _, _, _, _, ho⟩ := h
  exact congrArg Host.Outcome.next (hr.trans (settle_nil _ ho))

@[simp] theorem powerOn_tallies (s : State) : s.powerOn.line.tallies = Line.cold.tallies := rfl

@[simp] theorem stopTransfer_line (s : State) : s.stopTransfer.line = s.line := by
  unfold State.stopTransfer; split <;> rfl

/-- R23: a warm start keeps the tallies, in a load begun by a cold start too. -/
@[simp] theorem warmStart_tallies (s : State) (k : StartKind) : (s.warmStart k).line.tallies = s.line.tallies := by
  unfold State.warmStart
  split
  · simp
  · show (Line.warm s.stopTransfer.line).tallies = _
    rw [stopTransfer_line]
    rfl

theorem restartWarm_tallies {s : State} (h : PortTakes s .all) :
    (s.request 0x06#8 .all (.good ()) (fun _ s => s.restartWarm)).line.tallies = s.line.tallies := by
  rw [request_good s _ _ _ _ h, settle_tallies]
  simp [State.restartWarm]

/-! ### A frame with the station's own number (R6) -/

theorem goOffline_tallies (s : State) : s.goOffline.1.line.tallies = s.line.tallies := rfl

theorem goOffline_dupOffline (s : State) : s.goOffline.1.dupOffline = true := rfl

/-- A frame with the station's own number leaves the station OFFLINE and its tallies as they were (R4, R6). -/
theorem receive_own {s : State} {e : Env} (h : Heard) (m : Option Msg) (hw : s.working = true) (he : e.src = s.self) :
    (s.receive h e m).1.dupOffline = true ∧ (s.receive h e m).1.line.tallies = s.line.tallies := by
  unfold State.receive
  simp only [hw, he, Bool.not_true, Bool.false_eq_true, if_false, if_true]
  split
  · next hd => exact ⟨hd, frameEnd_tallies s.line⟩
  · exact ⟨goOffline_dupOffline _, (goOffline_tallies _).trans (frameEnd_tallies s.line)⟩

theorem settle_dupOffline (r : State × Jobs) : (State.settle r).dupOffline = r.1.dupOffline := by
  simp [State.dupOffline]

theorem exec_presence (s : State) (e : Env) (b : PresenceRead) :
    exec (.presence e b) s = .next (s.act (fun s => s.receive (.presence b) e (b.body.map .presence))) := rfl

/-! ### The obligation -/

/-- The class of received bytes is what R3's tests, in their order, say. -/
theorem classify_byTests (l : List Byte) :
    (l.length < 6 → classify l = .short) ∧
    (54 < l.length → classify l = .long) ∧
    (6 ≤ l.length → l.length ≤ 54 →
      (l.drop (l.length - 2) ≠ put2 (crc16 (l.take (l.length - 2))) → classify l = .check) ∧
      (l.drop (l.length - 2) = put2 (crc16 (l.take (l.length - 2))) →
        ((24 < (l[2]?.getD 0#8).toNat ∨ (l[2]?.getD 0#8).toNat = 0) → classify l = .form) ∧
        ((l[3]?.getD 0#8).toNat ≠ l.length - 6 → classify l = .form) ∧
        (24 < (l[0]?.getD 0#8).toNat → classify l = .form) ∧
        (((l[1]?.getD 0#8).toNat = 0 ∨ 24 < (l[1]?.getD 0#8).toNat) → classify l = .form) ∧
        (∀ k : FrameKind, frameKinds[(l[2]?.getD 0#8).toNat - 1]? = some k → 1 ≤ (l[2]?.getD 0#8).toNat →
          (l.length - 6 ∉ bodyLengths k → classify l = .form) ∧
          (l.length - 6 ∈ bodyLengths k → (l[3]?.getD 0#8).toNat = l.length - 6 → (l[0]?.getD 0#8).toNat ≤ 24 →
            1 ≤ (l[1]?.getD 0#8).toNat → (l[1]?.getD 0#8).toNat ≤ 24 →
            ∃ m : Option Msg, classify l =
              .valid k { dst := (l[0]?.getD 0#8).toNat, src := (l[1]?.getD 0#8).toNat } m)))) := by
  refine ⟨classify_short, classify_long, fun h6 h54 => ⟨fun hc => ?_, fun hc => ?_⟩⟩
  · exact classify_check h6 h54 (by rwa [← Bool.not_eq_true, checkGood_iff])
  · have hF : Framed l := ⟨h6, h54, (checkGood_iff l).2 hc⟩
    obtain ⟨d, sr, k, n, rest, rfl⟩ := four_and_rest h6
    have hlen : (d :: sr :: k :: n :: rest).length - 6 = rest.length - 2 := by simp
    rw [hlen]
    simp only [List.getElem?_cons_zero, List.getElem?_cons_succ, Option.getD_some]
    refine ⟨fun hk => classify_unknownKind hF ?_, fun hn => classify_badField hF (.inl hn),
      fun hd => classify_badField hF (.inr (.inl hd)), fun hs => classify_badField hF (.inr (.inr hs)),
      fun kind hkind hpos => ?_⟩
    · exact (getCode_none_iff frameKinds k).2 hk.symm
    · have hknown := classify_knownKind hF (getCode_of_getElem? hpos hkind)
      refine ⟨fun hm => hknown.1 (.inl hm), fun hm hn hd hs1 hs2 => hknown.2 hm ?_⟩
      unfold BadField
      omega

/-- Settles O53: the class by R3's tests, the tally of each invalid class, and what READ TALLIES, the starts and going
OFFLINE do to the four tallies. -/
theorem frameTallies : Obligations.FrameTallies := by
  refine ⟨classify_byTests, exec_invalidFrame_tallied, fun s h => exec_readTallies h,
    fun s => ⟨s.powerOn, rfl, (tallies_eq_iff _ Line.cold).1 (powerOn_tallies s)⟩, fun s e b hw he => ?_, fun s h => ?_⟩
  · obtain ⟨hoff, htal⟩ := receive_own (.presence b) (b.body.map .presence) hw he
    refine ⟨_, exec_presence s e b, ?_, (tallies_eq_iff _ _).1 ?_⟩
    · rw [act_working _ _ hw, settle_dupOffline, hoff]
    · rw [act_working _ _ hw, settle_tallies, htal]
  · exact ⟨_, rfl, (tallies_eq_iff _ _).1 (restartWarm_tallies h)⟩

end Sys2Proof.Machine

/-! ## O32, O33: the calibration and the stability test (R52, R54)

The calibration is read through the two signs of the difference, where rounding toward zero is division of the magnitude,
and through the limits of `clampInt`. The stability test is said once for a weight in the band and once for any other. -/

namespace Sys2Proof.Machine

/-! ### Holding a value within limits -/

theorem clampInt_mem {lo hi : Int} (h : lo ≤ hi) (x : Int) : lo ≤ clampInt lo hi x ∧ clampInt lo hi x ≤ hi :=
  ⟨le_max_left _ _, max_le h (min_le_left _ _)⟩

/-- The lower limit does not bind a value above it. -/
theorem clampInt_of_ge {lo hi x : Int} (h : lo ≤ hi) (hx : lo ≤ x) : clampInt lo hi x = min hi x :=
  max_eq_right (le_min h hx)

/-- The upper limit does not bind a value below it. -/
theorem clampInt_of_le {lo hi x : Int} (hx : x ≤ hi) : clampInt lo hi x = max lo x := by
  rw [clampInt, min_eq_right hx]

/-! ### The calibration (R52) -/

/-- At or above the zero count the quotient is not negative, so only the upper limit can bind. -/
theorem calibrate_of_zero_le {zero avg : Int} (span : Nat) (h : 0 ≤ avg - zero) :
    calibrate zero span avg = min 500000 ((avg - zero) * (span : Int) / 65536) := by
  have hp : 0 ≤ (avg - zero) * (span : Int) := Int.mul_nonneg h (Int.natCast_nonneg span)
  have hq : 0 ≤ (avg - zero) * (span : Int) / 65536 := Int.ediv_nonneg hp (by decide)
  rw [calibrate, Int.tdiv_eq_ediv_of_nonneg hp]
  exact clampInt_of_ge (by decide) (by omega)

/-- Below the zero count the quotient is the magnitude's, negated: rounding toward zero. Only the lower limit can bind. -/
theorem calibrate_of_lt_zero {zero avg : Int} (span : Nat) (h : avg - zero < 0) :
    calibrate zero span avg = max (-500000) (-((zero - avg) * (span : Int) / 65536)) := by
  have hp : 0 ≤ (zero - avg) * (span : Int) := Int.mul_nonneg (by omega) (Int.natCast_nonneg span)
  have hq : 0 ≤ (zero - avg) * (span : Int) / 65536 := Int.ediv_nonneg hp (by decide)
  have hneg : (avg - zero) * (span : Int) = -((zero - avg) * (span : Int)) := by rw [← Int.neg_mul, Int.neg_sub]
  rw [calibrate, hneg, Int.neg_tdiv, Int.tdiv_eq_ediv_of_nonneg hp]
  exact clampInt_of_le (by omega)

theorem calibrate_mem_limits (zero : Int) (span : Nat) (avg : Int) :
    -500000 ≤ calibrate zero span avg ∧ calibrate zero span avg ≤ 500000 :=
  clampInt_mem (by decide) _

/-- Settles O32: by the sign of the difference, and the limits for both. -/
theorem calibrationConverts : Obligations.CalibrationConverts := fun zero avg span =>
  ⟨calibrate_of_zero_le span, calibrate_of_lt_zero span, calibrate_mem_limits zero span avg⟩

/-! ### The stability test (R54) -/

theorem inBand_iff (band : Nat) (ref : Option Int) (v : Int) :
    inBand band ref v = true ↔ ∃ r : Int, ref = some r ∧ (v - r).natAbs ≤ band := by
  cases ref <;> simp [inBand]

/-- There is no reference, or the weight lies outside its band. -/
theorem not_inBand_iff (band : Nat) (ref : Option Int) (v : Int) :
    inBand band ref v = false ↔ ref = none ∨ ∃ r : Int, ref = some r ∧ band < (v - r).natAbs := by
  cases ref <;> simp [inBand]

/-- A weight in the band is counted, up to 12; the reference stays. -/
theorem stability_of_inBand {f : FrontEnd} {band : Nat} {v : Int} (h : inBand band f.ref v = true) :
    f.stability band v =
      { f with count := min (f.count + 1) 12, stable := decide (12 ≤ min (f.count + 1) 12) } := by
  simp only [FrontEnd.stability, h, if_true, ge_iff_le]

/-- Any other weight becomes the reference and is the first one counted. -/
theorem stability_of_not_inBand {f : FrontEnd} {band : Nat} {v : Int} (h : inBand band f.ref v = false) :
    f.stability band v = { f with ref := some v, count := 1, stable := false } := by
  simp [FrontEnd.stability, h]

/-- Below 12 the count rises by one, and the flag is set exactly when it reaches 12. -/
theorem stability_rises {f : FrontEnd} {band : Nat} {v : Int} (h : inBand band f.ref v = true) (hc : f.count < 12) :
    f.stability band v = { f with count := f.count + 1, stable := decide (f.count + 1 = 12) } := by
  have hmin : min (f.count + 1) 12 = f.count + 1 := min_eq_left hc
  have hflag : 12 ≤ f.count + 1 ↔ f.count + 1 = 12 := by omega
  rw [stability_of_inBand h, hmin, decide_eq_decide.2 hflag]

/-- At 12 the count stays, and the flag is set. -/
theorem stability_full {f : FrontEnd} {band : Nat} {v : Int} (h : inBand band f.ref v = true) (hc : f.count = 12) :
    f.stability band v = { f with count := 12, stable := true } := by
  simp [stability_of_inBand h, hc]

/-- Settles O33: by the weight's place against the band and the count, and what emptying and a re-taken zero do. -/
theorem stabilityDecides : Obligations.StabilityDecides := by
  intro f band v
  refine ⟨fun r hr hv hc => ?_, fun r hr hv hc => ?_, fun hout => ?_, rfl, fun _ _ => rfl⟩
  · exact stability_rises ((inBand_iff band f.ref v).2 ⟨r, hr, hv⟩) hc
  · exact stability_full ((inBand_iff band f.ref v).2 ⟨r, hr, hv⟩) hc
  · exact stability_of_not_inBand ((not_inBand_iff band f.ref v).2 hout)

end Sys2Proof.Machine

/-! ## What every step keeps: one induction for O56, O58, O59 and O60

A command is made of small changes: of the line, of the port, of one block. `Runs P` lists them and says that each keeps
`P`; `Starts P` adds the starts, the load and the memory. From the lists follows, once for every `P`, that each command
keeps `P` (`Runs.exec`, `Starts.exec`); an invariant is then a check of the list. -/

namespace Sys2Proof.Machine

/-! ### The invariant of the invoice table, the lanes and the paper unit by themselves -/

/-- The invoice table in bounds: sixteen entries at most, no number twice, none above the season mark, no fill list with a head
twice, four retired numbers at most. -/
structure Inv.Good (i : Inv) : Prop where
  room : i.table.length ≤ Config.tableEntries
  once : (i.table.map Entry.num).Nodup
  below : ∀ e ∈ i.table, e.num ≤ i.mark
  fills : ∀ e ∈ i.table, ∀ o : OwnerRec, e.own = some o → (o.fills.map (fun f => f.head)).Nodup
  retired : i.retired.length ≤ Config.retiredPlaces

/-- A lane in bounds: six chests in its queue, six in its done list. -/
structure Lane.Good (l : Lane) : Prop where
  queue : l.queue.length ≤ Config.lanePlaces
  done : l.done.length ≤ 6

/-- The marker in bounds: both lanes, and one arrival of a lane at most. -/
structure Marker.Good (m : Marker) : Prop where
  lane1 : m.lane1.Good
  lane2 : m.lane2.Good
  once : (m.arrivals.map (fun j => j.lane)).Nodup
  lanes : ∀ j ∈ m.arrivals, j.lane = 1 ∨ j.lane = 2

/-- The paper unit in bounds: sixteen sheets queued or waiting, sixteen gaps. -/
structure Paper.Good (p : Paper) : Prop where
  sheets : p.queue.length + p.waiting.length ≤ Config.tableEntries
  gaps : p.gaps.length ≤ Config.gapPlaces

/-- A line with no more queued, no more in flight, and tallies that rise only to 255. -/
structure Line.Within (l l0 : Line) : Prop where
  txq : l.txq.length ≤ l0.txq.length
  exchanges : l.exchanges.length ≤ l0.exchanges.length
  short : l.tallyShort ≤ max l0.tallyShort 255
  long : l.tallyLong ≤ max l0.tallyLong 255
  check : l.tallyCheck ≤ max l0.tallyCheck 255
  form : l.tallyForm ≤ max l0.tallyForm 255

/-! ### The small changes that commands are made of -/

/-- `P` is kept by every change that a station which has loaded makes. -/
structure Runs (P : State → Prop) : Prop where
  line : ∀ s l, Line.Within l s.line → P s → P { s with line := l }
  queue : ∀ s f, s.line.txq.length < Config.txPlaces → P s →
    P { s with line := { s.line with txq := s.line.txq ++ [f] } }
  exchange : ∀ s x n, s.line.exchanges.length < Config.exchangePlaces → P s →
    P { s with line := { s.line with exchanges := s.line.exchanges ++ [x], nextEx := n } }
  report : ∀ s r, P s → P (s.report r)
  port : ∀ s p, p.reports <:+ s.port.reports → P s → P { s with port := p }
  /-- The front end, the blend sequencer, the head, the presence input and the two free choices are in no invariant. -/
  side : ∀ s f b h pr bc d, P s →
    P { s with fe := f, blend := b, head := h, presence := pr, blockChoice := bc, draws := d }
  start : ∀ s st, st.state = s.start.state ∨ st.state ≠ .loading → st.isCold = s.start.isCold → P s →
    P { s with start := st }
  inv : ∀ s i, s.start.state ≠ .loading → (s.inv.Good → i.Good) → P s → P { s with inv := i }
  arb : ∀ s e, s.start.state ≠ .loading → P s → P { s with arb := (takeArb s e).st }
  mark : ∀ s m, (s.mark.Good → m.Good) → P s → P { s with mark := m }
  paper : ∀ s p, (s.paper.Good → p.Good) → P s → P { s with paper := p }

/-- The state that a good load leaves, before its reports and frames (R180, R182). -/
def State.tookLoad (s : State) (c : Cfg) : State :=
  let conv := s.converts c
  let s1 := (if conv then s.coldBlocks else s).takeCfg c (s.start.isCold || conv)
  { s1 with start := { s1.start with
    state := .joining, fault := none, rejected := c.rejected, converted := conv,
    warmCount := if conv then 0 else s1.start.warmCount } }

/-- `P` is kept by every change, those of starts, loads and memory writes included. -/
structure Starts (P : State → Prop) : Prop extends Runs P where
  memory : ∀ s m, P s → P { s with cfgMem := m }
  cold : ∀ s k, P s → P (s.coldStart k)
  warm : ∀ s k, P s → P (s.warmStart k)
  load : ∀ s c a, s.start.state = .loading → loadMemory s.cfgMem a = .inr c → P s → P (s.tookLoad c)

/-! ### Lines that hold no more -/

namespace Line.Within

theorem refl (l : Line) : Line.Within l l := 
  ⟨le_rfl, le_rfl, le_max_left _ _, le_max_left _ _, le_max_left _ _, le_max_left _ _⟩

theorem trans {l m n : Line} (a : Line.Within l m) (b : Line.Within m n) : Line.Within l n := by
  obtain ⟨a1, a2, a3, a4, a5, a6⟩ := a
  obtain ⟨b1, b2, b3, b4, b5, b6⟩ := b
  have rises {x y z : Nat} (ha : x ≤ max y 255) (hb : y ≤ max z 255) : x ≤ max z 255 :=
    ha.trans (max_le hb (le_max_right _ _))
  exact ⟨a1.trans b1, a2.trans b2, rises a3 b3, rises a4 b4, rises a5 b5, rises a6 b6⟩

/-- A line that keeps its tallies and holds no more frames and exchanges. -/
theorem of_lists {l l0 : Line} (ht : l.tallies = l0.tallies) (hq : l.txq.length ≤ l0.txq.length)
    (hx : l.exchanges.length ≤ l0.exchanges.length) : Line.Within l l0 := by
  obtain ⟨h1, h2, h3, h4⟩ := (tallies_eq_iff l l0).1 ht
  exact ⟨hq, hx, le_max_of_le_left h1.le, le_max_of_le_left h2.le, le_max_of_le_left h3.le, le_max_of_le_left h4.le⟩

theorem frameEnd (l : Line) : Line.Within l.frameEnd l := of_lists (by simp) (by simp) (by simp)

theorem dropEx (l : Line) (id : Nat) : Line.Within (l.dropEx id) l :=
  of_lists rfl le_rfl (List.length_filter_le _ _)

theorem removeWhere (l : Line) (p : TxFrame → Bool) : Line.Within (l.removeWhere p) l := by
  refine of_lists (by simp) ?_ ?_ <;> unfold Line.removeWhere <;> split
  · exact le_rfl
  · next f q hq =>
      have := List.length_filter_le (fun g => !p g) q
      repeat' split
      all_goals simp only [hq, List.length_cons]; omega
  · exact le_rfl
  · repeat' split
    all_goals exact le_rfl

theorem setPeer (l : Line) (n : Nat) (p : Peer) : Line.Within (l.setPeer n p) l := by
  cases n with
  | zero => exact refl l
  | succ k => exact of_lists rfl le_rfl le_rfl

theorem restEx (l : Line) (n more : Nat) : Line.Within (l.restEx n more) l :=
  of_lists rfl le_rfl (by simp [Line.restEx])

theorem endAll (l : Line) (x : List Exchange) : Line.Within (l.endAll x) l := by
  induction x generalizing l with
  | nil => exact refl l
  | cons x r ih => exact (ih _).trans ((removeWhere _ _).trans (dropEx l x.id))

end Line.Within

/-! ### The operations that the commands share -/

namespace Runs

variable {P : State → Prop} {s : State}

/-- A change of the line that holds no more. -/
theorem within (h : Runs P) {l : Line} (hl : Line.Within l s.line) (hp : P s) : P { s with line := l } := h.line s l hl hp

theorem tellFailed (h : Runs P) (f : TxFrame) (b : Bool) (hp : P s) : P (s.tellFailed f b).1 := by
  unfold State.tellFailed
  repeat' split
  all_goals first
    | exact hp
    | exact h.within (.dropEx _ _) hp
    | exact h.report _ _ (h.within (.dropEx _ _) hp)

theorem sendFrame (h : Runs P) (f : TxFrame) (hp : P s) : P (s.sendFrame f).1 := by
  unfold State.sendFrame
  split
  · exact h.tellFailed f true hp
  · split
    · exact h.tellFailed f true (h.report _ _ hp)
    · next hroom =>
        refine h.queue s f ?_ hp
        have : f.places ≤ Config.txPlaces := by unfold TxFrame.places; split <;> decide
        omega

theorem openExchange (h : Runs P) (k : ExKey) (m : Msg) (d p : Nat) (b : Bool) (hp : P s) :
    P (s.openExchange k m d p b).1 := by
  unfold State.openExchange
  dsimp only
  split
  · exact hp
  · split
    · split
      · exact h.report _ _ hp
      · next hroom => exact h.sendFrame _ (h.exchange s _ _ (Nat.lt_of_not_le hroom) hp)
    · next y _ =>
      have hold := h.within ((Line.Within.removeWhere _ (TxFrame.ofExch y.id)).trans (.dropEx s.line y.id)) hp
      split
      · exact h.report _ _ hold
      · next hroom => exact h.sendFrame _ (h.exchange _ _ _ (Nat.lt_of_not_le hroom) hold)

/-- A block is told, or the choice of an order is used up. -/
theorem usedChoice (h : Runs P) (hp : P s) : P s.usedChoice := h.side s s.fe s.blend s.head s.presence _ s.draws hp

theorem perform1 (h : Runs P) (a : Act) (hp : P s) : P (s.perform1 a).1 := by
  cases a with
  | send f => exact h.sendFrame f hp
  | unsend u => exact h.within (.removeWhere _ _) hp
  | openEx k m d p b => exact h.openExchange k m d p b hp
  | report r => exact h.report s r hp
  | post b e => exact hp
  | tell e => exact h.usedChoice hp
  | track on => exact h.side s _ s.blend s.head s.presence s.blockChoice s.draws hp

theorem perform (h : Runs P) (l : List Act) (hp : P s) : P (s.perform l).1 := by
  induction l generalizing s with
  | nil => exact hp
  | cons a l ih => exact ih (h.perform1 a hp)

theorem draws (h : Runs P) (d : Nat) (hp : P s) : P { s with draws := d } :=
  h.side s s.fe s.blend s.head s.presence s.blockChoice d hp

theorem head (h : Runs P) (x : Head) (hp : P s) : P { s with head := x } :=
  h.side s s.fe s.blend x s.presence s.blockChoice s.draws hp

theorem runBlend (h : Runs P) (e : Eff Blend) (hp : P s) : P (s.runBlend e).1 :=
  h.perform _ (h.side s s.fe e.st s.head s.presence s.blockChoice s.draws hp)

theorem runHead (h : Runs P) (e : Eff Head) (hp : P s) : P (s.runHead e).1 := h.perform _ (h.head e.st hp)

theorem runInv (h : Runs P) (e : Eff Inv) (hs : s.start.state ≠ .loading) (hg : s.inv.Good → e.st.Good) (hp : P s) :
    P (s.runInv e).1 := h.perform _ (h.inv s e.st hs hg hp)

theorem runMark (h : Runs P) (e : Eff Marker) (hg : s.mark.Good → e.st.Good) (hp : P s) : P (s.runMark e).1 :=
  h.perform _ (h.mark s e.st hg hp)

theorem runPaper (h : Runs P) (e : Eff Paper) (hg : s.paper.Good → e.st.Good) (hp : P s) : P (s.runPaper e).1 :=
  h.perform _ (h.paper s e.st hg hp)

theorem takeStart (h : Runs P) (e : Ev) (hp : P s) : P (s.takeStart e).1 := by
  unfold State.takeStart
  split
  · split
    · exact h.usedChoice (h.start s _ (.inl rfl) rfl hp)
    · exact hp
  · dsimp only
    split
    · exact h.start s _ (.inl rfl) rfl hp
    · exact hp
  · exact hp

end Runs

/-- A working station has loaded. -/
theorem loaded_of_working {s : State} (h : s.working = true) : s.start.state ≠ .loading := by
  intro hl
  simp [State.working, hl] at h

end Sys2Proof.Machine

/-! ### What a block's answer leaves: the state of a composed answer -/

namespace Sys2Proof.Machine

/-- The state of two answers in turn is the second's. -/
theorem Eff.andThen_keeps {σ : Type} {Q : σ → Prop} {e : Eff σ} {f : σ → Eff σ} (h : Q (f e.st).st) :
    Q (e.andThen f).st := h

/-- A property that every call of `f` keeps is kept by the calls in turn. -/
theorem Eff.each_keeps {σ α : Type} (Q : σ → Prop) (f : α → σ → Eff σ) (h : ∀ a x, Q x → Q (f a x).st) :
    ∀ (l : List α) (x : σ), Q x → Q (Eff.each f l x).st
  | [], _, hx => hx
  | a :: l, x, hx => Eff.each_keeps Q f h l _ (h a x hx)

/-! ### The invoice table stays in bounds: changes of the table -/

/-- A fill list of the entry's owner names a head once. -/
def Entry.FillsOnce (e : Entry) : Prop := ∀ o : OwnerRec, e.own = some o → (o.fills.map (fun f => f.head)).Nodup

theorem Entry.fillsOnce_of_none {e : Entry} (h : e.own = none) : e.FillsOnce := fun o ho => by simp [h] at ho

theorem mem_of_find {i : Inv} {n : Nat} {e : Entry} (h : i.find n = some e) : e ∈ i.table := List.mem_of_find?_eq_some h

/-- Both answers of a choice are good. -/
theorem ite_good {c : Prop} [Decidable c] {a b : Eff Inv} (ha : a.st.Good) (hb : b.st.Good) :
    (if c then a else b).st.Good := by split <;> assumption

/-- An invoice without an entry has a number that no entry has. -/
theorem num_notMem_of_find_none {i : Inv} {n : Nat} (h : i.find n = none) : n ∉ i.table.map Entry.num := by
  rw [List.mem_map]
  rintro ⟨e, he, hn⟩
  have := List.find?_eq_none.1 h e he
  simp [hn] at this

theorem room_of_not_full {i : Inv} (h : ¬ i.full = true) : i.table.length < Config.tableEntries := by
  simpa [Inv.full] using h

namespace Inv.Good

variable {i : Inv}

/-- The bounds read the table, the mark and the retired list. -/
theorem of_same {j : Inv} (hg : i.Good) (h : (j.table, j.mark, j.retired) = (i.table, i.mark, i.retired)) :
    j.Good := by
  obtain ⟨ht, hm, hr⟩ : j.table = i.table ∧ j.mark = i.mark ∧ j.retired = i.retired := by simpa only [Prod.mk.injEq] using h
  exact ⟨ht ▸ hg.room, ht ▸ hg.once, ht ▸ hm ▸ hg.below, ht ▸ hg.fills, hr ▸ hg.retired⟩

theorem fillsOnce (hg : i.Good) {n : Nat} {e : Entry} (h : i.find n = some e) : e.FillsOnce :=
  hg.fills e (mem_of_find h)

theorem fillsOnce_owned (hg : i.Good) {n : Nat} {o : OwnerRec} (h : i.owned n = some o) :
    (o.fills.map (fun f => f.head)).Nodup := by
  unfold Inv.owned at h
  split at h
  · cases h
  · next e he => exact hg.fillsOnce he o h

/-- Every entry changed, each keeping its number and a fill list in order. -/
theorem map (hg : i.Good) (f : Entry → Entry) (hn : ∀ e, (f e).num = e.num)
    (hf : ∀ e, e.FillsOnce → (f e).FillsOnce) : ({ i with table := i.table.map f } : Inv).Good := by
  have hnums : (i.table.map f).map Entry.num = i.table.map Entry.num := by
    rw [List.map_map]; exact List.map_congr_left fun e _ => hn e
  refine ⟨by simpa using hg.room, by simpa only [hnums] using hg.once, ?_, ?_, hg.retired⟩
  · simp only [List.mem_map, forall_exists_index, and_imp, forall_apply_eq_imp_iff₂]
    intro e he
    rw [hn]
    exact hg.below e he
  · simp only [List.mem_map, forall_exists_index, and_imp, forall_apply_eq_imp_iff₂]
    exact fun e he => hf e (hg.fills e he)

/-- One entry changed, keeping its number and a fill list in order. -/
theorem upd (hg : i.Good) (n : Nat) (f : Entry → Entry) (hn : ∀ e, e.num = n → (f e).num = n)
    (hf : ∀ e, e.FillsOnce → (f e).FillsOnce) : (i.upd n f).Good := by
  refine hg.map _ (fun e => ?_) (fun e he => ?_)
  · split
    · next h => rw [hn e (beq_iff_eq.1 h), beq_iff_eq.1 h]
    · rfl
  · split
    · exact hf e he
    · exact he

/-- A change of an entry that touches neither its number nor its owner's records. -/
theorem upd_plain (hg : i.Good) (n : Nat) (f : Entry → Entry) (hn : ∀ e, (f e).num = e.num)
    (ho : ∀ e, (f e).own = e.own) :
    (i.upd n f).Good :=
  hg.upd n f (fun e h => (hn e).trans h) (fun e he o h => he o ((ho e).symm.trans h))

/-- An entry that stands in the place of the one of its number. -/
theorem replace (hg : i.Good) (n : Nat) (e : Entry) (hn : e.num = n) (hf : e.FillsOnce) : (i.upd n (fun _ => e)).Good :=
  hg.upd n _ (fun _ _ => hn) (fun _ _ => hf)

/-- The owner's records of an entry changed, its fill list staying in order. -/
theorem updOwn (hg : i.Good) (n : Nat) (f : OwnerRec → OwnerRec)
    (hf : ∀ o : OwnerRec, (o.fills.map (fun f => f.head)).Nodup → ((f o).fills.map (fun f => f.head)).Nodup) :
    (i.updOwn n f).Good := by
  refine hg.upd n _ (fun e h => h) (fun e he o ho => ?_)
  obtain ⟨o', ho', rfl⟩ := Option.map_eq_some_iff.1 ho
  exact hf o' (he o' ho')

/-- The owner's records of an entry changed but for its fill list. -/
theorem updOwn_plain (hg : i.Good) (n : Nat) (f : OwnerRec → OwnerRec)
    (hf : ∀ o : OwnerRec, (f o).fills = o.fills) :
    (i.updOwn n f).Good := hg.updOwn n f (fun o h => by rwa [hf o])

/-- Entries leave the table. -/
theorem filter (hg : i.Good) (p : Entry → Bool) : ({ i with table := i.table.filter p } : Inv).Good :=
  ⟨(List.length_filter_le _ _).trans hg.room, hg.once.sublist (List.filter_sublist.map _),
    fun e he => hg.below e (List.mem_of_mem_filter he), fun e he => hg.fills e (List.mem_of_mem_filter he), hg.retired⟩

theorem free (hg : i.Good) (n : Nat) (gap : Bool) : (i.free n gap).st.Good := hg.filter _

/-- An entry of a new number joins the table. -/
theorem append (hg : i.Good) (e : Entry) (hroom : i.table.length < Config.tableEntries) (hnew : e.num ∉ i.table.map Entry.num)
    (hle : e.num ≤ i.mark) (hf : e.FillsOnce) : ({ i with table := i.table ++ [e] } : Inv).Good := by
  refine ⟨?_, ?_, ?_, ?_, hg.retired⟩
  · simpa using hroom
  · rw [List.map_append]
    exact List.nodup_append.2 ⟨hg.once, by simp, by rintro a ha b hb rfl; simp at hb; exact hnew (hb ▸ ha)⟩
  · intro x hx
    rcases List.mem_append.1 hx with h | h
    · exact hg.below x h
    · rw [List.mem_singleton.1 h]; exact hle
  · intro x hx
    rcases List.mem_append.1 hx with h | h
    · exact hg.fills x h
    · rw [List.mem_singleton.1 h]; exact hf

/-- The season mark rises. -/
theorem rise (hg : i.Good) {m : Nat} (h : i.mark ≤ m) : ({ i with mark := m } : Inv).Good :=
  ⟨hg.room, hg.once, fun e he => (hg.below e he).trans h, hg.fills, hg.retired⟩

theorem raise (hg : i.Good) (n : Nat) : (i.raise n).Good := hg.rise (le_max_left _ _)

/-! ### Asks, issued changes and dumps -/

theorem askTo (hg : i.Good) (n d : Nat) : (i.askTo n d).st.Good := hg.upd_plain n _ (by intro _; rfl) (by intro _; rfl)

theorem ask (hg : i.Good) (s : State) (n d : Nat) : (i.ask s n d).st.Good := by
  unfold Inv.ask
  repeat' split
  · exact hg
  · exact hg
  · exact hg.askTo n d

theorem askOwner (hg : i.Good) (s : State) (n : Nat) : (i.askOwner s n).st.Good := by
  unfold Inv.askOwner
  split
  · exact hg
  · exact hg.ask s n _

theorem askUnheld (hg : i.Good) (n d : Nat) : (i.askUnheld n d).st.Good := by
  unfold Inv.askUnheld
  split
  · exact hg
  · exact hg.of_same (by rfl)

theorem stale (hg : i.Good) (s : State) (n d : Nat) : (i.stale s n d).st.Good := ask (hg.upd_plain n _ (by intro _; rfl) (by intro _; rfl)) s n d

theorem sendOwned (hg : i.Good) (n : Nat) (f : TxFrame) : (i.sendOwned n f).st.Good := by
  unfold Inv.sendOwned
  split
  · next e he =>
      split
      · next o ho =>
          split
          · exact hg.upd n _ (fun _ h => h) (fun _ _ o' ho' => by cases ho'; exact hg.fillsOnce he o ho)
          · exact hg
      · exact hg
  · exact hg

theorem issueAt (hg : i.Good) (n v : Nat) (r : Rec) (m : Msg) : (i.issueAt n v r m).st.Good :=
  sendOwned (hg.updOwn_plain n _ (by intro _; rfl)) n _

theorem issue (hg : i.Good) (n : Nat) (chg : Rec → Rec) (msg : Rec → Msg) : (i.issue n chg msg).st.Good := by
  unfold Inv.issue
  repeat' split
  · exact hg
  · exact hg
  · exact hg.issueAt n _ _ _

theorem issueHdr (hg : i.Good) (n : Nat) (chg : Header → Header) : (i.issueHdr n chg).st.Good := hg.issue n _ _

theorem repeatHeader (hg : i.Good) (n : Nat) : (i.repeatHeader n).st.Good := by
  unfold Inv.repeatHeader
  split
  · exact hg
  · exact hg.sendOwned n _

theorem startDump (hg : i.Good) (n : Nat) : (i.startDump n).st.Good := by
  unfold Inv.startDump
  split
  · exact hg
  · exact hg.updOwn_plain n _ (by intro _; rfl)

theorem nextBlock (hg : i.Good) (n : Nat) : (i.nextBlock n).st.Good := by
  unfold Inv.nextBlock
  repeat' split
  · exact hg
  · exact hg
  · exact hg.updOwn_plain n _ (by intro _; rfl)
  · exact hg.updOwn_plain n _ (by intro _; rfl)

theorem takeAsk (hg : i.Good) (src n : Nat) : (i.takeAsk src n).st.Good := by
  unfold Inv.takeAsk
  repeat' split
  · exact hg
  · exact hg
  · exact hg.startDump n

/-! ### The owner's chests, voids and marks -/

theorem lostHeader (hg : i.Good) (n : Nat) (f : Option (Nat → Nat)) : (i.lostHeader n f).st.Good := by
  cases f with
  | none => exact hg
  | some f =>
      unfold Inv.lostHeader
      exact hg.issueHdr n _

theorem dropFill (hg : i.Good) (n head token : Nat) : (i.dropFill n head token).Good :=
  hg.updOwn n _ (fun _ h => h.sublist (List.filter_sublist.map _))

theorem enter (hg : i.Good) (n : Nat) (c : Chest) : (i.enter n c).st.Good :=
  updOwn_plain (hg.issue n _ _) n _ (by intro _; rfl)

theorem shortTest (hg : i.Good) (n : Nat) : (i.shortTest n).st.Good := by
  unfold Inv.shortTest
  repeat' split
  any_goals exact hg
  exact updOwn_plain (enter (hg.dropFill n _ _) n _) n _ (by intro _; rfl)

theorem closeTest (hg : i.Good) (n : Nat) : (i.closeTest n).st.Good := by
  unfold Inv.closeTest
  repeat' split
  any_goals exact hg
  exact hg.issueHdr n _

theorem endTest (hg : i.Good) (n : Nat) : (i.endTest n).st.Good := by
  unfold Inv.endTest
  repeat' split
  any_goals exact hg
  exact (hg.issueHdr n _).closeTest n

theorem conclude (hg : i.Good) (n : Nat) (lost : Option (Nat → Nat)) : (i.conclude n lost).st.Good :=
  ((hg.shortTest n).lostHeader n lost).endTest n

theorem tests (hg : i.Good) (n : Nat) : (i.tests n).st.Good := hg.conclude n none

end Inv.Good

/-- The heads of a fill list after a grant: those before, and the head where it is new (R126). -/
theorem grantFill_nodup (l : List Fill) (head token : Nat) (h : (l.map (fun f => f.head)).Nodup) :
    ((grantFill l head token).1.map (fun f => f.head)).Nodup := by
  have same : ∀ g : Fill → Fill, (∀ f, f.head = head → (g f).head = head) →
      (l.map (fun f => if f.head == head then g f else f)).map (fun f => f.head) = l.map (fun f => f.head) := by
    intro g hgr
    rw [List.map_map]
    refine List.map_congr_left fun f _ => ?_
    by_cases hf : f.head = head <;> simp [hf, hgr]
  unfold grantFill
  dsimp only
  split
  · next hnone =>
      have hnew : head ∉ l.map (fun f => f.head) := by
        rw [List.mem_map]
        rintro ⟨f, hf, rfl⟩
        simpa using List.find?_eq_none.1 hnone f hf
      simpa [List.nodup_append, h] using hnew
  · split
    · exact (same (fun g => { g with leases := min (g.leases + 1) 255, lost := false }) (fun _ hf => hf)).symm ▸ h
    · exact (same (fun _ => { head := head, token := token, leases := 1, lost := false }) (fun _ _ => rfl)).symm ▸ h

namespace Inv.Good

variable {i : Inv}

theorem takeGrant (hg : i.Good) (l : Lease) : (i.takeGrant l).st.Good := by
  unfold Inv.takeGrant
  split
  · exact hg
  · next o ho =>
      split
      · refine lostHeader (hg.updOwn _ _ ?_) _ _
        exact fun _ _ => grantFill_nodup _ _ _ (hg.fillsOnce_owned ho)
      · exact hg

end Inv.Good
end Sys2Proof.Machine

namespace Sys2Proof.Machine

theorem heads_map (l : List Fill) (g : Fill → Fill) (hg : ∀ f, (g f).head = f.head) :
    (l.map g).map (fun f => f.head) = l.map (fun f => f.head) := by
  rw [List.map_map]
  exact List.map_congr_left fun f _ => hg f

namespace Inv.Good

variable {i : Inv}

/-- Fills changed one by one, each keeping its head. -/
theorem updFills (hg : i.Good) (n : Nat) (g : Fill → Fill) (h : ∀ f, (g f).head = f.head) :
    (i.updOwn n (fun o => { o with fills := o.fills.map g })).Good :=
  hg.updOwn n _ (fun o ho => by rw [heads_map _ g h]; exact ho)

theorem loseFills (hg : i.Good) (n : Nat) (p : Fill → Bool) : (i.loseFills n p).st.Good := by
  unfold Inv.loseFills
  split
  · exact hg
  · refine conclude (hg.updFills n _ fun f => ?_) n _
    split <;> rfl

theorem headGone (hg : i.Good) (head : Nat) : (i.headGone head).st.Good := by
  refine Eff.each_keeps Inv.Good _ (fun n i hi => ?_) _ i hg
  repeat' split
  · exact hi
  · exact hi.loseFills n _
  · exact hi

theorem refuseFill (hg : i.Good) (n src token : Nat) (r : RefuseReason) : (i.refuseFill n src token r).st.Good := by
  unfold Inv.refuseFill
  split
  · exact hg
  · exact conclude (hg.dropFill n src token) n _

theorem again (hg : i.Good) (s : State) (n v : Nat) (m : Msg) : (i.again s n v m).st.Good := by
  unfold Inv.again
  repeat' split
  · exact hg
  · exact hg
  · exact hg.sendOwned n _

theorem takeFull (hg : i.Good) (o : OwnerRec) (src : Nat) (b : ChestDoneBody) : (i.takeFull o src b).st.Good := by
  unfold Inv.takeFull
  exact ite_good (hg.refuseFill _ _ _ _)
    (ite_good (hg.refuseFill _ _ _ _) (conclude (enter (hg.dropFill _ _ _) _ _) _ _))

theorem takeShort (hg : i.Good) (o : OwnerRec) (src : Nat) (b : ChestDoneBody) : (i.takeShort o src b).st.Good := by
  unfold Inv.takeShort
  refine ite_good (hg.refuseFill _ _ _ _) (ite_good (hg.refuseFill _ _ _ _) (conclude (hg.updOwn _ _ fun o ho => ?_) _ _))
  rw [heads_map _ _ fun f => ?_]
  · exact ho
  · split <;> rfl

theorem takeChestDone (hg : i.Good) (s : State) (src : Nat) (b : ChestDoneBody) :
    (i.takeChestDone s src b).st.Good := by
  unfold Inv.takeChestDone
  repeat' split
  · exact hg
  · exact hg
  · exact hg.again s _ _ _
  · exact hg
  · exact hg.refuseFill _ _ _ _
  · exact refuseFill (i := (Eff.mk' i _).st) hg _ _ _ _
  · exact hg.refuseFill _ _ _ _
  · exact hg.takeFull _ _ _
  · exact hg.takeShort _ _ _

theorem takeVoid (hg : i.Good) (src : Nat) (b : VoidBody) : (i.takeVoid src b).st.Good := by
  unfold Inv.takeVoid
  dsimp only
  repeat' split
  · exact hg
  · exact hg
  · exact hg
  · exact hg
  · exact hg.refuseFill _ _ _ _
  · exact refuseFill (i := (Eff.mk' i _).st) hg _ _ _ _
  · have hkept (n : Nat) (f : OwnerRec → OwnerRec) (hf : ∀ o, (f o).fills = o.fills) :
        ((i.dropFill n src b.token).updOwn n f).Good := updOwn_plain (hg.dropFill _ _ _) _ _ hf
    refine Eff.andThen_keeps (Q := Inv.Good) (conclude (i := Eff.st (Eff.act _ _)) (issue (hkept _ _ fun o => ?_) _ _ _) _ _)
    split <;> rfl

theorem takeMark (hg : i.Good) (s : State) (src : Nat) (b : MarkDoneBody) : (i.takeMark s src b).st.Good := by
  unfold Inv.takeMark
  dsimp only
  repeat' split
  · exact hg
  · exact hg
  · exact hg.again s _ _ _
  · exact hg
  · exact closeTest (updOwn_plain (hg.issue _ _ _) _ _ (by intro _; rfl)) _

theorem endInvoice (hg : i.Good) (n : Nat) (c : EndCause) (r : Option Nat) : (i.endInvoice n c r).st.Good := by
  unfold Inv.endInvoice
  repeat' split
  · exact hg
  · exact (hg.issueHdr n _).tests n
  · exact hg

theorem settled (hg : i.Good) (n : Nat) : (i.settled n).st.Good :=
  loseFills (hg.updOwn_plain n _ (by intro _; rfl)) n _

theorem takeSheet (hg : i.Good) (s : State) (n : Nat) : (i.takeSheet s n).st.Good := by
  unfold Inv.takeSheet
  dsimp only
  repeat' split
  · exact hg.issueHdr n _
  · exact updOwn_plain (hg.issueHdr n _) n _ (by intro _; rfl)
  all_goals exact hg

/-! ### Claims -/

theorem claim (hg : i.Good) (s : State) (q : ClaimReq) (hroom : ¬ i.full = true) : (i.claim s q).st.Good := by
  let h := s.claimHeader (i.mark + 1) s.self q.order q.grade q.charged q.garden
  have hnew : i.mark + 1 ∉ i.table.map Entry.num := by
    rw [List.mem_map]
    rintro ⟨e, he, hn⟩
    have := hg.below e he
    omega
  have := append (hg.rise (Nat.le_succ i.mark))
    { Entry.made h .complete with own := some (OwnerRec.start (Entry.made h .complete).data) }
    (room_of_not_full hroom) hnew le_rfl (fun o ho => by cases ho; exact List.nodup_nil)
  exact this.of_same (by rfl)

theorem tryClaim (hg : i.Good) (s : State) : (i.tryClaim s).st.Good := by
  unfold Inv.tryClaim
  repeat' split
  · exact hg.of_same (by rfl)
  · exact hg.of_same (by rfl)
  · exact hg.of_same (by rfl)
  · exact hg.of_same (by rfl)
  · exact hg.of_same (by rfl)
  · next hroom _ => exact hg.claim s _ hroom

theorem goFirm (hg : i.Good) (n : Nat) : (i.goFirm n).st.Good := issueHdr (hg.of_same (by rfl)) n _

theorem claimDone (hg : i.Good) (s : State) (n : Nat) : (i.claimDone s n).st.Good := by
  unfold Inv.claimDone
  dsimp only
  repeat' split
  any_goals exact hg.goFirm n
  any_goals exact hg
  all_goals exact hg.of_same (by rfl)

theorem withdraw (hg : i.Good) (n : Nat) : (i.withdraw n).st.Good :=
  free (i := { i with claimWindow := .stopped }) (hg.of_same (by rfl)) n true

theorem noConsent (hg : i.Good) (n : Nat) : (i.noConsent n).st.Good := (hg.withdraw n).of_same (by rfl)

theorem windowExpired (hg : i.Good) : i.windowExpired.st.Good := by
  unfold Inv.windowExpired
  repeat' split
  any_goals exact hg
  · exact hg.noConsent _
  · exact hg.of_same (by rfl)

theorem claimFailed (hg : i.Good) (n : Nat) : (i.claimFailed n).st.Good := by
  unfold Inv.claimFailed
  repeat' split
  any_goals exact hg
  · exact hg.noConsent n
  · exact (hg.free n true).of_same (by rfl)

theorem retryExpired (hg : i.Good) (s : State) : (i.retryExpired s).st.Good := by
  unfold Inv.retryExpired
  split
  · exact tryClaim (hg.of_same (by rfl)) s
  · exact hg

theorem leaveSet (hg : i.Good) (src : Nat) : (i.leaveSet src).st.Good := by
  unfold Inv.leaveSet
  dsimp only
  repeat' split
  any_goals exact hg.goFirm _
  any_goals exact hg
  all_goals exact hg.of_same (by rfl)

theorem takeConsent (hg : i.Good) (s : State) (src : Nat) (b : ConsentBody) : (i.takeConsent s src b).st.Good := by
  unfold Inv.takeConsent
  split
  · exact hg.leaveSet src
  · exact hg

theorem takeObject (hg : i.Good) (s : State) (b : ObjectBody) : (i.takeObject s b).st.Good := by
  unfold Inv.takeObject
  split
  · exact (hg.withdraw _).tryClaim s
  · exact hg

theorem takeCancel (hg : i.Good) : i.takeCancel.st.Good := by
  have h0 : ({ i with req := none } : Inv).Good := hg.of_same (by rfl)
  unfold Inv.takeCancel
  dsimp only
  repeat' split
  · exact (h0.withdraw _).of_same (by rfl)
  · exact (h0.free _ true).of_same (by rfl)
  · exact (h0.withdraw _).of_same (by rfl)
  · exact updOwn_plain (hg.of_same (by rfl)) _ _ (by intro _; rfl)
  · exact hg.of_same (by rfl)

/-! ### Another station's claim -/

/-- Recording a claim of a number in season that no entry has. -/
theorem recordClaim (hg : i.Good) (s : State) (src : Nat) (b : ClaimBody) (hroom : i.table.length < Config.tableEntries)
    (hnew : b.inv ∉ i.table.map Entry.num) (hle : b.inv ≤ i.mark) : (i.recordClaim s src b).Good :=
  hg.append _ hroom hnew hle (Entry.fillsOnce_of_none rfl)

/-- After an entry is freed there is a place, and none has its number. -/
theorem free_makes_room (hg : i.Good) {n : Nat} {e : Entry} (h : i.find n = some e) (gap : Bool) :
    (i.free n gap).st.table.length < Config.tableEntries ∧ n ∉ (i.free n gap).st.table.map Entry.num := by
  constructor
  · refine lt_of_lt_of_le ?_ hg.room
    exact List.length_filter_lt_length_iff_exists.2 ⟨e, mem_of_find h, by simp [find_num h]⟩
  · simp [Inv.free]

theorem takeClaim (hg : i.Good) (s : State) (src : Nat) (b : ClaimBody) : (i.takeClaim s src b).st.Good := by
  have hr := hg.raise b.inv
  have hle : b.inv ≤ (i.raise b.inv).mark := le_max_right _ _
  unfold Inv.takeClaim
  dsimp only
  split
  · exact hg
  · split
    · next e he =>
        obtain ⟨hroom, hnew⟩ := hr.free_makes_room he true
        exact ite_good (tryClaim (recordClaim (hr.free _ true) s src b hroom hnew hle) s) (ite_good hr hr)
    · next he =>
        split
        · split <;> exact hr
        · next hfull => exact hr.recordClaim s src b (room_of_not_full hfull) (num_notMem_of_find_none he) hle

theorem takeWithdraw (hg : i.Good) (src n : Nat) : (i.takeWithdraw src n).st.Good := by
  unfold Inv.takeWithdraw
  repeat' split
  any_goals exact hg
  exact hg.free n true

theorem staleExpired (hg : i.Good) (n : Nat) : (i.staleExpired n).st.Good := by
  unfold Inv.staleExpired
  repeat' split
  any_goals exact hg
  exact hg.free n true

/-! ### Two owners -/

theorem claimLost (hg : i.Good) (s : State) (n : Nat) : (i.claimLost s n).st.Good := by
  unfold Inv.claimLost
  exact ite_good (tryClaim (hg.of_same (by rfl)) s) hg

theorem yieldTo (hg : i.Good) (s : State) (n src : Nat) : (i.yieldTo s n src).st.Good := by
  refine claimLost (ask (i := (i.upd n _)) (hg.upd n _ ?_ ?_) s n src) s n
  · exact fun _ h => h
  · exact fun _ _ => Entry.fillsOnce_of_none rfl

theorem keep (hg : i.Good) (s : State) (n v : Nat) : (i.keep s n v).st.Good := by
  unfold Inv.keep
  dsimp only
  repeat' split
  · exact hg
  · exact hg
  · exact hg.issueAt n _ _ _

theorem settleOwners (hg : i.Good) (s : State) (n src v : Nat) : (i.settleOwners s n src v).st.Good := by
  unfold Inv.settleOwners
  split
  · exact hg.keep s n v
  · exact hg.yieldTo s n src

theorem twoOwners (hg : i.Good) (s : State) (n src v : Nat) (named : Bool) : (i.twoOwners s n src v named).st.Good := by
  unfold Inv.twoOwners
  repeat' split
  any_goals exact hg
  · exact hg.yieldTo s n src
  · exact hg.updOwn_plain n _ (by intro _; rfl)
  · exact hg.settleOwners s n src v

end Inv.Good
end Sys2Proof.Machine

namespace Sys2Proof.Machine

namespace Inv.Good

variable {i : Inv}

/-! ### Rebuilds and the version rule -/

theorem rebuilt (hg : i.Good) (s : State) (n v : Nat) (w : Bool) : (i.rebuilt s n v w).st.Good := by
  refine hg.upd_plain n _ (fun e => ?_) (fun e => ?_)
  all_goals
    unfold State.startDelay
    dsimp only
    repeat' split
    all_goals rfl

theorem startRebuild (hg : i.Good) (s : State) (b : HeaderBody) : (i.startRebuild s b).st.Good := by
  cases he : i.find b.hdr.inv with
  | none => simp only [Inv.startRebuild, he]; exact hg
  | some e =>
      have hr : ∀ x : Entry, x.num = b.hdr.inv → x.own = e.own → (i.upd b.hdr.inv (fun _ => x)).Good :=
        fun x hn ho => hg.replace _ x hn (fun o h => hg.fillsOnce he o (ho ▸ h))
      simp only [Inv.startRebuild, he]
      exact ite_good (rebuilt (hr _ (by rfl) (by rfl)) s b.hdr.inv b.hdr.version e.wasClosed) (hr _ (by rfl) (by rfl))

/-- Items of a dump do not change the number. -/
theorem addItems_hdr : ∀ (l : List Item) (r : Rec), (l.foldl Rec.addItem r).hdr = r.hdr
  | [], _ => rfl
  | .chest _ :: l, _ => addItems_hdr l _
  | .void _ :: l, _ => addItems_hdr l _

theorem takeBlock (hg : i.Good) (s : State) (b : BlockBody) : (i.takeBlock s b).st.Good := by
  unfold Inv.takeBlock
  split
  · exact hg
  · next e he =>
      split
      · exact hg
      · next r _ =>
          have hx := hg.replace b.inv { e with
              data := b.items.foldl Rec.addItem e.data, rebuildT := .running Config.rebuildTime,
              rebuild := some { r with got := r.got + b.items.length } }
            ((congrArg Header.inv (addItems_hdr _ _)).trans (find_num he)) (fun o h => hg.fillsOnce he o h)
          exact ite_good (ite_good (rebuilt hx s b.inv r.version r.wasClosed) hx) hg

theorem rebuildExpired (hg : i.Good) (s : State) (n : Nat) : (i.rebuildExpired s n).st.Good := by
  unfold Inv.rebuildExpired
  split
  · exact hg
  · exact ite_good (askOwner (hg.upd_plain n _ (by intro _; rfl) (by intro _; rfl)) s n) hg

theorem applyHeader (hg : i.Good) {n : Nat} {e : Entry} (he : i.find n = some e) (b : HeaderBody) (v : List VoidRec)
    (hn : b.hdr.inv = n) : (i.applyHeader n e b v).st.Good :=
  hg.replace n _ hn (fun o h => hg.fillsOnce he o h)

theorem makeEntry (hg : i.Good) (s : State) (b : HeaderBody) (hnone : i.find b.hdr.inv = none)
    (hle : s.inSeason b.hdr.inv = true → b.hdr.inv ≤ i.mark) : (i.makeEntry s b).st.Good := by
  unfold Inv.makeEntry
  dsimp only
  split
  · exact hg
  · next hs =>
      split
      · exact hg
      · next hroom =>
          have happ : ∀ e : Entry, e.num = b.hdr.inv → e.own = none → ({ i with table := i.table ++ [e] } : Inv).Good :=
            fun e hn ho => hg.append e (room_of_not_full hroom) (hn ▸ num_notMem_of_find_none hnone)
              (hn ▸ hle (by simpa using hs)) (Entry.fillsOnce_of_none ho)
          refine ite_good (startRebuild (happ _ rfl rfl) s b) ?_
          have hmade := happ { Entry.made b.hdr (if decide (b.hdr.entered = 0) && decide (b.hdr.voidCount = 0)
            then .complete else .stale) with
              closedT := if b.hdr.state == .closed then .running Config.closedTime else .stopped } rfl rfl
          exact ite_good hmade (ask hmade s _ _)

theorem takeHeader (hg : i.Good) (s : State) (src : Nat) (b : HeaderBody) : (i.takeHeader s src b).st.Good := by
  unfold Inv.takeHeader
  dsimp only
  have hr : (if b.hdr.inv ≤ s.cfg.last then i.raise b.hdr.inv else i).Good := by
    split
    · exact hg.raise _
    · exact hg
  have hle : s.inSeason b.hdr.inv = true → b.hdr.inv ≤ (if b.hdr.inv ≤ s.cfg.last then i.raise b.hdr.inv else i).mark := by
    intro hs
    have hl : b.hdr.inv ≤ s.cfg.last := by
      simp only [State.inSeason, Bool.and_eq_true, decide_eq_true_eq] at hs
      exact hs.2
    rw [if_pos hl]
    exact le_max_right _ _
  generalize (if b.hdr.inv ≤ s.cfg.last then i.raise b.hdr.inv else i) = j at hr hle ⊢
  split
  · next hnone => exact ite_good hr (hr.makeEntry s b hnone hle)
  · next e he =>
      refine ite_good ?_ (ite_good (hr.free _ false) (ite_good (ite_good (hr.startRebuild s b) hr) (ite_good hr ?_)))
      · have := hr.twoOwners s b.hdr.inv src b.hdr.version (b.hdr.owner != s.self)
        exact ite_good (free this _ false) this
      · repeat' split
        · exact hr
        · exact hr.stale s _ _
        · exact hr.stale s _ _
        · exact hr.applyHeader he b _ rfl

theorem takeEntry (hg : i.Good) (s : State) (src n v : Nat) (change : Rec → Option Rec)
    (hc : ∀ r r', change r = some r' → r'.hdr.inv = r.hdr.inv) : (i.takeEntry s src n v change).st.Good := by
  unfold Inv.takeEntry
  split
  · exact hg.askUnheld n src
  · next e he =>
      refine ite_good hg (ite_good (hg.stale s n src) ?_)
      repeat' split
      · exact hg
      · exact hg.stale s n src
      · exact hg.stale s n src
      · next r hch =>
          exact hg.upd n _ (fun _ _ => (hc _ _ hch).trans (find_num he)) (fun _ h => h)

theorem takeAdopt (hg : i.Good) (s : State) (src : Nat) (b : AdoptBody) : (i.takeAdopt s src b).st.Good := by
  unfold Inv.takeAdopt
  dsimp only
  split
  · exact hg.askUnheld _ _
  · refine ite_good (hg.twoOwners s _ _ _ _) (ite_good hg ?_)
    split
    · exact hg
    · exact ask (i := (Eff.mk' (i.upd _ _) _).st) (hg.upd_plain _ _ (by intro _; rfl) (by intro _; rfl)) s _ _
    · exact hg.upd_plain _ _ (by intro _; rfl) (by intro _; rfl)

theorem orphaned_num (s : State) (e : Entry) : (s.orphaned e).num = e.num := by
  unfold State.orphaned State.startDelay
  dsimp only
  repeat' split
  all_goals rfl

theorem orphaned_own (s : State) (e : Entry) : (s.orphaned e).own = e.own := by
  unfold State.orphaned State.startDelay
  dsimp only
  repeat' split
  all_goals rfl

theorem startDelay_num (s : State) (e : Entry) : (s.startDelay e).num = e.num := by
  unfold State.startDelay; split <;> rfl

theorem startDelay_own (s : State) (e : Entry) : (s.startDelay e).own = e.own := by
  unfold State.startDelay; split <;> rfl

theorem orphan (hg : i.Good) (s : State) (n : Nat) : (i.upd n s.orphaned).Good :=
  hg.upd_plain n _ (orphaned_num s) (orphaned_own s)

theorem takeNotHeld (hg : i.Good) (s : State) (b : NotedBody) : (i.takeNotHeld s b).st.Good := by
  unfold Inv.takeNotHeld
  split
  · exact hg
  · exact ite_good hg (ite_good (hg.free _ false) (hg.orphan s _))

/-! ### The owner's own frames, adoption and the timers of a copy -/

theorem pushRetired_length (l : List Retired) (r : Retired) (h : l.length ≤ Config.retiredPlaces) :
    (pushRetired l r).length ≤ Config.retiredPlaces := by
  simp only [pushRetired, List.length_drop, List.length_append, List.length_singleton, Config.retiredPlaces] at h ⊢
  omega

theorem opened (hg : i.Good) (n : Nat) : (i.opened n).st.Good := by
  unfold Inv.opened
  exact ite_good (hg.of_same (by rfl)) (ite_good (endInvoice (hg.updOwn_plain n _ (by intro _; rfl)) n _ _) hg)

theorem applyOwnHeader (hg : i.Good) (s : State) (n : Nat) (e : Entry) (b : HeaderBody) :
    (i.applyOwnHeader s n e b).st.Good := by
  unfold Inv.applyOwnHeader
  refine ite_good ?_ ?_
  · have hf := hg.free n false
    exact ⟨hf.room, hf.once, hf.below, hf.fills, pushRetired_length _ _ hf.retired⟩
  · dsimp only
    have h1 := hg.upd n (fun e' => { e' with data := { e'.data with
      hdr := { b.hdr with inv := n }, voids := e.data.voids ++ b.newVoid.toList } }) (fun _ _ => rfl) (fun _ h => h)
    have h2 := h1.updOwn n (fun o => { o with fills := [], short := none }) (fun _ _ => List.nodup_nil)
    have h3 : ∀ c : Bool, (if c then _ else _ : Inv).Good := fun c => by
      cases c
      · exact h1
      · exact h2
    exact ite_good (opened (h3 _) n) (h3 _)

theorem applyOwn (hg : i.Good) (s : State) (n v : Nat) (m : Msg) : (i.applyOwn s n v m).st.Good := by
  unfold Inv.applyOwn
  dsimp only
  split
  · exact hg
  · split
    · exact hg.applyOwnHeader s n _ _
    · have h1 : ∀ b : ChestEnteredBody, (i.upd n (fun e => { e with
          data := (e.data.addChest (enteredChest b)).atVersion v })).Good := fun _ => hg.upd_plain n _ (by intro _; rfl) (by intro _; rfl)
      exact ite_good (endTest (updOwn_plain (h1 _) n _ (by intro _; rfl)) n) (h1 _)
    · exact hg.upd_plain n _ (by intro _; rfl) (by intro _; rfl)
    · exact hg

theorem applyAhead (s : State) (n : Nat) : ∀ (k : Nat) (i : Inv), i.Good → (Inv.applyAhead s n k i).st.Good
  | 0, _, hg => hg
  | k + 1, i, hg => by
      unfold Inv.applyAhead
      repeat' split
      · exact hg
      · exact hg
      · exact applyAhead s n k _ (applyOwn (hg.updOwn_plain n _ (by intro _; rfl)) s n _ _)

theorem versionedDone (hg : i.Good) (s : State) (n v : Nat) (m : Msg) : (i.versionedDone s n v m).st.Good := by
  unfold Inv.versionedDone
  split
  · exact hg
  · exact ite_good (hg.updOwn_plain n _ (by intro _; rfl)) (applyAhead s n _ _ (hg.applyOwn s n v m))

theorem versionedFailed (hg : i.Good) (s : State) (n v : Nat) (f : TxFrame) (a : Bool) :
    (i.versionedFailed s n v f a).st.Good := by
  unfold Inv.versionedFailed
  split
  · exact hg
  · exact hg.updOwn_plain n _ (by intro _; rfl)

theorem resendExpired (hg : i.Good) (n : Nat) : (i.resendExpired n).st.Good := by
  unfold Inv.resendExpired
  split
  · exact hg
  · exact ite_good (hg.updOwn_plain n _ (by intro _; rfl)) hg

theorem delayExpired (hg : i.Good) (s : State) (n : Nat) : (i.delayExpired s n).st.Good := by
  unfold Inv.delayExpired
  split
  · exact hg
  · have h1 : (i.upd n (fun e => { e with adoptT := .stopped })).Good := hg.upd_plain n _ (by intro _; rfl) (by intro _; rfl)
    exact ite_good (ite_good (ite_good h1 h1) h1) hg

theorem adoptFailed (hg : i.Good) (s : State) (n : Nat) : (i.adoptFailed s n).st.Good := by
  refine hg.upd_plain n _ (fun e => ?_) (fun e => ?_) <;> split <;> rfl

/-- What follows an adoption: a dump where it was forced, then the end of an OPEN invoice or the closure test. -/
theorem adopted {x : Eff Inv} (hx : x.st.Good) (forced wasOpen : Bool) (n : Nat) (f : Header → Header) :
    (if wasOpen then (if forced then x.andThen (fun i => i.startDump n) else x).andThen (fun i => i.issueHdr n f)
      else (if forced then x.andThen (fun i => i.startDump n) else x).andThen (fun i => i.closeTest n)).st.Good := by
  have hy : (if forced then x.andThen (fun i => i.startDump n) else x).st.Good := ite_good (hx.startDump n) hx
  exact ite_good (hy.issueHdr n f) (hy.closeTest n)

theorem adoptDone (hg : i.Good) (s : State) (n : Nat) (b : AdoptBody) : (i.adoptDone s n b).st.Good := by
  unfold Inv.adoptDone
  split
  · exact hg
  · next e he =>
      have hr : ∀ (x : Entry) (o : OwnerRec), x.num = e.num → x.own = some o → o.fills = [] →
          (i.upd n (fun _ => x)).Good := fun x o hn ho hf =>
        hg.replace n x (hn.trans (find_num he)) (fun o' h => by cases ho.symm.trans h; simp [hf])
      exact ite_good hg (adopted (x := Eff.mk' _ _) (hr _ _ (by rfl) (by rfl) (by rfl)) _ _ n _)

theorem forceAdopt (hg : i.Good) (s : State) (n : Nat) : (i.forceAdopt s n).2.st.Good := by
  unfold Inv.forceAdopt
  repeat' split
  · exact hg
  · exact hg
  · exact hg
  · exact hg.upd_plain n _ (by intro _; rfl) (by intro _; rfl)

theorem askExpired (hg : i.Good) (s : State) (n : Nat) : (i.askExpired s n).st.Good := by
  unfold Inv.askExpired
  have h0 : ({ i with askOther := i.askOther.filter (fun m => m != n) } : Inv).Good := hg.of_same (by rfl)
  split
  · exact h0
  · exact ite_good (ite_good (askTo (h0.upd_plain n _ (by intro _; rfl) (by intro _; rfl)) n _) (h0.upd_plain n _ (by intro _; rfl) (by intro _; rfl))) h0

theorem closedExpired (hg : i.Good) (s : State) (n : Nat) : (i.closedExpired s n).st.Good := by
  unfold Inv.closedExpired
  split
  · exact hg
  · exact ite_good (ite_good (hg.upd_plain n _ (by intro _; rfl) (by intro _; rfl)) (askTo (hg.upd_plain n _ (by intro _; rfl) (by intro _; rfl)) n _)) hg

theorem settleExpired (hg : i.Good) (s : State) (n : Nat) : (i.settleExpired s n).st.Good := by
  unfold Inv.settleExpired
  split
  · exact hg
  · exact ite_good (hg.settled n) hg

/-! ### Station-table events and the end of the join period -/

theorem peerAbsent (hg : i.Good) (s : State) (n : Nat) : (i.peerAbsent s n).st.Good := by
  refine headGone (i := (List.foldl _ _ _)) ?_ n
  refine List.foldlRecOn (motive := Inv.Good) _ _ ?_ (fun j hj k _ => hj.orphan s k)
  exact Eff.each_keeps Inv.Good _ (fun k j hj => hj.free k true) _ _ (hg.leaveSet n)

theorem peerRestart (hg : i.Good) (n : Nat) (via : Via) : (i.peerRestart n via).st.Good := by
  refine Eff.each_keeps Inv.Good _ (fun k j hj => hj.repeatHeader k) _ _ (headGone (hg.map _ (fun e => ?_) (fun e he => ?_)) n)
  · split <;> rfl
  · split <;> exact he

theorem peerPresent (hg : i.Good) (s : State) (n : Nat) (old : PeerState) : (i.peerPresent s n old).st.Good := by
  refine Eff.each_keeps Inv.Good _ (fun k j hj => hj.askTo k n) _ _ (hg.map _ (fun e => ?_) (fun e he => ?_))
  · repeat' split
    any_goals rfl
    exact startDelay_num s e
  · repeat' split
    any_goals exact he
    exact fun o ho => he o (startDelay_own s e ▸ ho)

theorem takePeer (hg : i.Good) (s : State) (n : Nat) (old new : PeerState) (via : Via) :
    (i.takePeer s n old new via).st.Good := by
  unfold Inv.takePeer
  repeat' split
  · exact hg.peerAbsent s n
  · exact hg.peerPresent s n old
  · exact hg.peerRestart n _
  · exact hg.peerRestart n _
  all_goals exact hg

theorem settleConflicts (hg : i.Good) (s : State) (n : Nat) : (i.settleConflicts s n).st.Good := by
  unfold Inv.settleConflicts
  repeat' split
  · exact hg
  · exact hg
  · exact settleOwners (hg.updOwn_plain n _ (by intro _; rfl)) s n _ _

theorem resume (hg : i.Good) (s : State) (n : Nat) : (i.resume s n).st.Good := by
  have h2 := (hg.settleConflicts s n).issue n (fun r => { r with hdr := { r.hdr with owner := s.self } })
    (fun r => headerMsg r.hdr true none)
  unfold Inv.resume
  dsimp only [Eff.andThen]
  split
  · exact h2
  · exact closeTest (ite_good (h2.settled n) (h2.tests n)) n

theorem joinEnded (hg : i.Good) (s : State) : (i.joinEnded s).st.Good := by
  have h1 := hg.map (fun e => if e.orphan && e.own.isNone && !e.adoptT.on then s.startDelay e else e)
    (fun e => by split; exact startDelay_num s e; rfl)
    (fun e he => by split; exact fun o ho => he o (startDelay_own s e ▸ ho); exact he)
  have h2 : ({ i with withdrawOwed := [], table := i.table.map (fun e => if e.orphan && e.own.isNone && !e.adoptT.on
      then s.startDelay e else e) } : Inv).Good := h1.of_same (by rfl)
  have h3 := Eff.each_keeps Inv.Good (fun n (i : Inv) => i.resume s n) (fun n j hj => hj.resume s n)
    (Inv.ownedNums { i with withdrawOwed := [], table := i.table.map (fun e => if e.orphan && e.own.isNone && !e.adoptT.on
      then s.startDelay e else e) }) _ h2
  exact ite_good (h3.tryClaim s) h3

/-! ### The unit's answers -/

theorem takeFrame (hg : i.Good) (s : State) (src : Nat) (m : Msg) (own : Bool) : (i.takeFrame s src m own).st.Good := by
  unfold Inv.takeFrame
  split
  · exact hg.takeChestDone s src _
  · exact hg.takeVoid src _
  · exact hg.takeMark s src _
  · exact hg.takeSheet s _
  · refine ite_good hg ?_
    split
    · dsimp only [Eff.pure]
      split
      · exact hg.raise _
      · exact hg
    · exact hg.takeClaim s src _
    · exact hg.takeConsent s src _
    · exact hg.takeObject s _
    · exact hg.takeWithdraw src _
    · exact hg.takeHeader s src _
    · exact hg.takeBlock s _
    · exact hg.takeAsk src _
    · refine hg.takeEntry s src _ _ _ (fun r r' h => ?_)
      unfold chestChange at h
      split at h <;> cases h
      rfl
    · refine hg.takeEntry s src _ _ _ (fun r r' h => ?_)
      unfold markChange at h
      split at h <;> cases h
      rfl
    · exact hg.takeAdopt s src _
    · exact ite_good (hg.takeNotHeld s _) hg
    · exact hg

theorem takeComplete (hg : i.Good) (s : State) (f : TxFrame) : (i.takeComplete s f).st.Good := by
  unfold Inv.takeComplete
  split
  · exact hg.claimDone s _
  · exact hg.versionedDone s _ _ _
  · exact hg.adoptDone s _ _
  · exact hg.nextBlock _
  · exact hg

theorem takeFailed (hg : i.Good) (s : State) (f : TxFrame) (a : Bool) : (i.takeFailed s f a).st.Good := by
  unfold Inv.takeFailed
  split
  · exact hg.claimFailed _
  · exact hg.versionedFailed s _ _ f a
  · exact hg.versionedFailed s _ _ f a
  · exact hg.adoptFailed s _
  · exact hg.updOwn_plain _ _ (by intro _; rfl)
  · exact hg

theorem claimIfFree (hg : i.Good) (s : State) : (i.claimIfFree s).st.Good := ite_good (hg.tryClaim s) hg

theorem takeInv {s : State} (hg : s.inv.Good) (e : Ev) : (takeInv s e).st.Good := by
  refine claimIfFree ?_ s
  split
  · exact hg.takePeer s _ _ _ _
  · exact hg.takeFrame s _ _ _
  · exact hg.takeComplete s _
  · exact hg.takeFailed s _ _
  · exact tryClaim (hg.of_same (by rfl)) s
  · exact hg.takeCancel
  · exact hg.endInvoice _ _ _
  · exact hg.takeGrant _
  · exact hg.askOwner s _
  · exact hg.joinEnded s
  · exact hg

theorem invTimer {s : State} {f : Inv → Eff Inv} (hf : (f s.inv).st.Good) : (invTimer s f).st.Good := claimIfFree hf s

end Inv.Good
end Sys2Proof.Machine

/-! ### The lanes and the arrivals stay in bounds -/

namespace Sys2Proof.Machine

/-- A lane in bounds stays so where its queue and its done list grow no longer. -/
theorem Lane.Good.of_le {l l' : Lane} (h : l.Good) (hq : l'.queue.length ≤ l.queue.length)
    (hd : l'.done.length ≤ l.done.length) : l'.Good := ⟨hq.trans h.queue, hd.trans h.done⟩

theorem Lane.Good.upd {l : Lane} (h : l.Good) (inv o : Nat) (f : LaneEntry → LaneEntry) : (l.upd inv o f).Good :=
  h.of_le (by simp [Lane.upd]) le_rfl

theorem Lane.Good.addDone {l : Lane} (h : l.Good) (p : Nat × Nat) : (l.addDone p).Good := by
  refine ⟨h.queue, ?_⟩
  have := h.done
  simp only [Lane.addDone, List.length_drop, List.length_append, List.length_singleton]
  omega

/-- A place is taken in a lane queue that has one. -/
theorem Lane.Good.join {l : Lane} (h : l.Good) (e : LaneEntry) (o : Option Overflow) (hr : l.count < Config.lanePlaces) :
    ({ l with queue := l.queue ++ [e], overflow := o } : Lane).Good :=
  ⟨by rw [List.length_append]; exact hr, h.done⟩

namespace Marker.Good

variable {m : Marker}

theorem lane (hg : m.Good) (k : Nat) : (m.lane k).Good := by
  unfold Marker.lane
  split
  · exact hg.lane1
  · exact hg.lane2

/-- The bounds read the lanes and the arrivals. -/
theorem of_same {n : Marker} (hg : m.Good) (h : (n.lane1, n.lane2, n.arrivals) = (m.lane1, m.lane2, m.arrivals)) :
    n.Good := by
  obtain ⟨h1, h2, ha⟩ : n.lane1 = m.lane1 ∧ n.lane2 = m.lane2 ∧ n.arrivals = m.arrivals := by
    simpa only [Prod.mk.injEq] using h
  exact ⟨h1 ▸ hg.lane1, h2 ▸ hg.lane2, ha ▸ hg.once, ha ▸ hg.lanes⟩

theorem setLane (hg : m.Good) (k : Nat) (f : Lane → Lane) (hf : (f (m.lane k)).Good) : (m.setLane k f).Good := by
  unfold Marker.setLane
  unfold Marker.lane at hf
  split
  · next hk => rw [if_pos hk] at hf; exact ⟨hf, hg.lane2, hg.once, hg.lanes⟩
  · next hk => rw [if_neg hk] at hf; exact ⟨hg.lane1, hf, hg.once, hg.lanes⟩

/-- A lane changed but for its queue and its done list. -/
theorem setLane_plain (hg : m.Good) (k : Nat) (f : Lane → Lane)
    (h : ∀ l, (f l).queue = l.queue ∧ (f l).done = l.done) : (m.setLane k f).Good :=
  hg.setLane k f ((hg.lane k).of_le (by rw [(h _).1]) (by rw [(h _).2]))

/-- The same as the state of a block's answer. -/
theorem setLane_mk (hg : m.Good) (k : Nat) (f : Lane → Lane) (acts : List Act)
    (h : ∀ l, (f l).queue = l.queue ∧ (f l).done = l.done) :
    (Eff.mk' (m.setLane k f) acts).st.Good := hg.setLane_plain k f h

/-- An entry of a lane changed. -/
theorem updEntry (hg : m.Good) (k inv o : Nat) (f : LaneEntry → LaneEntry) :
    (m.setLane k (fun l => l.upd inv o f)).Good := hg.setLane k _ ((hg.lane k).upd inv o f)

theorem setPlate (hg : m.Good) (p : PlateName) (f : Plate → Plate) : (m.setPlate p f).Good := by
  cases p <;> exact hg.of_same (by rfl)

theorem setArrivals (hg : m.Good) {a : List Job} (h : a.Sublist m.arrivals) : ({ m with arrivals := a } : Marker).Good :=
  ⟨hg.lane1, hg.lane2, hg.once.sublist (h.map _), fun j hj => hg.lanes j (h.subset hj)⟩

/-- An arrival of a lane that has none. -/
theorem arrive (hg : m.Good) (j : Job) (hk : j.lane = 1 ∨ j.lane = 2)
    (hfree : ¬ m.arrivals.any (fun x => x.lane == j.lane) = true) :
    ({ m with arrivals := m.arrivals ++ [j] } : Marker).Good := by
  refine ⟨hg.lane1, hg.lane2, ?_, fun x hx => ?_⟩
  · have : ∀ x ∈ m.arrivals, x.lane ≠ j.lane := by simpa using hfree
    simpa [List.nodup_append, hg.once] using this
  · rcases List.mem_append.1 hx with h | h
    · exact hg.lanes x h
    · rw [List.mem_singleton.1 h]; exact hk

theorem ite {c : Prop} [Decidable c] {a b : Eff Marker} (ha : a.st.Good) (hb : b.st.Good) :
    (if c then a else b).st.Good := by split <;> assumption

theorem ite' {c : Prop} [Decidable c] {a b : Marker} (ha : a.Good) (hb : b.Good) : (if c then a else b).Good := by
  split <;> assumption

theorem releasePlate (hg : m.Good) (k inv o : Nat) : (m.releasePlate k inv o).Good :=
  ite' (of_same (hg.setPlate _ (fun p => { p with cond := .spent })) (by rfl)) hg

theorem dropJob (hg : m.Good) (k inv o : Nat) : (m.dropJob k inv o).Good := by
  have h1 := hg.setArrivals (List.filter_sublist (p := fun j => !j.is k inv o) (l := m.arrivals))
  exact ite' (h1.setPlate _ _) h1

theorem sendHold (hg : m.Good) (k head : Nat) : (m.sendHold k head).st.Good := by
  unfold Marker.sendHold; exact hg.setLane_mk k _ _ (by intro _; exact ⟨rfl, rfl⟩)

theorem sendGo (hg : m.Good) (k head : Nat) : (m.sendGo k head).st.Good := by
  unfold Marker.sendGo; exact hg.setLane_mk k _ _ (by intro _; exact ⟨rfl, rfl⟩)

theorem holdTest (hg : m.Good) (cfg : Cfg) (k : Nat) (joined left : Bool) : (m.holdTest cfg k joined left).st.Good := by
  unfold Marker.holdTest
  split
  · exact hg
  · exact ite (hg.sendHold k _) (ite hg (ite (hg.setLane_mk k _ [] (by intro _; exact ⟨rfl, rfl⟩)) (ite (hg.sendGo k _) hg)))

theorem joinKept (hg : m.Good) (k : Nat) : (m.joinKept k).1.Good := by
  unfold Marker.joinKept
  dsimp only
  split
  · exact hg
  · split
    · exact hg
    · next hroom =>
        simp only [Bool.or_eq_true, decide_eq_true_eq, not_or, not_le] at hroom
        exact hg.setLane k (fun l => { l with queue := l.queue ++ [_], overflow := none })
          ((hg.lane k).join _ none hroom.2)

theorem leave (hg : m.Good) (k : Nat) (e : LaneEntry) (byMark : Bool) : (m.leave k e byMark).Good := by
  have h1 := (hg.releasePlate k e.inv e.ordinal).dropJob k e.inv e.ordinal
  have h2 := (h1.lane k).of_le (l' := { ((m.releasePlate k e.inv e.ordinal).dropJob k e.inv e.ordinal).lane k with
    queue := (((m.releasePlate k e.inv e.ordinal).dropJob k e.inv e.ordinal).lane k).queue.filter
      (fun x => !x.is e.inv e.ordinal) }) (List.length_filter_le _ _) le_rfl
  unfold Marker.leave
  refine h1.setLane k _ ?_
  dsimp only
  split
  · exact h2.addDone _
  · exact h2

theorem removeEntry (hg : m.Good) (k : Nat) (byMark : Bool) (e : LaneEntry) : (m.removeEntry k byMark e).Good :=
  ite' (hg.updEntry k _ _ _) (hg.leave k e byMark)

theorem afterLeave (hg : m.Good) (cfg : Cfg) (k : Nat) : (m.afterLeave cfg k).st.Good :=
  (hg.joinKept k).holdTest cfg k _ _

theorem removeWhere (hg : m.Good) (cfg : Cfg) (k : Nat) (byMark : Bool) (p : LaneEntry → Bool) :
    (m.removeWhere cfg k byMark p).st.Good := by
  have h1 : (((m.lane k).queue.filter p).foldl (fun m e => m.removeEntry k byMark e) m).Good :=
    List.foldlRecOn (motive := Marker.Good) _ _ hg (fun _ hj e _ => hj.removeEntry k byMark e)
  exact ite h1 (h1.afterLeave cfg k)

/-! ### Mark reports, compositions and strokes -/

theorem openEntry (hg : m.Good) (s : State) (k : Nat) (e : LaneEntry) : (m.openEntry s k e).st.Good :=
  of_same (hg.updEntry k e.inv e.ordinal (fun x => { x with answer := .none, waits := .nothing })) (by rfl)

theorem printed (hg : m.Good) (s : State) (k : Nat) (e : LaneEntry) (how : How) : (m.printed s k e how).st.Good :=
  openEntry (hg.updEntry k _ _ _) s k _

theorem openLoose (hg : m.Good) (s : State) (inv o : Nat) (src : Option Nat) : (m.openLoose s inv o src).st.Good :=
  ite (hg.of_same (by rfl)) (hg.of_same (by rfl))

theorem reopen (hg : m.Good) (s : State) (p : LaneEntry → Bool) (q : LooseReport → Bool) : (m.reopen s p q).st.Good :=
  Eff.each_keeps Marker.Good _ (fun r _ hj => hj.openLoose s r.inv r.ordinal r.source) _ _
    (Eff.each_keeps Marker.Good _
      (fun k _ hj => Eff.each_keeps Marker.Good _ (fun e _ hj => hj.openEntry s k e) _ _ hj) _ _ hg)

theorem faultEntry (hg : m.Good) (cfg : Cfg) (k inv o : Nat) (c : LaneFault) : (m.faultEntry cfg k inv o c).st.Good :=
  hg.updEntry k inv o _

theorem startCompose (hg : m.Good) (s : State) (j : Job) (h : Header) (c : Chest) : (m.startCompose s j h c).Good :=
  hg.setPlate _ _

theorem composeFront (s : State) : ∀ (n : Nat) (m : Marker), m.Good → (Marker.composeFront s n m).st.Good
  | 0, _, hg => hg
  | n + 1, m, hg => by
      unfold Marker.composeFront
      dsimp only
      split
      · next j r _ hj =>
          have hf : ∀ c : LaneFault, (({ m with arrivals := r } : Marker).faultEntry s.cfg j.lane j.inv j.ordinal c).st.Good :=
            fun c => faultEntry (hg.setArrivals (hj ▸ List.sublist_cons_self j r)) s.cfg _ _ _ c
          split
          · exact composeFront s n _ (hf _)
          · split
            · exact ite (composeFront s n _ (hf _)) (hg.startCompose s j _ _)
            · exact ite (composeFront s n _ (hf _)) hg
      · exact hg

theorem strokeStart (hg : m.Good) : m.strokeStart.Good := by
  unfold Marker.strokeStart
  dsimp only
  split
  · next j _ _ _ =>
      have h1 := (hg.setPlate m.compose (fun p => { p with cond := .inUse })).updEntry j.lane j.inv j.ordinal
        (fun e => { e with state := .printing })
      exact ⟨h1.lane1, h1.lane2, hg.once.sublist (List.filter_sublist.map _),
        fun x hx => hg.lanes x (List.mem_of_mem_filter hx)⟩
  · exact hg

theorem advance (hg : m.Good) (s : State) : (m.advance s).st.Good :=
  composeFront s 3 _ (strokeStart (composeFront s 3 m hg))

/-! ### The marker's events, inputs and requests -/

theorem takeEntered (hg : m.Good) (s : State) (src k head : Nat) (b : ChestEnteredBody) :
    (m.takeEntered s src k head b).st.Good := by
  unfold Marker.takeEntered
  refine ite hg (ite hg (ite hg ?_))
  dsimp only
  split
  · exact hg.setLane_mk k _ _ (by intro _; exact ⟨rfl, rfl⟩)
  · next hroom =>
      simp only [Bool.or_eq_true, decide_eq_true_eq, not_or, not_le] at hroom
      exact holdTest (hg.setLane k (fun l => { l with queue := l.queue ++ [_] })
        ((hg.lane k).join _ (m.lane k).overflow hroom.1)) s.cfg k true false

theorem lane_of_head {cfg : Cfg} {k : Nat} (h : ¬ (cfg.laneHead k).isNone = true) : k = 1 ∨ k = 2 := by
  unfold Cfg.laneHead at h
  split at h
  · exact .inl ‹_›
  · split at h
    · exact .inr ‹_›
    · simp at h

theorem eye (hg : m.Good) (s : State) (k : Nat) : (m.eye s k).st.Good := by
  unfold Marker.eye
  split
  · exact hg
  · next head hk =>
      refine ite hg ?_
      have hs : (m.setLane k (fun l => { l with stray := true })).Good := hg.setLane_plain k _ (by intro _; exact ⟨rfl, rfl⟩)
      split
      · exact hs
      · next hfree =>
          split
          · exact hs
          · exact hg.arrive _ (lane_of_head (cfg := s.cfg) (by simp [hk])) hfree

theorem composed (hg : m.Good) : m.composed.Good := ite' (hg.setPlate _ _) hg

theorem strokeOver (hg : m.Good) (s : State) (f : Marker → Nat → LaneEntry → Eff Marker)
    (hf : ∀ k e, (f m k e).st.Good) : (m.strokeOver s f).st.Good := by
  unfold Marker.strokeOver
  split
  · exact hg
  · split
    · exact hg.of_same (by rfl)
    · next j _ _ e _ =>
        have h1 : ({ m.setPlate m.print (fun p => { p with cond := .spent }) with head := .idle, stroke := .stopped } :
            Marker).Good := of_same (hg.setPlate m.print (fun p => { p with cond := .spent })) (by rfl)
        exact ite ((h1.leave j.lane e e.byMark).afterLeave s.cfg j.lane) (hf _ _)

theorem strokeEnd (hg : m.Good) (s : State) : (m.strokeEnd s).st.Good :=
  ite (hg.strokeOver s _ (fun k e => printed
    (of_same (hg.setPlate m.print (fun p => { p with cond := .spent })) (by rfl)) s k e .printed)) hg

theorem strokeExpired (hg : m.Good) (s : State) : (m.strokeExpired s).st.Good :=
  ite (hg.strokeOver s _ (fun k e => faultEntry (hg.of_same (by rfl)) s.cfg k e.inv e.ordinal .jam)) hg

theorem holdExpired (hg : m.Good) (s : State) (k : Nat) : (m.holdExpired s k).st.Good := by
  unfold Marker.holdExpired
  split
  · exact hg
  · exact ite (ite (hg.sendHold k _) (hg.setLane_mk k _ [] (by intro _; exact ⟨rfl, rfl⟩))) hg

theorem entryReportEnds (hg : m.Good) (cfg : Cfg) (how : ExEnd) (k : Nat) (e : LaneEntry) :
    (m.entryReportEnds cfg how k e).st.Good := by
  have hu : (m.setLane k (fun l => { l with unconfirmed := true })).Good := hg.setLane_plain k _ (by intro _; exact ⟨rfl, rfl⟩)
  unfold Marker.entryReportEnds
  cases how
  all_goals dsimp only
  · exact hg
  · cases e.answer <;> exact hu
  · cases e.answer <;> exact hu
  · exact hu
  · exact hg.updEntry k _ _ _
  · exact hg

theorem looseReportEnds (hg : m.Good) (inv o : Nat) (how : ExEnd) : (m.looseReportEnds inv o how).Good := by
  cases how <;> exact hg.of_same (by rfl)

theorem takeExEnd (hg : m.Good) (s : State) (inv o : Nat) (how : ExEnd) : (m.takeExEnd s inv o how).st.Good := by
  unfold Marker.takeExEnd
  split
  · exact hg.looseReportEnds inv o how
  · exact Eff.each_keeps Marker.Good _ (fun p _ hj => hj.entryReportEnds s.cfg how p.1 p.2) _ _ hg

theorem takeNoted (hg : m.Good) (s : State) (src : Nat) (b : NotedBody) : (m.takeNoted s src b).Good := by
  unfold Marker.takeNoted
  dsimp only
  split
  · exact hg
  · exact ⟨hg.lane1.of_le (by simp) le_rfl, hg.lane2.of_le (by simp) le_rfl, hg.once, hg.lanes⟩

theorem joinHold (hg : m.Good) (cfg : Cfg) (k : Nat) : (Marker.joinHold cfg k m).st.Good := by
  unfold Marker.joinHold
  split
  · exact hg
  · exact ite (hg.sendHold k _) (ite (hg.sendGo k _) hg)

theorem loaded (hg : m.Good) (cfg : Cfg) : (m.loaded cfg).st.Good := by
  refine Eff.each_keeps Marker.Good _ (fun k _ hj =>
    Eff.each_keeps Marker.Good _ (fun e _ hj => hj.faultEntry cfg k e.inv e.ordinal .restart) _ _ hj) _ _ ?_
  have h1 : ({ m with arrivals := [], head := if m.head == .idle then .idle else .held } : Marker).Good :=
    of_same (hg.setArrivals (List.nil_sublist _)) (by rfl)
  exact ite' (h1.setPlate _ _) h1

theorem takeEv (hg : m.Good) (s : State) (e : Ev) : (m.takeEv s e).st.Good := by
  unfold Marker.takeEv
  split
  · split
    · exact Eff.each_keeps Marker.Good _ (fun k _ hj => hj.takeEntered s _ k _ _) _ _ hg
    · exact Eff.each_keeps Marker.Good _ (fun k _ hj => hj.removeWhere s.cfg k true _) _ _ hg
    · exact hg.takeNoted s _ _
    · exact hg
  · exact Eff.each_keeps Marker.Good _ (fun k _ hj => hj.removeWhere s.cfg k false _) _ _ hg
  · exact hg.reopen s _ _
  · exact ite (hg.reopen s _ _) hg
  · split
    · exact hg.takeExEnd s _ _ _
    · exact hg
  · exact Eff.each_keeps Marker.Good _ (fun k _ hj => hj.joinHold s.cfg k) _ _ hg
  · exact hg.loaded s.cfg
  · exact hg.reopen s _ _
  · exact hg

theorem takeMark {s : State} (hg : s.mark.Good) (e : Ev) : (takeMark s e).st.Good :=
  Eff.andThen_keeps (Marker.Good.advance (hg.takeEv s e) s)

theorem markInput {s : State} {f : Marker → Eff Marker} (hf : (f s.mark).st.Good) : (markInput s f).st.Good :=
  Eff.andThen_keeps (Marker.Good.advance hf s)

theorem clearLane (hg : m.Good) (s : State) (k : Nat) : (m.clearLane s k).2.st.Good := by
  unfold Marker.clearLane
  split
  · exact hg
  · dsimp only
    split
    · exact hg
    · have h1 : (m.setLane k (fun l => { l with stray := false, laneOver := false, unconfirmed := false })).Good :=
        hg.setLane_plain k _ (by intro _; exact ⟨rfl, rfl⟩)
      generalize m.setLane k (fun l => { l with stray := false, laneOver := false, unconfirmed := false }) = m1 at h1 ⊢
      have h2 : (if (m.lane k).laneOver then m1.joinKept k else (m1, false)).1.Good := by
        split
        · exact h1.joinKept k
        · exact h1
      generalize (if (m.lane k).laneOver then m1.joinKept k else (m1, false)) = r at h2 ⊢
      have h3 : (if r.2 then r.1.holdTest s.cfg k true false else Eff.pure r.1).st.Good := ite (h2.holdTest s.cfg k _ _) h2
      exact ite (Eff.each_keeps Marker.Good _ (fun e _ hj => hj.openEntry s k e) _ _ h3) h3

theorem reprint (hg : m.Good) (s : State) (k : Nat) : (m.reprint s k).2.st.Good := by
  unfold Marker.reprint
  split
  · exact hg
  · next hk =>
      split
      · exact hg
      · split
        · exact hg
        · next e _ =>
            split
            · exact of_same (hg.updEntry k e.inv e.ordinal (fun x => { x with state := .printing, cause := none })) (by rfl)
            · split
              · exact hg
              · next hfree =>
                  refine arrive (hg.updEntry k e.inv e.ordinal _) _ (lane_of_head hk) ?_
                  rwa [show (m.setLane k _).arrivals = m.arrivals by unfold Marker.setLane; split <;> rfl]

theorem handEntry (hg : m.Good) (s : State) (k : Nat) (e : LaneEntry) : (m.handEntry s k e).st.Good :=
  ((hg.releasePlate k e.inv e.ordinal).dropJob k e.inv e.ordinal).printed s k e .hand

theorem handLane (hg : m.Good) (s : State) (k : Nat) : (m.handLane s k).2.st.Good := by
  unfold Marker.handLane
  repeat' split
  · exact hg
  · exact hg
  · exact hg.handEntry s k _

theorem handChest (hg : m.Good) (s : State) (inv o : Nat) : (m.handChest s inv o).2.st.Good := by
  unfold Marker.handChest
  dsimp only
  split
  · split
    · exact hg
    · exact hg
    · exact hg.handEntry s _ _
    · exact hg.handEntry s _ _
  · split
    · exact openLoose (hg.setLane_plain _ _ (by intro _; exact ⟨rfl, rfl⟩)) s inv o _
    · split
      · exact hg
      · split
        · exact hg.openLoose s inv o none
        · exact hg

end Marker.Good

/-! ### The sheets and the gaps stay in bounds -/

theorem placeSheet_length (e : PaperEntry) (l : List PaperEntry) : (placeSheet e l).length = l.length + 1 := by
  induction l with
  | nil => rfl
  | cons x l ih => unfold placeSheet; split <;> simp [ih]

theorem placeNumber_length (n : Nat) (l : List Nat) : (placeNumber n l).length ≤ l.length + 1 := by
  induction l with
  | nil => simp [placeNumber]
  | cons x l ih => unfold placeNumber; repeat' split
                   all_goals simp [ih]

namespace Paper.Good

variable {p : Paper}

theorem ite {c : Prop} [Decidable c] {a b : Eff Paper} (ha : a.st.Good) (hb : b.st.Good) :
    (if c then a else b).st.Good := by split <;> assumption

/-- The bounds read the two lists of sheets and the gaps. -/
theorem of_le {q : Paper} (hg : p.Good) (hq : q.queue.length ≤ p.queue.length)
    (hw : q.waiting.length ≤ p.waiting.length) (hp : q.gaps.length ≤ p.gaps.length) :
    q.Good := ⟨(Nat.add_le_add hq hw).trans hg.sheets, hp.trans hg.gaps⟩

theorem takeClosure (hg : p.Good) (e : Entry) : (p.takeClosure e).st.Good := by
  unfold Paper.takeClosure
  split
  · exact hg
  · next hroom =>
      have := hg.gaps
      refine ite ⟨?_, this⟩ ⟨?_, this⟩
      all_goals
        simp only [Eff.mk', placeSheet_length, List.length_append, List.length_singleton]
        omega

theorem build (hg : p.Good) (i : Inv) : (p.build i).st.Good :=
  Eff.each_keeps Paper.Good _ (fun e _ hj => hj.takeClosure e) _ _ (hg.of_le (Nat.zero_le _) (Nat.zero_le _) le_rfl)

theorem elect (hg : p.Good) (s : State) : (p.elect s).st.Good := by
  have h1 : ({ p with found := s.actingStation } : Paper).Good := hg.of_le le_rfl le_rfl le_rfl
  exact ite h1 (ite (build (h1.of_le (by rfl) (by rfl) (by rfl)) s.inv) (hg.of_le (Nat.zero_le _) (Nat.zero_le _) le_rfl))

theorem notice (hg : p.Good) (s : State) (n : Nat) : (p.notice s n).st.Good := by
  unfold Paper.notice
  split
  · split
    · exact hg
    · exact ite (hg.takeClosure _) hg
  · exact hg

theorem unlist (hg : p.Good) (n : Nat) : (p.unlist n).Good :=
  hg.of_le (List.length_filter_le _ _) (List.length_filter_le _ _) le_rfl

theorem copied (hg : p.Good) (s : State) (n : Nat) : (p.copied s n).st.Good := by
  unfold Paper.copied
  split
  · exact hg
  · refine ite (hg.unlist n) ?_
    split
    · exact hg
    · next k hk =>
        refine ite ⟨?_, hg.gaps⟩ hg
        have hlt : (p.waiting.filter (fun x => x.inv != n)).length < p.waiting.length :=
          List.length_filter_lt_length_iff_exists.2
            ⟨k, List.mem_of_find?_eq_some hk, by simpa using List.find?_some hk⟩
        have := hg.sheets
        simp only [Eff.mk', placeSheet_length]
        omega

theorem freed (hg : p.Good) (n : Nat) : (p.freed n).Good := (hg.unlist n).of_le le_rfl le_rfl le_rfl

theorem gap (hg : p.Good) (s : State) (n : Nat) : (p.gap s n).Good := by
  have hl := placeNumber_length n p.gaps
  have hp := hg.gaps
  unfold Paper.gap
  dsimp only
  split
  · exact hg
  · split
    · exact ⟨hg.sheets, by simp only [List.length_drop]; omega⟩
    · next h => exact ⟨hg.sheets, Nat.le_of_not_lt h⟩

theorem reopen (hg : p.Good) (s : State) (f : Taking → Bool) : (p.reopen s f).st.Good := hg.of_le le_rfl le_rfl le_rfl

theorem takeExEnd (hg : p.Good) (n : Nat) (how : ExEnd) : (p.takeExEnd n how).Good := by
  cases how <;> exact hg.of_le le_rfl le_rfl le_rfl

theorem takePeer (hg : p.Good) (s : State) (n : Nat) (new : PeerState) : (p.takePeer s n new).st.Good := by
  have h1 : (if s.keepsDecision then Eff.pure p else p.elect s).st.Good := ite hg (hg.elect s)
  exact ite (h1.reopen s _) h1

theorem takePaper {s : State} (hg : s.paper.Good) (e : Ev) : (takePaper s e).st.Good := by
  unfold Machine.takePaper
  split
  · exact hg.takePeer s _ _
  · exact (hg.elect s).reopen s _
  · exact hg.elect s
  · exact hg.notice s _
  · exact hg.copied s _
  · exact hg.freed _
  · exact hg.gap s _
  · exact hg.of_le le_rfl le_rfl (List.length_filter_le _ _)
  · exact ite hg (hg.of_le le_rfl le_rfl le_rfl)
  · split
    · exact hg.takeExEnd _ _
    · exact hg
  · exact hg.reopen s _
  · exact hg

theorem openSheet (hg : p.Good) (i : Inv) (o : Option Nat) : (p.openSheet i o).2.2.Good := by
  unfold Paper.openSheet
  split
  · exact hg
  · exact hg.of_le le_rfl le_rfl le_rfl

theorem readPart (hg : p.Good) (i : Inv) (k : Nat) : (p.readPart i k).2.2.Good := by
  unfold Paper.readPart
  dsimp only
  repeat' split
  any_goals exact hg
  all_goals exact hg.of_le le_rfl le_rfl le_rfl

theorem sheetDone (hg : p.Good) (i : Inv) : (p.sheetDone i).2.st.Good := by
  unfold Paper.sheetDone
  repeat' split
  · exact hg
  · exact hg.of_le le_rfl le_rfl le_rfl
  · exact hg
  · exact hg.of_le le_rfl le_rfl (List.length_filter_le _ _)

end Paper.Good
end Sys2Proof.Machine

/-! ### Every command is made of the small changes -/

namespace Sys2Proof.Machine

namespace Runs

variable {P : State → Prop} {s : State}

theorem takeJob (h : Runs P) (b : Block) (e : Ev) (hp : P s) : P (s.takeJob b e).1 := by
  unfold State.takeJob
  split
  · next hw =>
      have hl := loaded_of_working (Bool.and_eq_true_iff.1 hw).1
      cases b with
      | start => exact h.takeStart e hp
      | inv => exact h.runInv _ hl (fun hg => hg.takeInv e) hp
      | blend => exact h.runBlend _ hp
      | arb => exact h.perform _ (h.arb s e hl hp)
      | head => exact h.runHead _ hp
      | mark => exact h.runMark _ (fun hg => hg.takeMark e) hp
      | paper => exact h.runPaper _ (fun hg => hg.takePaper e) hp
  · exact hp

theorem payDone (h : Runs P) (hp : P s) : P s.payDone.1 := by
  unfold State.payDone
  repeat' split
  · exact hp
  · exact h.perform1 _ (h.head _ hp)
  · exact hp

theorem tryTransmit (h : Runs P) (hp : P s) : P s.tryTransmit := by
  unfold State.tryTransmit
  split
  · exact h.within (.of_lists rfl le_rfl le_rfl) hp
  · exact hp

theorem settle (h : Runs P) (r : State × Jobs) (hp : P r.1) : P (State.settle r) :=
  settle_keeps P (fun _ b e hq => h.takeJob b e hq) (fun _ hq => h.payDone hq) (fun _ hq => h.tryTransmit hq) r hp

/-- A command of a working station. -/
theorem act (h : Runs P) {f : State → State × Jobs} (hf : s.start.state ≠ .loading → P (f s).1) (hp : P s) :
    P (s.act f) := by
  unfold State.act
  split
  · next hw => exact h.settle _ (hf (loaded_of_working hw))
  · exact hp

/-- A command of one block. -/
theorem actAs (h : Runs P) {b : Block} {f : State → State × Jobs} (hf : s.start.state ≠ .loading → P (f s).1) (hp : P s) :
    P (s.actAs b f) := by
  refine h.act (fun hl => ?_) hp
  split
  · exact hf hl
  · exact hp

/-! ### The line unit -/

theorem entryMoved (h : Runs P) (n : Nat) (o p : PeerState) (v : Via) (hp : P s) : P (s.entryMoved n o p v).1 := by
  have h1 : P (if p == .present && (o == .absent || o == .joining) then
      s.report (Report.of .peerPresent none none (some n) .absent) else s) := by
    split
    · exact h.report _ _ hp
    · exact hp
  unfold State.entryMoved
  dsimp only
  generalize (if p == .present && (o == .absent || o == .joining) then
      s.report (Report.of .peerPresent none none (some n) .absent) else s) = t at h1 ⊢
  repeat' split
  any_goals exact h1
  all_goals exact h.usedChoice h1

theorem entryBecomes (h : Runs P) (n : Nat) (p : Peer) (v : Via) (hp : P s) : P (s.entryBecomes n p v).1 :=
  h.entryMoved n _ _ v (h.within (.setPeer _ _ _) hp)

theorem hand (h : Runs P) (src dst : Nat) (m : Msg) (own : Bool) (hp : P s) : P (s.hand src dst m own).1 := by
  have h1 : P { s with line := s.line.endAll (s.line.exchanges.filter (confirms s.self src dst m)) } :=
    h.within (.endAll _ _) hp
  unfold State.hand
  dsimp only
  split
  · exact h1
  · exact h.usedChoice h1

theorem answerJoin (h : Runs P) (hp : P s) : P s.answerJoin.1 := by
  unfold State.answerJoin
  split
  · exact hp
  · exact h.sendFrame _ hp

theorem goOffline (h : Runs P) (hp : P s) : P s.goOffline.1 := by
  have h1 : P { s with line := { s.line with txq := [], sending := false, attempts := 0, backoff := none, exchanges := [] } } :=
    h.within (.of_lists rfl (Nat.zero_le _) (Nat.zero_le _)) hp
  have h2 := h.start _ { s.start with state := .offlineDup s.isActive, joinT := .stopped, retryT := .stopped }
    (.inr (by simp)) (by rfl) h1
  exact h.usedChoice (h.report _ _ h2)

theorem receive (h : Runs P) (x : Heard) (e : Env) (m : Option Msg) (hp : P s) : P (s.receive x e m).1 := by
  have h0 : P { s with line := s.line.frameEnd } := h.within (.frameEnd _) hp
  unfold State.receive
  split
  · exact hp
  · dsimp only
    split
    · split
      · exact h0
      · exact h.goOffline h0
    · split
      · exact h0
      · have h1 := h.entryBecomes e.src (((s.line.frameEnd).peer e.src).heard s.peerTimeout x) (viaOf x) h0
        split
        · exact h1
        · cases m with
          | none => exact h1
          | some m =>
              refine h.hand _ _ _ _ ?_
              split
              · exact h.answerJoin h1
              · exact h1

theorem heardBytes (h : Runs P) (l : List Byte) (hp : P s) : P (s.heardBytes l).1 := by
  have hb : ∀ n m : Nat, n = m → bump n ≤ max m 255 := fun n m hn => by unfold bump; omega
  have hn := Line.Within.frameEnd s.line
  obtain ⟨h1, h2, h3, h4, h5, h6⟩ := hn
  obtain ⟨t1, t2, t3, t4⟩ := (tallies_eq_iff _ _).1 (frameEnd_tallies s.line)
  unfold State.heardBytes
  dsimp only
  split
  · exact h.within ⟨h1, h2, hb _ _ t1, h4, h5, h6⟩ hp
  · exact h.within ⟨h1, h2, h3, hb _ _ t2, h5, h6⟩ hp
  · exact h.within ⟨h1, h2, h3, h4, hb _ _ t3, h6⟩ hp
  · exact h.within ⟨h1, h2, h3, h4, h5, hb _ _ t4⟩ hp
  · exact h.receive _ _ _ hp

theorem collide (h : Runs P) (hp : P s) : P s.collide.1 := by
  unfold State.collide
  split
  · split
    · exact hp
    · next f q hq =>
        have hle : q.length ≤ s.line.txq.length := by rw [hq]; exact Nat.le_succ _
        dsimp only
        split
        · exact h.within (.of_lists rfl hle le_rfl) hp
        · split
          · exact h.tellFailed _ _ (h.report _ _ (h.within (.of_lists rfl hle le_rfl) hp))
          · exact h.draws (s := { s with line := _ }) _ (h.within (.of_lists rfl le_rfl le_rfl) hp)
  · exact hp

theorem frameComplete (h : Runs P) (hp : P s) : P s.frameComplete.1 := by
  unfold State.frameComplete
  split
  · split
    · exact hp
    · next f q hq =>
        have hle : q.length ≤ s.line.txq.length := by rw [hq]; exact Nat.le_succ _
        have h1 : ∀ (l : Line), l.tallies = s.line.tallies → l.txq = q → l.exchanges.length = s.line.exchanges.length →
            P { s with line := l } := fun l ht hl hx => h.within (.of_lists ht (hl ▸ hle) hx.le) hp
        dsimp only
        split
        · exact h.hand _ _ _ _ (h1 _ (by split <;> rfl) (by split <;> rfl) (by split <;> simp [Line.busy]))
        · exact h1 _ (by split <;> rfl) (by split <;> rfl) (by split <;> simp [Line.busy])
  · exact hp

theorem confirmExpired (h : Runs P) (k : ExKey) (hp : P s) : P (s.confirmExpired k).1 := by
  unfold State.confirmExpired
  split
  · exact hp
  · split
    · exact h.sendFrame _ (h.within (.restEx _ _ _) hp)
    · split
      · exact h.within (.restEx _ _ _) hp
      · exact h.report _ _ (h.within (.dropEx _ _) hp)

theorem presenceExpired (h : Runs P) (hp : P s) : P s.presenceExpired.1 := by
  have h1 : P { s with line := { s.line with presence := .running Config.presenceInterval } } :=
    h.within (.of_lists rfl le_rfl le_rfl) hp
  unfold State.presenceExpired
  repeat' split
  · dsimp only
    split
    · exact h1
    · exact h.sendFrame _ h1
  · exact hp

theorem silenceExpired (h : Runs P) (n : Nat) (hp : P s) : P (s.silenceExpired n).1 := by
  unfold State.silenceExpired
  dsimp only
  split
  · exact h.entryBecomes n _ _ (h.report _ _ (h.within (.endAll _ _) hp))
  · exact hp

theorem watchExpired (h : Runs P) (n : Nat) (hp : P s) : P (s.watchExpired n).1 := by
  unfold State.watchExpired
  dsimp only
  split
  · split
    · exact h.entryBecomes n _ _ hp
    · exact h.within (.setPeer _ _ _) hp
  · exact hp

theorem gapReached (h : Runs P) (hp : P s) : P s.gapReached := by
  unfold State.gapReached
  split
  · exact h.within (.of_lists rfl le_rfl le_rfl) hp
  · exact hp

theorem slotPassed (h : Runs P) (hp : P s) : P s.slotPassed := by
  unfold State.slotPassed
  split
  · split
    · exact h.within (.of_lists rfl le_rfl le_rfl) hp
    · exact hp
  · exact hp

/-! ### The join period and the front end -/

theorem queueJoin (h : Runs P) (hp : P s) : P s.queueJoin.1 := h.sendFrame _ hp

theorem joinRetry (h : Runs P) (hp : P s) : P s.joinRetry.1 := by
  unfold State.joinRetry
  split
  · exact h.queueJoin (h.start s _ (.inl rfl) rfl hp)
  · exact hp

theorem joinEnd (h : Runs P) (hp : P s) : P s.joinEnd.1 := by
  unfold State.joinEnd
  split
  · exact h.usedChoice (h.sendFrame _ (h.entryMoved _ _ _ _ (h.start s _ (.inr (by simp)) rfl hp)))
  · exact hp

theorem handReading (h : Runs P) (f : FrontEnd) (z : Bool) (ms : Nat) (hp : P s) : P (s.handReading f z ms).1 :=
  h.side s f s.blend s.head s.presence s.blockChoice s.draws hp

theorem sample (h : Runs P) (w : BitVec 32) (bits ms : Nat) (hp : P s) : P (s.sample w bits ms).1 := by
  unfold State.sample
  repeat' split
  · exact hp
  · exact h.handReading _ _ _ hp
  · exact hp

theorem lossExpired (h : Runs P) (hp : P s) : P s.lossExpired.1 := by
  unfold State.lossExpired
  split
  · exact h.handReading _ _ _ hp
  · exact hp

/-! ### The port -/

theorem answer (h : Runs P) (k : Byte) (c : PortAnswer) (b : List Byte) (hp : P s) : P (s.answer k c b) :=
  h.port s _ (List.suffix_refl _) hp

/-- A request meets the port's tests; a block takes it only where the station has loaded. -/
theorem portTake (h : Runs P) {α : Type} (k : Byte) (g : Group) (r : Req α) (body : List Byte) (take : α → State → State × Jobs)
    (ht : ∀ a, s.start.state ≠ .loading → P (take a s).1) (hp : P s) : P (s.portTake k g r body take).1 := by
  unfold State.portTake
  split
  · exact hp
  · split
    · exact h.answer _ _ _ hp
    · exact h.answer _ _ _ hp
    · next a hr =>
        refine ht a (fun hl => ?_)
        have hb : ∃ b, s.portBusy (Req.checked r) = some b := by
          unfold State.portBusy
          split
          · exact ⟨_, rfl⟩
          · exact ⟨_, if_pos (by simp [hl])⟩
        obtain ⟨b, hb⟩ := hb
        simp [State.portTest, hb] at hr

theorem request (h : Runs P) {α : Type} (k : Byte) (g : Group) (r : Req α) (take : α → State → State × Jobs)
    (ht : ∀ a, s.start.state ≠ .loading → P (take a s).1) (hp : P s) : P (s.request k g r take) :=
  h.settle _ (h.portTake k g r [] take ht hp)

theorem portUnknown (h : Runs P) (k : Byte) (c : Bool) (hp : P s) : P (s.portUnknown k c) := by
  unfold State.portUnknown
  split
  · exact hp
  · exact h.answer _ _ _ hp

theorem portAborted (h : Runs P) (l : List Byte) (hp : P s) : P (s.portAborted l) := by
  unfold State.portAborted
  repeat' split
  · exact hp
  · exact h.answer _ _ _ hp
  · exact h.draws _ (h.answer _ _ _ hp)

theorem readReport (h : Runs P) (hp : P s) : P s.readReport.1 := by
  unfold State.readReport
  split
  · exact h.answer _ _ _ hp
  · next r l hr => exact h.answer _ _ _ (h.port s _ (hr ▸ List.suffix_cons r l) hp)

theorem readInvoice (h : Runs P) (b : InvoiceRead) (hp : P s) : P (s.readInvoice b).1 := by
  unfold State.readInvoice
  repeat' split
  all_goals exact h.answer _ _ _ hp

theorem readTallies (h : Runs P) (hp : P s) : P s.readTallies.1 :=
  h.answer _ _ _ (h.within ⟨le_rfl, le_rfl, Nat.zero_le _, Nat.zero_le _, Nat.zero_le _, Nat.zero_le _⟩ hp)

theorem beginTransfer (h : Runs P) (t : Transfer) (hp : P s) : P (s.beginTransfer t) := h.port s _ (List.suffix_refl _) hp

theorem readMemory (h : Runs P) (b : MemoryRead) (hp : P s) : P (s.readMemory b).1 := by
  unfold State.readMemory
  split
  · exact h.answer _ _ _ hp
  · exact h.beginTransfer _ hp

theorem writeMemory (h : Runs P) (b : MemoryWrite) (hp : P s) : P (s.writeMemory b).1 := by
  unfold State.writeMemory
  split
  · exact h.answer _ _ _ hp
  · exact h.beginTransfer _ hp

theorem readEnds (h : Runs P) (hp : P s) : P s.readEnds := by
  unfold State.readEnds
  split
  · exact h.answer _ _ _ (h.port s _ (List.suffix_refl _) hp)
  · exact hp

theorem readPlate (h : Runs P) (n : Nat) (hp : P s) : P (s.readPlate n).1 := by
  unfold State.readPlate
  dsimp only
  split
  · exact h.draws _ (h.answer _ _ _ hp)
  · split
    · exact h.draws _ (h.answer _ _ _ hp)
    · exact h.answer _ _ _ hp

theorem zero (h : Runs P) (hp : P s) : P s.zero.1 := by
  unfold State.zero
  split
  · exact h.answer _ _ _ hp
  · exact h.handReading _ _ _ (h.answer _ _ _ hp)

theorem placeOrder (h : Runs P) (o : OrderBody) (hp : P s) : P (s.placeOrder o).1 := by
  unfold State.placeOrder
  exact h.runBlend _ (h.answer _ _ _ hp)

theorem openSheet (h : Runs P) (o : Option Nat) (hp : P s) : P (s.openSheet o).1 :=
  h.paper _ _ (fun hg => Paper.Good.openSheet hg s.inv o) (h.answer _ _ _ hp)

theorem readSheetPart (h : Runs P) (k : Nat) (hp : P s) : P (s.readSheetPart k).1 :=
  h.paper _ _ (fun hg => Paper.Good.readPart hg s.inv k) (h.answer _ _ _ hp)

theorem portBlend (h : Runs P) (k : Byte) (r : PortAnswer × Eff Blend) (hp : P s) : P (s.portBlend k r).1 :=
  h.runBlend _ (h.answer _ _ _ hp)

theorem portHead (h : Runs P) (k : Byte) (r : PortAnswer × Eff Head) (hp : P s) : P (s.portHead k r).1 :=
  h.runHead _ (h.answer _ _ _ hp)

theorem portMark (h : Runs P) (k : Byte) (r : PortAnswer × Eff Marker) (hr : s.mark.Good → r.2.st.Good) (hp : P s) :
    P (s.portMark k r).1 := h.runMark _ (fun hg => Eff.andThen_keeps ((hr hg).advance s)) (h.answer _ _ _ hp)

/-- An input or a timer of the marker. -/
theorem actMark (h : Runs P) {f : State → Marker → Eff Marker} (hf : s.mark.Good → (f s s.mark).st.Good) (hp : P s) :
    P (s.actMark f) := h.actAs (fun _ => h.runMark _ (fun hg => Marker.Good.markInput (hf hg)) hp) hp

/-- A timer of the invoice unit. -/
theorem actInv (h : Runs P) {f : State → Inv → Eff Inv} (hf : s.inv.Good → (f s s.inv).st.Good) (hp : P s) :
    P (s.actInv f) := h.act (fun hl => h.runInv _ hl (fun hg => Inv.Good.invTimer (hf hg)) hp) hp

end Runs

/-! ### The commands -/

/-- The commands that start the station, end a load or end a memory write. -/
def atStart : Instr → Bool
  | .powerOn | .resetPinLow | .resetPinRelease _ | .configLoadEnd _ | .restartWarm _ | .configWriteTransferEnd => true
  | _ => false

/-- What every change of a running station keeps, every command but those keeps. -/
theorem Runs.exec {P : State → Prop} (h : Runs P) (c : Instr) (hc : atStart c = false) (s : State) (hp : P s) :
    ∃ t, exec c s = .next t ∧ P t := by
  cases c
  case powerOn => cases hc
  case resetPinLow => cases hc
  case resetPinRelease => cases hc
  case configLoadEnd => cases hc
  case restartWarm => cases hc
  case configWriteTransferEnd => cases hc
  case joinRetryDelayExpiry => exact ⟨_, rfl, h.act (fun _ => h.joinRetry hp) hp⟩
  case joinPeriodEnd => exact ⟨_, rfl, h.act (fun _ => h.joinEnd hp) hp⟩
  case interframeGap => exact ⟨_, rfl, h.act (fun _ => h.gapReached hp) hp⟩
  case backoffSlot => exact ⟨_, rfl, h.act (fun _ => h.slotPassed hp) hp⟩
  case collision => exact ⟨_, rfl, h.act (fun _ => h.collide hp) hp⟩
  case frameComplete => exact ⟨_, rfl, h.act (fun _ => h.frameComplete hp) hp⟩
  case invalidFrame l => exact ⟨_, rfl, h.act (fun _ => h.heardBytes l hp) hp⟩
  case noise => exact ⟨_, rfl, h.act (fun _ => h.within (.of_lists rfl le_rfl le_rfl) hp) hp⟩
  case confirmTimerExpiry k => exact ⟨_, rfl, h.act (fun _ => h.confirmExpired k hp) hp⟩
  case presenceTimerExpiry => exact ⟨_, rfl, h.act (fun _ => h.presenceExpired hp) hp⟩
  case silenceTimerExpiry n => exact ⟨_, rfl, h.act (fun _ => h.silenceExpired n hp) hp⟩
  case joinWatchExpiry n => exact ⟨_, rfl, h.act (fun _ => h.watchExpired n hp) hp⟩
  case claimWindowExpiry => exact ⟨_, rfl, h.actInv (fun hg => hg.windowExpired) hp⟩
  case claimRetryDelayExpiry => exact ⟨_, rfl, h.actInv (fun hg => hg.retryExpired s) hp⟩
  case claimStaleTimerExpiry n => exact ⟨_, rfl, h.actInv (fun hg => hg.staleExpired n) hp⟩
  case versionedResendDelayExpiry n => exact ⟨_, rfl, h.actInv (fun hg => hg.resendExpired n) hp⟩
  case askTimerExpiry n => exact ⟨_, rfl, h.actInv (fun hg => hg.askExpired s n) hp⟩
  case rebuildTimerExpiry n => exact ⟨_, rfl, h.actInv (fun hg => hg.rebuildExpired s n) hp⟩
  case closedTimerExpiry n => exact ⟨_, rfl, h.actInv (fun hg => hg.closedExpired s n) hp⟩
  case adoptionDelayExpiry n => exact ⟨_, rfl, h.actInv (fun hg => hg.delayExpired s n) hp⟩
  case settleTimerExpiry n => exact ⟨_, rfl, h.actInv (fun hg => hg.settleExpired s n) hp⟩
  case sample w bits ms => exact ⟨_, rfl, h.act (fun _ => h.sample w bits ms hp) hp⟩
  case lossTimerExpiry => exact ⟨_, rfl, h.act (fun _ => h.lossExpired hp) hp⟩
  case starveTimerExpiry => exact ⟨_, rfl, h.actAs (fun _ => h.runBlend _ hp) hp⟩
  case stallTimerExpiry => exact ⟨_, rfl, h.actAs (fun _ => h.runBlend _ hp) hp⟩
  case drumTurnPulse => exact ⟨_, rfl, h.actAs (fun _ => h.runBlend _ hp) hp⟩
  case chestPresenceChange b =>
    by_cases hb : s.presence = b
    · exact ⟨_, if_pos hb, hp⟩
    · have h1 : P { s with presence := b } := h.side s s.fe s.blend s.head b s.blockChoice s.draws hp
      exact ⟨_, if_neg hb, h.actAs (fun _ => h1) h1⟩
  case holdLapseTimerExpiry => exact ⟨_, rfl, h.actAs (fun _ => h.runHead _ hp) hp⟩
  case headSettleTimerExpiry => exact ⟨_, rfl, h.actAs (fun _ => h.runHead _ hp) hp⟩
  case laneHoldTimerExpiry k => exact ⟨_, rfl, h.actMark (fun hg => hg.holdExpired s k) hp⟩
  case laneEyeArrival k => exact ⟨_, rfl, h.actMark (fun hg => hg.eye s k) hp⟩
  case compositionComplete => exact ⟨_, rfl, h.actMark (fun hg => hg.composed) hp⟩
  case strokeEnd => exact ⟨_, rfl, h.actMark (fun hg => hg.strokeEnd s) hp⟩
  case strokeTimerExpiry => exact ⟨_, rfl, h.actMark (fun hg => hg.strokeExpired s) hp⟩
  case portRequestAborted l => exact ⟨_, rfl, h.portAborted l hp⟩
  case unknownRequest k b => exact ⟨_, rfl, h.portUnknown k b hp⟩
  case readStatus r => exact ⟨_, rfl, h.request _ _ r _ (fun _ _ => h.answer _ _ _ hp) hp⟩
  case readReport r => exact ⟨_, rfl, h.request _ _ r _ (fun _ _ => h.readReport hp) hp⟩
  case readInvoice r => exact ⟨_, rfl, h.request _ _ r _ (fun b _ => h.readInvoice b hp) hp⟩
  case readStationTable r => exact ⟨_, rfl, h.request _ _ r _ (fun _ _ => h.answer _ _ _ hp) hp⟩
  case readTallies r => exact ⟨_, rfl, h.request _ _ r _ (fun _ _ => h.readTallies hp) hp⟩
  case readConfigMemory r => exact ⟨_, rfl, h.request _ _ r _ (fun b _ => h.readMemory b hp) hp⟩
  case writeConfigMemory r => exact ⟨_, rfl, h.request _ _ r _ (fun b _ => h.writeMemory b hp) hp⟩
  case configReadTransferEnd => exact ⟨_, rfl, h.readEnds hp⟩
  case forceAdopt r =>
    exact ⟨_, rfl, h.request _ _ r _ (fun n hl => h.runInv _ hl (fun hg => hg.forceAdopt s n) (h.answer _ _ _ hp)) hp⟩
  case placeOrder r => exact ⟨_, rfl, h.settle _ (h.portTake _ _ r _ _ (fun o _ => h.placeOrder o hp) hp)⟩
  case cancel r => exact ⟨_, rfl, h.request _ _ r _ (fun _ _ => h.portBlend _ _ hp) hp⟩
  case resume r => exact ⟨_, rfl, h.request _ _ r _ (fun _ _ => h.portBlend _ _ hp) hp⟩
  case redraw r => exact ⟨_, rfl, h.request _ _ r _ (fun _ _ => h.portBlend _ _ hp) hp⟩
  case endBatch r => exact ⟨_, rfl, h.request _ _ r _ (fun _ _ => h.portBlend _ _ hp) hp⟩
  case confirmEmpty r => exact ⟨_, rfl, h.request _ _ r _ (fun _ _ => h.portBlend _ _ hp) hp⟩
  case carryOverSet r => exact ⟨_, rfl, h.request _ _ r _ (fun _ _ => h.portBlend _ _ hp) hp⟩
  case start r => exact ⟨_, rfl, h.request _ _ r _ (fun _ _ => h.portHead _ _ hp) hp⟩
  case stop r => exact ⟨_, rfl, h.request _ _ r _ (fun _ _ => h.portHead _ _ hp) hp⟩
  case clearRetry r => exact ⟨_, rfl, h.request _ _ r _ (fun _ _ => h.portHead _ _ hp) hp⟩
  case clearVoid r => exact ⟨_, rfl, h.request _ _ r _ (fun _ _ => h.portHead _ _ hp) hp⟩
  case resetHead r => exact ⟨_, rfl, h.request _ _ r _ (fun _ _ => h.portHead _ _ hp) hp⟩
  case zero r => exact ⟨_, rfl, h.request _ _ r _ (fun _ _ => h.zero hp) hp⟩
  case clearLane r => exact ⟨_, rfl, h.request _ _ r _ (fun k _ => h.portMark _ _ (fun hg => hg.clearLane s k) hp) hp⟩
  case reprint r => exact ⟨_, rfl, h.request _ _ r _ (fun k _ => h.portMark _ _ (fun hg => hg.reprint s k) hp) hp⟩
  case handLane r => exact ⟨_, rfl, h.request _ _ r _ (fun k _ => h.portMark _ _ (fun hg => hg.handLane s k) hp) hp⟩
  case handChest r => exact ⟨_, rfl, h.request _ _ r _ (fun b _ => h.portMark _ _ (fun hg => hg.handChest s b.inv b.ordinal) hp) hp⟩
  case readPlate r => exact ⟨_, rfl, h.request _ _ r _ (fun n _ => h.readPlate n hp) hp⟩
  case openSheet r => exact ⟨_, rfl, h.request _ _ r _ (fun o _ => h.openSheet o hp) hp⟩
  case readSheetPart r => exact ⟨_, rfl, h.request _ _ r _ (fun k _ => h.readSheetPart k hp) hp⟩
  case sheetDone r =>
    exact ⟨_, rfl, h.request _ _ r _ (fun _ _ => h.runPaper _ (fun hg => hg.sheetDone s.inv) (h.answer _ _ _ hp)) hp⟩
  all_goals exact ⟨_, rfl, h.act (fun _ => h.receive _ _ _ hp) hp⟩

end Sys2Proof.Machine

/-! ### The chute: who holds or waits, and the gate (R88 to R98) -/

namespace Sys2Proof.Machine

/-- No head holds or waits twice, and each is one that `c` admits. -/
structure Arb.Seats (c : Nat → Bool) (a : Arb) : Prop where
  once : a.heads.Nodup
  admitted : ∀ n ∈ a.heads, c n = true

/-- The gate is OPEN exactly while CURRENT holds a lease and the flag is OPEN, a slot is held only then, NEXT beside CURRENT. -/
structure Arb.Gated (a : Arb) : Prop where
  gate : a.gate = (a.current.isSome && a.openFlag)
  flag : a.current.isSome = true → a.openFlag = true
  next : a.next.isSome = true → a.current.isSome = true

theorem Arb.Seats.of_subperm {c : Nat → Bool} {a b : Arb} (h : a.Seats c) (hs : List.Subperm b.heads a.heads) : b.Seats c := by
  obtain ⟨l, hl, hsub⟩ := hs
  exact ⟨hl.nodup_iff.1 (h.once.sublist hsub), fun n hn => h.admitted n (hsub.subset (hl.mem_iff.2 hn))⟩

theorem Arb.Seats.of_perm {c : Nat → Bool} {a b : Arb} (h : a.Seats c) (hp : b.heads.Perm a.heads) : b.Seats c :=
  h.of_subperm hp.subperm

/-! #### What each operation does to the heads -/

theorem fillCurrent_heads (a : Arb) (cfg : Cfg) : ((a.fillCurrent cfg).st.heads).Perm a.heads := by
  unfold Arb.fillCurrent
  split
  · next q r _ hc hq => simpa [Arb.enterCurrent, Eff.mk', Arb.heads, hc, hq] using List.perm_middle.symm
  · exact .refl _

theorem fillNext_heads (a : Arb) : (a.fillNext.st.heads).Perm a.heads := by
  unfold Arb.fillNext
  split
  · next q r _ hc hn hq => simp [Eff.mk', Arb.heads, hc, hn, hq]
  · exact .refl _

theorem fill_heads (a : Arb) (cfg : Cfg) : ((a.fill cfg).st.heads).Perm a.heads :=
  (fillNext_heads _).trans (fillCurrent_heads a cfg)

/-- A release takes the head of CURRENT away and no other. -/
theorem release_heads {a : Arb} (cfg : Cfg) {l : Lease} (hc : a.current = some l) :
    (l.head :: (a.release cfg).st.heads).Perm a.heads := by
  unfold Arb.release
  split
  · next k hn =>
      refine ((fill_heads _ cfg).cons _).trans ?_
      simp [Arb.enterCurrent, Eff.mk', Arb.heads, hc, hn]
  · next hn =>
      refine ((fill_heads _ cfg).cons _).trans ?_
      simp [Arb.heads, hc, hn]

/-- Freeing NEXT takes its head away and no other. -/
theorem freeNext_heads {a : Arb} (cfg : Cfg) {l : Lease} (hn : a.next = some l) :
    (l.head :: (a.freeNext cfg).st.heads).Perm a.heads := by
  refine ((fill_heads _ cfg).cons _).trans ?_
  simpa [Arb.heads, hn] using List.perm_middle.symm

theorem slotOf_current {a : Arb} {n : Nat} {l : Lease} (h : a.slotOf n = some (.current, l)) :
    a.current = some l ∧ l.head = n := by
  unfold Arb.slotOf at h
  split at h
  · next hc =>
      obtain ⟨l', hl', he⟩ := Option.map_eq_some_iff.1 h
      cases he
      exact ⟨hl', by simpa [Arb.holdsCurrent, hl'] using hc⟩
  · split at h
    · obtain ⟨l', _, he⟩ := Option.map_eq_some_iff.1 h
      cases he
    · cases h

theorem slotOf_next {a : Arb} {n : Nat} {l : Lease} (h : a.slotOf n = some (.next, l)) :
    a.next = some l ∧ l.head = n := by
  unfold Arb.slotOf at h
  split at h
  · obtain ⟨l', _, he⟩ := Option.map_eq_some_iff.1 h
    cases he
  · split at h
    · next hn =>
        obtain ⟨l', hl', he⟩ := Option.map_eq_some_iff.1 h
        cases he
        exact ⟨hl', by simpa [Arb.holdsNext, hl'] using hn⟩
    · cases h

/-- Freeing the slot that a head holds takes that head away and no other. -/
theorem freeSlot_heads {a : Arb} (cfg : Cfg) {n : Nat} {slot : Slot} {l : Lease} (h : a.slotOf n = some (slot, l)) :
    (n :: (a.freeSlot cfg slot).st.heads).Perm a.heads := by
  cases slot with
  | current =>
      obtain ⟨hc, rfl⟩ := slotOf_current h
      exact release_heads cfg hc
  | next =>
      obtain ⟨hn, rfl⟩ := slotOf_next h
      exact freeNext_heads cfg hn

theorem placeAsk_perm (q : List Ask) (k : Ask) : (placeAsk q k).Perm (k :: q) := by
  unfold placeAsk
  split
  · exact List.perm_append_singleton k q
  · rw [List.append_assoc]
    refine List.perm_middle.trans (.cons k ?_)
    exact .of_eq List.takeWhile_append_dropWhile

theorem queueAsk_heads (a : Arb) (cfg : Cfg) (k : Ask) : ((a.queueAsk cfg k).st.heads).Perm (k.head :: a.heads) := by
  have h : ((({ a with queue := placeAsk a.queue k } : Arb).fill cfg).st.heads).Perm (k.head :: a.heads) := by
    refine (fill_heads _ cfg).trans ?_
    simp only [Arb.heads]
    exact (((placeAsk_perm a.queue k).map _).append_left _).trans List.perm_middle
  unfold Arb.queueAsk
  dsimp only
  split
  · exact h
  · exact h

/-- A head without a slot stands in the queue or nowhere. -/
theorem heads_without (a : Arb) (n : Nat) (h : a.slotOf n = none) :
    n ∉ ({ a with queue := a.queue.filter (fun e => e.head != n) } : Arb).heads := by
  unfold Arb.slotOf at h
  have hc : ∀ l, a.current = some l → l.head ≠ n := by
    intro l hl he
    simp [Arb.holdsCurrent, hl, he] at h
  have hn : ∀ l, a.next = some l → l.head ≠ n := by
    intro l hl he
    split at h
    · next hx => simp [Arb.holdsCurrent] at h hx; rw [h] at hx; cases hx
    · simp [Arb.holdsNext, hl, he] at h
  simp only [Arb.heads, List.mem_append, Option.mem_toList, Option.map_eq_some_iff, List.mem_map, List.mem_filter, not_or]
  refine ⟨⟨?_, ?_⟩, ?_⟩
  · rintro ⟨l, hl, he⟩; exact hc l hl he
  · rintro ⟨l, hl, he⟩; exact hn l hl he
  · rintro ⟨k, ⟨_, hk⟩, rfl⟩; simp at hk

theorem filterQueue_heads (a : Arb) (p : Ask → Bool) :
    ({ a with queue := a.queue.filter p } : Arb).heads.Sublist a.heads :=
  (List.filter_sublist.map _).append_left _

namespace Arb.Seats

variable {c : Nat → Bool} {a : Arb}

theorem freeSlot (h : a.Seats c) (cfg : Cfg) {n : Nat} {slot : Slot} {l : Lease} (hs : a.slotOf n = some (slot, l)) :
    (a.freeSlot cfg slot).st.Seats c :=
  h.of_subperm ((List.sublist_cons_self _ _).subperm.trans (freeSlot_heads cfg hs).subperm)

/-- A head that is admitted and neither holds nor waits takes a place in the queue. -/
theorem queueAsk (h : a.Seats c) (cfg : Cfg) (k : Ask) (hk : c k.head = true) (hn : k.head ∉ a.heads) :
    (a.queueAsk cfg k).st.Seats c := by
  have hp := queueAsk_heads a cfg k
  refine ⟨hp.nodup_iff.2 (List.nodup_cons.2 ⟨hn, h.once⟩), fun n hm => ?_⟩
  rcases List.mem_cons.1 (hp.mem_iff.1 hm) with rfl | hm
  · exact hk
  · exact h.admitted n hm

theorem takeAsk (h : a.Seats c) (s : State) (src : Nat) (b : LeaseAskBody)
    (hc : s.cfg.inChute src = true → c src = true) : (a.takeAsk s src b).st.Seats c := by
  unfold Arb.takeAsk
  dsimp only
  split
  · exact h
  · next hin =>
      have hin : c src = true := hc (by simpa using hin)
      split
      · exact h
      · split
        · next slot l hs =>
            split
            · exact h
            · refine queueAsk (h.freeSlot s.cfg hs) s.cfg _ hin ?_
              exact (List.nodup_cons.1 ((freeSlot_heads s.cfg hs).nodup_iff.2 h.once)).1
        · next hs =>
            split
            · exact h
            · exact queueAsk (h.of_subperm (filterQueue_heads a _).subperm) s.cfg _ hin (heads_without a src hs)

theorem slotWhere (h : a.Seats c) (cfg : Cfg) {n : Nat} {p : Lease → Bool} {slot : Slot} (hs : a.slotWhere n p = some slot) :
    (a.freeSlot cfg slot).st.Seats c := by
  unfold Arb.slotWhere at hs
  split at hs
  · cases hs
  · next hs' =>
      split at hs <;> cases hs
      exact h.freeSlot cfg hs'

theorem takeDone (h : a.Seats c) (s : State) (src n : Nat) : (a.takeDone s src n).st.Seats c := by
  unfold Arb.takeDone
  split
  · exact h
  · dsimp only
    split
    · next hs => exact h.slotWhere s.cfg hs
    · exact h

theorem takeCancel (h : a.Seats c) (s : State) (src t : Nat) : (a.takeCancel s src t).st.Seats c := by
  unfold Arb.takeCancel
  split
  · exact h
  · dsimp only
    split
    · next hs => exact h.slotWhere s.cfg hs
    · exact h.of_subperm (filterQueue_heads a _).subperm

theorem begun (h : a.Seats c) (s : State) (inv : Nat) : (a.begun s inv).st.Seats c :=
  h.of_perm (fill_heads _ s.cfg)

theorem ended (h : a.Seats c) (r : LeaseEndReason) : (a.ended r).st.Seats c := by
  unfold Arb.ended
  split
  · exact h
  · refine h.of_subperm (List.Sublist.subperm ?_)
    simp only [Eff.mk', Arb.heads, Option.map_none, Option.toList_none, List.nil_append, List.map_append]
    refine List.Sublist.append ?_ (List.filter_sublist.map _)
    refine List.Sublist.trans ?_ (List.sublist_append_right _ _)
    cases a.next with
    | none => exact .refl _
    | some l =>
        dsimp only
        split
        · exact .refl _
        · exact List.nil_sublist _

theorem freeNumber (h : a.Seats c) (s : State) (n : Nat) (before : Lease → List Act) :
    (a.freeNumber s n before).st.Seats c := by
  unfold Arb.freeNumber Arb.slotNumbered
  split
  · exact h
  · next slot l hs =>
      split at hs
      · next k hk =>
          cases hs
          have hc : a.current = some l := by
            cases hcur : a.current <;> simp_all
          exact h.of_subperm ((List.sublist_cons_self _ _).subperm.trans (release_heads s.cfg hc).subperm)
      · obtain ⟨k, hk, he⟩ := Option.map_eq_some_iff.1 hs
        cases he
        have hn : a.next = some l := by
          cases hnx : a.next <;> simp_all
        exact h.of_subperm ((List.sublist_cons_self _ _).subperm.trans (freeNext_heads s.cfg hn).subperm)

theorem takeExEnd (h : a.Seats c) (s : State) (x : Exchange) (how : ExEnd) (m : Option Msg) :
    (a.takeExEnd s x how m).st.Seats c := by
  unfold Arb.takeExEnd
  repeat' split
  any_goals exact h
  all_goals exact h.freeNumber s _ _

theorem removeHead (h : a.Seats c) (s : State) (head : Nat) (notify : Bool) : (a.removeHead s head notify).st.Seats c := by
  unfold Arb.removeHead
  dsimp only
  split
  · next hs => exact h.freeSlot s.cfg hs
  · split
    · exact h.of_subperm (filterQueue_heads a _).subperm
    · exact h

theorem takePeer (h : a.Seats c) (s : State) (n : Nat) (old new : PeerState) (via : Via) :
    (a.takePeer s n old new via).st.Seats c := by
  unfold Arb.takePeer
  repeat' split
  any_goals exact h
  all_goals exact h.removeHead s n _

theorem nil_heads (h : a.heads = []) : a.Seats c := ⟨h ▸ List.nodup_nil, fun n hn => by simp [h] at hn⟩

/-- The arbiter's part in an event keeps the seats. -/
theorem takeArb {s : State} (h : s.arb.Seats c) (hc : ∀ n, s.cfg.inChute n = true → c n = true) (e : Ev) :
    (takeArb s e).st.Seats c := by
  unfold Machine.takeArb
  dsimp only
  split
  · split
    · exact h.takeAsk s _ _ (hc _)
    · exact h.takeDone s _ _
    · exact h.takeCancel s _ _
    · exact h
  · exact h.begun s _
  · exact h.ended _
  · exact h.takeExEnd s _ _ _
  · exact h.takePeer s _ _ _ _
  · exact h
  · exact nil_heads rfl
  · exact h

end Arb.Seats

/-! #### The gate -/

namespace Arb.Gated

variable {a : Arb}

theorem ite {c : Prop} [Decidable c] {x y : Eff Arb} (hx : x.st.Gated) (hy : y.st.Gated) :
    (if c then x else y).st.Gated := by split <;> assumption

/-- The queue and the batch are no part of it. -/
theorem of_same {b : Arb} (h : a.Gated)
    (hs : (b.gate, b.current, b.next, b.openFlag) = (a.gate, a.current, a.next, a.openFlag)) : b.Gated := by
  obtain ⟨hg, hc, hn, ho⟩ : b.gate = a.gate ∧ b.current = a.current ∧ b.next = a.next ∧ b.openFlag = a.openFlag := by
    simpa only [Prod.mk.injEq] using hs
  exact ⟨by rw [hg, hc, ho, h.gate], by rw [hc, ho]; exact h.flag, by rw [hn, hc]; exact h.next⟩

theorem enterCurrent (a : Arb) (cfg : Cfg) (l : Lease) (ho : a.openFlag = true) : (a.enterCurrent cfg l).st.Gated :=
  ⟨by simp [Arb.enterCurrent, Eff.mk', ho], fun _ => ho, fun _ => rfl⟩

theorem fill (h : a.Gated) (cfg : Cfg) : (a.fill cfg).st.Gated := by
  have h1 : (a.fillCurrent cfg).st.Gated := by
    unfold Arb.fillCurrent
    split
    · next ho _ _ => exact enterCurrent _ cfg _ ho
    · exact h
  show ((a.fillCurrent cfg).st.fillNext).st.Gated
  unfold Arb.fillNext
  split
  · next hc _ _ => exact ⟨h1.gate, h1.flag, fun _ => by simp [Eff.mk', hc]⟩
  · exact h1

theorem release (h : a.Gated) (cfg : Cfg) : (a.release cfg).st.Gated := by
  unfold Arb.release
  split
  · next l hn => exact fill (enterCurrent { a with current := none, next := none } cfg _ (h.flag (h.next (by simp [hn])))) cfg
  · next hn => exact fill ⟨rfl, fun hc => (by cases hc), fun hx => (by simp [hn] at hx)⟩ cfg

theorem freeNext (h : a.Gated) (cfg : Cfg) : (a.freeNext cfg).st.Gated :=
  fill (a := { a with next := none }) ⟨h.gate, h.flag, fun hx => (by cases hx)⟩ cfg

theorem freeSlot (h : a.Gated) (cfg : Cfg) (slot : Slot) : (a.freeSlot cfg slot).st.Gated := by
  cases slot with
  | current => exact h.release cfg
  | next => exact h.freeNext cfg

theorem queueAsk (h : a.Gated) (cfg : Cfg) (k : Ask) : (a.queueAsk cfg k).st.Gated := by
  have h1 : (({ a with queue := placeAsk a.queue k } : Arb).fill cfg).st.Gated := fill (h.of_same (by rfl)) cfg
  exact ite h1 h1

theorem takeAsk (h : a.Gated) (s : State) (src : Nat) (b : LeaseAskBody) : (a.takeAsk s src b).st.Gated := by
  unfold Arb.takeAsk
  refine ite h (ite h ?_)
  split
  · exact ite h ((h.freeSlot _ _).queueAsk _ _)
  · exact ite h (queueAsk (h.of_same (by rfl)) _ _)

theorem takeDone (h : a.Gated) (s : State) (src n : Nat) : (a.takeDone s src n).st.Gated := by
  unfold Arb.takeDone
  split
  · exact h
  · dsimp only
    split
    · exact h.freeSlot _ _
    · exact h

theorem takeCancel (h : a.Gated) (s : State) (src t : Nat) : (a.takeCancel s src t).st.Gated := by
  unfold Arb.takeCancel
  split
  · exact h
  · dsimp only
    split
    · exact h.freeSlot _ _
    · exact h.of_same (by rfl)

theorem begun (h : a.Gated) (s : State) (inv : Nat) : (a.begun s inv).st.Gated := by
  refine fill (a := { a with openFlag := true, batch := some inv }) ⟨?_, fun _ => rfl, h.next⟩ s.cfg
  show a.gate = (a.current.isSome && true)
  rw [h.gate]
  cases hc : a.current.isSome
  · rfl
  · rw [h.flag hc]

theorem ended (h : a.Gated) (r : LeaseEndReason) : (a.ended r).st.Gated :=
  ite h ⟨rfl, fun hc => (by cases hc), fun hn => (by cases hn)⟩

theorem freeNumber (h : a.Gated) (s : State) (n : Nat) (before : Lease → List Act) :
    (a.freeNumber s n before).st.Gated := by
  unfold Arb.freeNumber
  split
  · exact h
  · exact freeSlot (a := a) h _ _

theorem takeExEnd (h : a.Gated) (s : State) (x : Exchange) (how : ExEnd) (m : Option Msg) :
    (a.takeExEnd s x how m).st.Gated := by
  unfold Arb.takeExEnd
  repeat' split
  any_goals exact h
  all_goals exact h.freeNumber s _ _

theorem removeHead (h : a.Gated) (s : State) (head : Nat) (notify : Bool) : (a.removeHead s head notify).st.Gated := by
  unfold Arb.removeHead
  dsimp only
  split
  · exact freeSlot (a := a) h _ _
  · exact ite (h.of_same (by rfl)) h

theorem takePeer (h : a.Gated) (s : State) (n : Nat) (old new : PeerState) (via : Via) :
    (a.takePeer s n old new via).st.Gated := by
  unfold Arb.takePeer
  repeat' split
  any_goals exact h
  all_goals exact h.removeHead s n _

theorem cleared (a : Arb) : a.cleared.Gated := ⟨rfl, fun hc => (by cases hc), fun hn => (by cases hn)⟩

/-- The arbiter's part in an event keeps the gate in order. -/
theorem takeArb {s : State} (h : s.arb.Gated) (e : Ev) : (takeArb s e).st.Gated := by
  unfold Machine.takeArb
  dsimp only
  split
  · split
    · exact h.takeAsk s _ _
    · exact h.takeDone s _ _
    · exact h.takeCancel s _ _
    · exact h
  · exact h.begun s _
  · exact h.ended _
  · exact h.takeExEnd s _ _ _
  · exact h.takePeer s _ _ _ _
  · exact h
  · exact cleared _
  · exact h

end Arb.Gated

theorem orderly_iff (a : Arb) : a.orderly ↔ a.Gated ∧ a.Seats (fun _ => true) :=
  ⟨fun ⟨hg, hf, hn, ho⟩ => ⟨⟨hg, hf, hn⟩, ⟨ho, fun _ _ => rfl⟩⟩, fun ⟨hg, hs⟩ => ⟨hg.gate, hg.flag, hg.next, hs.once⟩⟩

end Sys2Proof.Machine

/-! ### The starts, the load and the memory -/

namespace Sys2Proof.Machine

namespace Starts

variable {P : State → Prop} {s : State}

theorem stopTransfer (h : Starts P) (hp : P s) : P s.stopTransfer := by
  unfold State.stopTransfer
  split
  · exact h.draws _ (h.memory _ _ (h.port s { s.port with handling := none } (List.suffix_refl _) hp))
  · exact h.port s _ (List.suffix_refl _) hp

theorem pinLow (h : Starts P) (hp : P s) : P s.pinLow := by
  unfold State.pinLow
  split
  · exact hp
  · exact h.start _ _ (.inl rfl) rfl (h.stopTransfer hp)

theorem pinHigh (h : Starts P) (ms : Nat) (hp : P s) : P (s.pinHigh ms) := by
  unfold State.pinHigh
  split
  · have h1 : P { s with start := { s.start with resetLow := false } } := h.start s _ (.inl rfl) rfl hp
    dsimp only
    split
    · exact h.cold _ _ h1
    · exact h.warm _ _ h1
  · exact hp

theorem reportAll (h : Starts P) (l : List Report) (hp : P s) : P (s.reportAll l) := by
  induction l generalizing s with
  | nil => exact hp
  | cons r l ih => exact ih (h.report _ _ hp)

theorem loadGood (h : Starts P) (c : Cfg) (hp : P (s.tookLoad c)) : P (s.loadGood c).1 := by
  have h1 := h.queueJoin (h.reportAll (loadReports s.start.kind c.rejected) hp)
  unfold State.loadGood
  dsimp only
  refine h.entryMoved _ _ _ _ ?_
  split
  · exact h1
  · exact h.usedChoice h1

theorem loadEnd (h : Starts P) (a : Bool) (hp : P s) : P (s.loadEnd a) := by
  unfold State.loadEnd
  split
  · next hl =>
      have hs : s.start.state = .loading := by
        simp only [Bool.and_eq_true, beq_iff_eq] at hl; exact hl.1
      split
      · exact h.report _ _ (h.start s _ (.inr (by simp)) rfl hp)
      · next c hc => exact h.settle _ (h.loadGood c (h.load s c a hs hc hp))
  · exact hp

theorem writeEnds (h : Starts P) (hp : P s) : P s.writeEnds := by
  unfold State.writeEnds
  split
  · have h1 : P { s with port := { s.port with handling := none } } := h.port s _ (List.suffix_refl _) hp
    exact h.answer _ _ _ (h.memory _ _ (h.start { s with port := { s.port with handling := none } }
      { s.start with memChanged := true } (.inl rfl) rfl h1))
  · exact hp

/-- What every change keeps, every command keeps, and every command is taken. -/
theorem exec (h : Starts P) (c : Instr) (s : State) (hp : P s) : ∃ t, exec c s = .next t ∧ P t := by
  by_cases hc : atStart c = false
  · exact h.toRuns.exec c hc s hp
  · cases c
    case powerOn => exact ⟨_, rfl, h.cold s _ hp⟩
    case resetPinLow => exact ⟨_, rfl, h.pinLow hp⟩
    case resetPinRelease ms => exact ⟨_, rfl, h.pinHigh ms hp⟩
    case configLoadEnd a => exact ⟨_, rfl, h.loadEnd a hp⟩
    case restartWarm r => exact ⟨_, rfl, h.request _ _ r _ (fun _ _ => h.warm _ _ (h.answer _ _ _ hp)) hp⟩
    case configWriteTransferEnd => exact ⟨_, rfl, h.writeEnds hp⟩
    all_goals exact absurd rfl hc

/-- An invariant that reads no queue of commands is kept by a step. -/
theorem step (h : Starts P) (hq : ∀ s q, P s → P { s with pending := q }) {s t : State} (hst : step s = .next t)
    (hp : P s) : P t := by
  unfold Machine.step at hst
  split at hst
  · cases hst; exact hp
  · next c q _ =>
      obtain ⟨u, hu, hpu⟩ := h.exec c { s with pending := q } (hq s q hp)
      rw [hu] at hst
      cases hst
      exact hpu

end Starts

/-! ### O56: every command is taken and leaves the queue -/

theorem stopTransfer_pending (s : State) : s.stopTransfer.pending = s.pending := by
  unfold State.stopTransfer; split <;> rfl

theorem warmStart_pending (s : State) (k : StartKind) : (s.warmStart k).pending = s.pending := by
  unfold State.warmStart
  split <;> exact stopTransfer_pending s

theorem tookLoad_pending (s : State) (c : Cfg) : (s.tookLoad c).pending = s.pending := by
  unfold State.tookLoad
  dsimp only
  split <;> rfl

/-- No change a command makes is one of the queue of commands. -/
theorem starts_pending (q : List Instr) : Starts (fun s => s.pending = q) where
  line _ _ _ h := h
  queue _ _ _ h := h
  exchange _ _ _ _ h := h
  report _ _ h := h
  port _ _ _ h := h
  side _ _ _ _ _ _ _ h := h
  start _ _ _ _ h := h
  inv _ _ _ _ h := h
  arb _ _ _ h := h
  mark _ _ _ h := h
  paper _ _ _ h := h
  memory _ _ h := h
  cold s _ h := (stopTransfer_pending s).trans h
  warm s k h := (warmStart_pending s k).trans h
  load s c _ _ _ h := (tookLoad_pending s c).trans h

/-- Settles O56: the queue of commands is no part of what a command changes. -/
theorem everyCommandIsTaken : Obligations.EveryCommandIsTaken := fun c s => (starts_pending s.pending).exec c s rfl

/-- Settles O55, by the two cases of `step`. -/
theorem stepRunsFrontCommand : Obligations.StepRunsFrontCommand :=
  ⟨fun c q s h => by simp [step, h], fun s h => by simp [step, h]⟩

/-! ### O60: the chute stays in order -/

theorem stopTransfer_arb (s : State) : s.stopTransfer.arb = s.arb := by
  unfold State.stopTransfer; split <;> rfl

theorem cold_orderly : Arb.cold.orderly := ⟨rfl, fun h => (by cases h), fun h => (by cases h), List.nodup_nil⟩

theorem cleared_orderly (a : Arb) : a.cleared.orderly := (orderly_iff _).2 ⟨.cleared a, .nil_heads rfl⟩

theorem warmStart_arb (s : State) (k : StartKind) :
    (s.warmStart k).arb = s.arb ∨ (s.warmStart k).arb = s.arb.cleared := by
  unfold State.warmStart
  split
  · exact .inl (stopTransfer_arb s)
  · exact .inr (congrArg Arb.cleared (stopTransfer_arb s))

theorem tookLoad_arb (s : State) (c : Cfg) : (s.tookLoad c).arb = if s.converts c then Arb.cold else s.arb := by
  unfold State.tookLoad
  dsimp only
  split <;> rfl

theorem starts_orderly : Starts (fun s => s.arb.orderly) where
  line _ _ _ h := h
  queue _ _ _ h := h
  exchange _ _ _ _ h := h
  report _ _ h := h
  port _ _ _ h := h
  side _ _ _ _ _ _ _ h := h
  start _ _ _ _ h := h
  inv _ _ _ _ h := h
  arb s e _ h := by
    obtain ⟨hg, hs⟩ := (orderly_iff _).1 h
    exact (orderly_iff _).2 ⟨hg.takeArb e, hs.takeArb (fun _ _ => rfl) e⟩
  mark _ _ _ h := h
  paper _ _ _ h := h
  memory _ _ h := h
  cold _ _ _ := cold_orderly
  warm s k h := by
    rcases warmStart_arb s k with ha | ha
    · exact ha ▸ h
    · exact ha ▸ cleared_orderly _
  load s c _ _ _ h := by
    rw [tookLoad_arb]
    split
    · exact cold_orderly
    · exact h

/-- Settles O60: every event of the arbiter keeps seats and gate, and a start empties the chute. -/
theorem chuteStaysOrderly : Obligations.ChuteStaysOrderly := fun _ _ hst h =>
  starts_orderly.step (fun _ _ h => h) hst h

/-! ### O58: the configuration memory -/

/-- How a step can leave the memory: as it was, or with the first bytes of the write being handled written. -/
def MemoryStep (s t : State) : Prop :=
  t.cfgMem = s.cfgMem ∨
    ∃ o d k, s.port.handling = some (.write o d) ∧ t.cfgMem = Memory.writeMany s.cfgMem o (d.take k)

theorem stopTransfer_memory (s : State) : MemoryStep s s.stopTransfer := by
  unfold State.stopTransfer
  split
  · next o d h => exact .inr ⟨o, d, _, h, rfl⟩
  · exact .inl rfl

/-- A step with the memory that `stopTransfer` leaves. -/
theorem MemoryStep.of_stopped {s t : State} (h : t.cfgMem = s.stopTransfer.cfgMem) : MemoryStep s t := by
  unfold MemoryStep
  rw [h]
  exact stopTransfer_memory s

theorem warmStart_cfgMem (s : State) (k : StartKind) : (s.warmStart k).cfgMem = s.stopTransfer.cfgMem := by
  unfold State.warmStart
  split <;> rfl

theorem pinHigh_memory (s : State) (ms : Nat) : MemoryStep s (s.pinHigh ms) := by
  unfold State.pinHigh
  split
  · have h1 : MemoryStep s (State.stopTransfer { s with start := { s.start with resetLow := false } }) :=
      stopTransfer_memory { s with start := { s.start with resetLow := false } }
    dsimp only
    split
    · exact h1
    · unfold MemoryStep
      rw [warmStart_cfgMem]
      exact h1
  · exact .inl rfl

theorem tookLoad_cfgMem (s : State) (c : Cfg) : (s.tookLoad c).cfgMem = s.cfgMem := by
  unfold State.tookLoad
  dsimp only
  split <;> rfl

/-- What a running station does is no change of the memory. -/
theorem runs_cfgMem (m : List Host.Cell) : Runs (fun s => s.cfgMem = m) where
  line _ _ _ h := h
  queue _ _ _ h := h
  exchange _ _ _ _ h := h
  report _ _ h := h
  port _ _ _ h := h
  side _ _ _ _ _ _ _ h := h
  start _ _ _ _ h := h
  inv _ _ _ _ h := h
  arb _ _ _ h := h
  mark _ _ _ h := h
  paper _ _ _ h := h

theorem reportAll_cfgMem (l : List Report) (s : State) : (s.reportAll l).cfgMem = s.cfgMem := by
  induction l generalizing s with
  | nil => rfl
  | cons r l ih => exact ih _

theorem loadEnd_cfgMem (s : State) (a : Bool) : (s.loadEnd a).cfgMem = s.cfgMem := by
  have hr := runs_cfgMem s.cfgMem
  unfold State.loadEnd
  split
  · split
    · rfl
    · next c _ =>
        have h1 := hr.queueJoin (s := (s.tookLoad c).reportAll (loadReports s.start.kind c.rejected))
          ((reportAll_cfgMem _ _).trans (tookLoad_cfgMem s c))
        refine hr.settle _ ?_
        unfold State.loadGood
        dsimp only
        refine hr.entryMoved _ _ _ _ ?_
        split
        · exact h1
        · exact hr.usedChoice h1
  · rfl

theorem writeEnds_memory (s : State) : MemoryStep s s.writeEnds := by
  unfold State.writeEnds
  split
  · next o d h => exact .inr ⟨o, d, d.length, h, by rw [List.take_length]; rfl⟩
  · exact .inl rfl

/-- RESTART WARM is answered BUSY while a write is handled, so its start stops none. -/
theorem restartWarm_cfgMem (s : State) (r : Req Unit) :
    (s.request 0x06#8 .all r (fun _ s => s.restartWarm)).cfgMem = s.cfgMem := by
  refine (runs_cfgMem s.cfgMem).settle _ ?_
  unfold State.portTake
  split
  · rfl
  · split
    · rfl
    · rfl
    · next a hr =>
        have hb : s.portBusy (Req.checked r) = none := by
          cases hb : s.portBusy (Req.checked r) with
          | none => rfl
          | some b => simp [State.portTest, hb] at hr
        have hh : s.port.handling = none := by
          unfold State.portBusy at hb
          split at hb
          · cases hb
          · split at hb
            · cases hb
            · next hn => simp only [Bool.or_eq_true, not_or, Option.not_isSome_iff_eq_none] at hn; exact hn.1
        show (State.warmStart (s.answer 0x06#8 .ok []) .warmRequest).cfgMem = s.cfgMem
        rw [warmStart_cfgMem]
        simp [State.stopTransfer, hh]

theorem exec_memory (c : Instr) (s : State) : ∃ t, exec c s = .next t ∧ MemoryStep s t := by
  by_cases hc : atStart c = false
  · obtain ⟨t, ht, hm⟩ := (runs_cfgMem s.cfgMem).exec c hc s rfl
    exact ⟨t, ht, .inl hm⟩
  · cases c
    case powerOn => exact ⟨_, rfl, .of_stopped rfl⟩
    case resetPinLow =>
      refine ⟨_, rfl, ?_⟩
      unfold State.pinLow
      split
      · exact .inl rfl
      · exact .of_stopped rfl
    case resetPinRelease ms => exact ⟨_, rfl, pinHigh_memory s ms⟩
    case configLoadEnd a => exact ⟨_, rfl, .inl (loadEnd_cfgMem s a)⟩
    case restartWarm r => exact ⟨_, rfl, .inl (restartWarm_cfgMem s r)⟩
    case configWriteTransferEnd => exact ⟨_, rfl, writeEnds_memory s⟩
    all_goals exact absurd rfl hc

/-- Bytes written lie where the write being handled lies, and the form stays canonical. -/
theorem MemoryStep.kept {s t : State} (h : MemoryStep s t) (hw : Memory.wf s.cfgMem = true) :
    Memory.wf t.cfgMem = true ∧
    ∀ a : Nat, (∀ (o : Nat) (d : List Byte), s.port.handling = some (.write o d) → a < o ∨ o + d.length ≤ a) →
      Memory.read t.cfgMem a = Memory.read s.cfgMem a := by
  obtain he | ⟨o, d, k, hh, he⟩ := h
  · rw [he]
    exact ⟨hw, fun _ _ => rfl⟩
  · rw [he]
    refine ⟨Memory.writeMany_wf _ _ _ hw, fun a ha => ?_⟩
    have hout := ha o d hh
    have hlen : (d.take k).length ≤ d.length := List.length_take_le' k d
    rw [Memory.read_writeMany _ _ _ _ hw, if_neg (by omega)]

/-- Settles O58: only the end or the stop of the write being handled writes, and only its own bytes. -/
theorem memoryKept : Obligations.MemoryKept := by
  intro s t hst hw
  unfold step at hst
  split at hst
  · cases hst
    exact ⟨hw, fun _ _ => rfl⟩
  · next c q _ =>
      obtain ⟨u, hu, hm⟩ := exec_memory c { s with pending := q }
      rw [hu] at hst
      cases hst
      exact MemoryStep.kept (s := s) hm hw

/-! ### O59: the bounds -/

theorem addReport_bounded (q : List Report) (r : Report) (h : q.length ≤ Config.reportPlaces)
    (ho : q.any (fun r => r.kind == .overflow) = false → q.length < Config.reportPlaces) :
    (addReport q r).length ≤ Config.reportPlaces ∧
      ((addReport q r).any (fun r => r.kind == .overflow) = false → (addReport q r).length < Config.reportPlaces) := by
  unfold addReport
  split
  · next hany =>
      refine ⟨by simpa using h, fun hn => ?_⟩
      obtain ⟨e, he, hk⟩ := List.any_eq_true.1 hany
      have hb : (Report.bumped e).kind = e.kind := by unfold Report.bumped; split <;> rfl
      have := List.any_eq_false.1 hn _ (List.mem_map_of_mem he)
      rw [if_pos hk] at this
      exact absurd (by rw [hb]; exact hk) this
  · next hany =>
      have hlt := ho (by simpa using hany)
      split
      · next hfull =>
          refine ⟨by simpa using hlt, fun hn => ?_⟩
          simp [Report.of] at hn
      · next hroom =>
          rw [List.length_append, List.length_singleton]
          exact ⟨hlt, fun _ => by omega⟩

theorem suffix_bounded {q l : List Report} (hs : q <:+ l) (h : l.length ≤ Config.reportPlaces)
    (ho : l.any (fun r => r.kind == .overflow) = false → l.length < Config.reportPlaces) :
    q.length ≤ Config.reportPlaces ∧
      (q.any (fun r => r.kind == .overflow) = false → q.length < Config.reportPlaces) := by
  refine ⟨hs.length_le.trans h, fun hq => ?_⟩
  by_cases heq : q.length = l.length
  · rw [hs.eq_of_length heq] at hq ⊢
    exact ho hq
  · have := hs.length_le
    omega

theorem stopTransfer_reports (s : State) : s.stopTransfer.port.reports = s.port.reports := by
  unfold State.stopTransfer; split <;> rfl

theorem lineBounded_of {s t : State} (hl : Line.Within t.line s.line) (hr : t.port.reports <:+ s.port.reports)
    (h : LineBounded s) : LineBounded t := by
  obtain ⟨h1, h2, h3, h4, h5, h6, h7, h8⟩ := h
  obtain ⟨l1, l2, l3, l4, l5, l6⟩ := hl
  obtain ⟨r1, r2⟩ := suffix_bounded hr h7 h8
  exact ⟨l1.trans h1, l2.trans h2, by omega, by omega, by omega, by omega, r1, r2⟩

theorem cold_within (l : Line) : Line.Within Line.cold l :=
  ⟨Nat.zero_le _, Nat.zero_le _, Nat.zero_le _, Nat.zero_le _, Nat.zero_le _, Nat.zero_le _⟩

theorem tookLoad_line (s : State) (c : Cfg) : Line.Within (s.tookLoad c).line s.line := by
  unfold State.tookLoad
  dsimp only
  split
  · exact Line.Within.trans (m := Line.cold) (.of_lists rfl le_rfl le_rfl) (cold_within _)
  · exact .of_lists rfl le_rfl le_rfl

theorem tookLoad_reports (s : State) (c : Cfg) : (s.tookLoad c).port.reports = s.port.reports := by
  unfold State.tookLoad
  dsimp only
  split <;> rfl

theorem warmStart_within (s : State) (k : StartKind) :
    Line.Within (s.warmStart k).line s.line ∧ (s.warmStart k).port.reports <:+ s.port.reports := by
  unfold State.warmStart
  split
  · exact ⟨.of_lists (by simp) (by simp) (by simp), by rw [← stopTransfer_reports s]⟩
  · refine ⟨?_, List.nil_suffix⟩
    show Line.Within s.stopTransfer.line.warm s.line
    rw [stopTransfer_line]
    exact .of_lists rfl (Nat.zero_le _) (Nat.zero_le _)

theorem starts_lineBounded : Starts LineBounded where
  line _ _ hl h := lineBounded_of hl (List.suffix_refl _) h
  queue s f hroom h := by
    obtain ⟨h1, h2, h3, h4, h5, h6, h7, h8⟩ := h
    exact ⟨by rw [List.length_append]; exact hroom, h2, h3, h4, h5, h6, h7, h8⟩
  exchange s x n hroom h := by
    obtain ⟨h1, h2, h3, h4, h5, h6, h7, h8⟩ := h
    exact ⟨h1, by rw [List.length_append]; exact hroom, h3, h4, h5, h6, h7, h8⟩
  report s r h := by
    obtain ⟨h1, h2, h3, h4, h5, h6, h7, h8⟩ := h
    obtain ⟨r1, r2⟩ := addReport_bounded s.port.reports r h7 h8
    exact ⟨h1, h2, h3, h4, h5, h6, r1, r2⟩
  port s p hr h := lineBounded_of (s := s) (.refl _) hr h
  side _ _ _ _ _ _ _ h := h
  start _ _ _ _ h := h
  inv _ _ _ _ h := h
  arb _ _ _ h := h
  mark _ _ _ h := h
  paper _ _ _ h := h
  memory _ _ h := h
  cold s _ h := lineBounded_of (cold_within _) List.nil_suffix h
  warm s k h := lineBounded_of (warmStart_within s k).1 (warmStart_within s k).2 h
  load s c _ _ _ h := lineBounded_of (tookLoad_line s c) (by rw [tookLoad_reports]) h

/-! #### The invoice table -/

theorem invoicesBounded_iff (s : State) :
    InvoicesBounded s ↔ s.inv.Good ∧ (s.start.state = .loading → s.start.isCold = true → s.inv.table = []) :=
  ⟨fun ⟨h1, h2, h3, h4, h5, h6⟩ => ⟨⟨h1, h2, h3, h5, h6⟩, h4⟩,
    fun ⟨⟨h1, h2, h3, h5, h6⟩, h4⟩ => ⟨h1, h2, h3, h4, h5, h6⟩⟩

theorem Inv.Good.of_nil {i : Inv} (ht : i.table = []) (hr : i.retired.length ≤ Config.retiredPlaces) : i.Good :=
  ⟨by simp [ht], by simp [ht], by simp [ht], by simp [ht], hr⟩

theorem Inv.Good.warm {i : Inv} (hg : i.Good) : i.warm.Good :=
  ((hg.filter (fun e => !i.ownClaims.contains e.num)).map Entry.warm (fun _ => rfl) (fun e he o ho => by
    obtain ⟨o', ho', rfl⟩ := Option.map_eq_some_iff.1 ho
    exact he o' ho')).of_same (by rfl)

theorem stopTransfer_inv (s : State) : s.stopTransfer.inv = s.inv := by
  unfold State.stopTransfer; split <;> rfl

theorem tookLoad_inv (s : State) (c : Cfg) : (s.tookLoad c).inv =
    if s.converts c then { Inv.cold with mark := c.first - 1 }
    else if s.start.isCold then { s.inv with mark := c.first - 1 } else s.inv := by
  unfold State.tookLoad State.takeCfg
  cases s.converts c <;> cases s.start.isCold <;> rfl

theorem starts_invoicesBounded : Starts InvoicesBounded where
  line _ _ _ h := h
  queue _ _ _ h := h
  exchange _ _ _ _ h := h
  report _ _ h := h
  port _ _ _ h := h
  side _ _ _ _ _ _ _ h := h
  start s st hst hc h := by
    obtain ⟨hg, hl⟩ := (invoicesBounded_iff s).1 h
    refine (invoicesBounded_iff _).2 ⟨hg, fun hs hcold => hl ?_ (hc ▸ hcold)⟩
    rcases hst with hst | hst
    · exact hst ▸ hs
    · exact absurd hs hst
  inv s i hs hi h := by
    obtain ⟨hg, _⟩ := (invoicesBounded_iff s).1 h
    exact (invoicesBounded_iff _).2 ⟨hi hg, fun hl => absurd hl hs⟩
  arb _ _ _ h := h
  mark _ _ _ h := h
  paper _ _ _ h := h
  memory _ _ h := h
  cold s _ _ := (invoicesBounded_iff _).2 ⟨.of_nil rfl (Nat.zero_le _), fun _ _ => rfl⟩
  warm s k h := by
    obtain ⟨hg, hl⟩ := (invoicesBounded_iff s).1 h
    unfold State.warmStart
    split
    · next hc =>
        simp only [Bool.and_eq_true, beq_iff_eq] at hc
        exact (invoicesBounded_iff _).2 ⟨(stopTransfer_inv s).symm ▸ hg,
          fun _ _ => (congrArg Inv.table (stopTransfer_inv s)).trans (hl hc.1 hc.2)⟩
    · refine (invoicesBounded_iff _).2 ⟨?_, fun _ hc => by cases hc⟩
      show s.stopTransfer.inv.warm.Good
      rw [stopTransfer_inv]
      exact hg.warm
  load s c _ hs _ h := by
    obtain ⟨hg, hl⟩ := (invoicesBounded_iff s).1 h
    refine (invoicesBounded_iff _).2 ⟨?_, fun hs' => by cases hs'⟩
    rw [tookLoad_inv]
    split
    · exact .of_nil rfl (Nat.zero_le _)
    · split
      · next hcold => exact .of_nil (hl hs hcold) hg.retired
      · exact hg

/-! #### The chute -/

/-- Heads that are all in the chute table, none twice, are no more than the table's places. -/
theorem seats_le_chute {cfg : Cfg} {l : List Nat} (hn : l.Nodup) (hin : ∀ n ∈ l, cfg.inChute n = true) :
    l.length ≤ cfg.chute.length := by
  have hsub : l ⊆ cfg.chute.map (fun p => p.1) := by
    intro n hm
    obtain ⟨p, hp, he⟩ := List.any_eq_true.1 (hin n hm)
    exact List.mem_map.2 ⟨p, hp, by simpa using he⟩
  simpa using (List.subperm_of_subset hn hsub).length_le

theorem chuteBounded_iff (s : State) :
    ChuteBounded s ↔ s.cfg.chute.length ≤ 6 ∧ s.arb.Seats s.cfg.inChute ∧ (s.start.state = .loading → s.arb.heads = []) := by
  constructor
  · rintro ⟨h1, h2, h3, _, h5⟩
    exact ⟨h1, ⟨h3, h2⟩, h5⟩
  · rintro ⟨h1, ⟨h3, h2⟩, h5⟩
    refine ⟨h1, h2, h3, ?_, h5⟩
    have hq : s.arb.queue.length ≤ s.arb.heads.length := by
      simp only [Arb.heads, List.length_append, List.length_map]
      omega
    exact hq.trans ((seats_le_chute h3 h2).trans h1)

theorem chuteFrom_length (g : Image) : ∀ (k o : Nat), (chuteFrom g k o).length ≤ k
  | 0, _ => le_rfl
  | k + 1, o => by
      unfold chuteFrom
      split
      · exact Nat.zero_le _
      · exact Nat.succ_le_succ (chuteFrom_length g k (o + 2))

theorem loadMemory_chute {m : List Host.Cell} {a : Bool} {c : Cfg} (h : loadMemory m a = .inr c) :
    c.chute.length ≤ 6 := by
  unfold loadMemory at h
  split at h
  · split at h <;> cases h
    exact chuteFrom_length _ 6 _
  · cases h

theorem stopTransfer_cfg (s : State) : s.stopTransfer.cfg = s.cfg := by
  unfold State.stopTransfer; split <;> rfl

theorem tookLoad_cfg (s : State) (c : Cfg) : (s.tookLoad c).cfg = c := rfl

theorem starts_chuteBounded : Starts ChuteBounded where
  line _ _ _ h := h
  queue _ _ _ h := h
  exchange _ _ _ _ h := h
  report _ _ h := h
  port _ _ _ h := h
  side _ _ _ _ _ _ _ h := h
  start s st hst _ h := by
    obtain ⟨h1, h2, h3⟩ := (chuteBounded_iff s).1 h
    refine (chuteBounded_iff _).2 ⟨h1, h2, fun hs => ?_⟩
    rcases hst with hst | hst
    · exact h3 (hst ▸ hs)
    · exact absurd hs hst
  inv _ _ _ _ h := h
  arb s e hs h := by
    obtain ⟨h1, h2, _⟩ := (chuteBounded_iff s).1 h
    exact (chuteBounded_iff _).2 ⟨h1, h2.takeArb (fun _ hn => hn) e, fun hl => absurd hl hs⟩
  mark _ _ _ h := h
  paper _ _ _ h := h
  memory _ _ h := h
  cold s _ _ := (chuteBounded_iff _).2 ⟨Nat.zero_le _, .nil_heads rfl, fun _ => rfl⟩
  warm s k h := by
    obtain ⟨h1, h2, h3⟩ := (chuteBounded_iff s).1 h
    unfold State.warmStart
    split
    · next hc =>
        simp only [Bool.and_eq_true, beq_iff_eq] at hc
        have ha := stopTransfer_arb s
        have hcfg := stopTransfer_cfg s
        exact (chuteBounded_iff _).2 ⟨hcfg.symm ▸ h1, .nil_heads (ha.symm ▸ h3 hc.1), fun _ => ha.symm ▸ h3 hc.1⟩
    · exact (chuteBounded_iff _).2 ⟨(stopTransfer_cfg s).symm ▸ h1, .nil_heads rfl, fun _ => rfl⟩
  load s c _ hs hc h := by
    obtain ⟨_, _, h3⟩ := (chuteBounded_iff s).1 h
    have hnil : (s.tookLoad c).arb.heads = [] := by
      rw [tookLoad_arb]
      split
      · rfl
      · exact h3 hs
    exact (chuteBounded_iff _).2 ⟨loadMemory_chute hc, .nil_heads hnil, fun _ => hnil⟩

/-! #### The lanes and the sheets -/

theorem lanesBounded_iff (s : State) : LanesBounded s ↔ s.mark.Good ∧ s.paper.Good :=
  ⟨fun ⟨h1, h2, h3, h4, h5, h6, h7, h8⟩ => ⟨⟨⟨h1, h3⟩, ⟨h2, h4⟩, h5, h6⟩, ⟨h7, h8⟩⟩,
    fun ⟨⟨⟨h1, h3⟩, ⟨h2, h4⟩, h5, h6⟩, ⟨h7, h8⟩⟩ => ⟨h1, h2, h3, h4, h5, h6, h7, h8⟩⟩

theorem Marker.Good.cold : Marker.cold.Good :=
  ⟨⟨Nat.zero_le _, Nat.zero_le _⟩, ⟨Nat.zero_le _, Nat.zero_le _⟩, List.nodup_nil, fun _ hj => by cases hj⟩

theorem Paper.Good.cold : Paper.cold.Good := ⟨Nat.zero_le _, Nat.zero_le _⟩

theorem Marker.Good.warm {m : Marker} (hg : m.Good) (f : Nat → Nat → Bool) : (m.warm f).Good :=
  ⟨hg.lane1.of_le (by simp [Marker.warm, Lane.warm]) le_rfl, hg.lane2.of_le (by simp [Marker.warm, Lane.warm]) le_rfl, hg.once, hg.lanes⟩

theorem warmBlocks_paper {s : State} (hg : s.paper.Good) : s.warmBlocks.paper.Good := by
  have h1 : (s.inv.ownClaims.foldl (fun (p : Paper) n => (p.freed n).gap { s with inv := s.inv.warm } n) s.paper).Good :=
    List.foldlRecOn (motive := Paper.Good) _ _ hg (fun _ hp n _ => (hp.freed n).gap _ n)
  show Paper.Good (if s.cfg.roles.paper then _ else s.paper)
  split
  · exact h1.of_le le_rfl le_rfl le_rfl
  · exact hg

theorem stopTransfer_mark (s : State) : s.stopTransfer.mark = s.mark := by
  unfold State.stopTransfer; split <;> rfl

theorem stopTransfer_paper (s : State) : s.stopTransfer.paper = s.paper := by
  unfold State.stopTransfer; split <;> rfl

theorem starts_lanesBounded : Starts LanesBounded where
  line _ _ _ h := h
  queue _ _ _ h := h
  exchange _ _ _ _ h := h
  report _ _ h := h
  port _ _ _ h := h
  side _ _ _ _ _ _ _ h := h
  start _ _ _ _ h := h
  inv _ _ _ _ h := h
  arb _ _ _ h := h
  mark s m hm h := by
    obtain ⟨h1, h2⟩ := (lanesBounded_iff s).1 h
    exact (lanesBounded_iff _).2 ⟨hm h1, h2⟩
  paper s p hp h := by
    obtain ⟨h1, h2⟩ := (lanesBounded_iff s).1 h
    exact (lanesBounded_iff _).2 ⟨h1, hp h2⟩
  memory _ _ h := h
  cold _ _ _ := (lanesBounded_iff _).2 ⟨.cold, .cold⟩
  warm s k h := by
    obtain ⟨h1, h2⟩ := (lanesBounded_iff s).1 h
    have h1' : s.stopTransfer.mark.Good := (stopTransfer_mark s).symm ▸ h1
    have h2' : s.stopTransfer.paper.Good := (stopTransfer_paper s).symm ▸ h2
    unfold State.warmStart
    split
    · exact (lanesBounded_iff _).2 ⟨h1', h2'⟩
    · exact (lanesBounded_iff _).2 ⟨h1'.warm _, warmBlocks_paper h2'⟩
  load s c _ _ _ h := by
    obtain ⟨h1, h2⟩ := (lanesBounded_iff s).1 h
    refine (lanesBounded_iff _).2 ?_
    unfold State.tookLoad
    dsimp only
    split
    · exact ⟨.cold, .cold⟩
    · exact ⟨h1, h2⟩

/-- Settles O59: each of the four groups of bounds is kept by every small change, hence by every command. -/
theorem boundsHold : Obligations.BoundsHold := fun _ _ hst ⟨h1, h2, h3, h4⟩ =>
  ⟨starts_lineBounded.step (fun _ _ h => h) hst h1, starts_invoicesBounded.step (fun _ _ h => h) hst h2,
    starts_chuteBounded.step (fun _ _ h => h) hst h3, starts_lanesBounded.step (fun _ _ h => h) hst h4⟩

/-! ### O57: reset -/

theorem bounded_reset : Bounded State.reset :=
  ⟨⟨Nat.zero_le _, Nat.zero_le _, Nat.zero_le _, Nat.zero_le _, Nat.zero_le _, Nat.zero_le _, Nat.zero_le _, fun _ => by decide⟩,
    (invoicesBounded_iff _).2 ⟨.of_nil rfl (Nat.zero_le _), fun _ _ => rfl⟩,
    (chuteBounded_iff _).2 ⟨Nat.zero_le _, .nil_heads rfl, fun _ => rfl⟩,
    (lanesBounded_iff _).2 ⟨.cold, .cold⟩⟩

theorem peer_cold (n : Nat) : Line.cold.peer n = Peer.cold := by
  cases n with
  | zero => rfl
  | succ k =>
      by_cases hk : k < 24 <;> simp [Line.peer, Line.cold, hk]

theorem bookOf_cold (g : Nat) : Blend.cold.bookOf g = { weight := 0, count := 0 } := by
  by_cases hg : g < 12 <;> simp [Blend.bookOf, Blend.cold, hg]

/-- Settles O57: the values by evaluation, the station table and the carry-over table by their cold entries. -/
theorem resetState : Obligations.ResetState := by
  refine ⟨rfl, rfl, rfl, rfl, rfl, rfl, rfl, rfl, rfl, rfl, rfl, rfl, rfl, rfl, rfl, peer_cold, rfl, rfl, rfl, rfl, rfl,
    rfl, bookOf_cold, rfl, rfl, rfl, rfl, rfl, rfl, rfl, rfl, rfl, rfl, rfl, rfl, rfl, ?_, rfl, bounded_reset, cold_orderly⟩
  decide

end Sys2Proof.Machine

/-! ## O1 to O4: the chute leases at the blender (R89 to R95)

A command of tier 2 is a chain of jobs, each one block's answer and its actions. `job_arb` and its fellows say a job by the
block's answer; `perform_then` takes the actions one by one; `hear_done` and `hear_two` (Laws) put the jobs together. -/

namespace Sys2Proof.Machine

/-! ### One job of a block, by the block's answer -/

section
variable {s t : State} {e : Ev} {q : Jobs}

theorem job_inv {r : Eff Inv} (hw : s.working = true) (hb : takeInv s e = r)
    (hp : ({ s with inv := r.st } : State).perform r.acts = (t, q)) : s.takeJob .inv e = (t, q) := by
  rw [takeJob_inv s e hw, hb]; exact hp

theorem job_arb {r : Eff Arb} (hw : s.working = true) (hr : s.cfg.roles.blend = true) (hb : takeArb s e = r)
    (hp : ({ s with arb := r.st } : State).perform r.acts = (t, q)) : s.takeJob .arb e = (t, q) := by
  rw [takeJob_arb s e hw hr, hb]; exact hp

end

/-! ### Actions one by one -/

/-- The next state of a command is known with the state itself. -/
theorem next_eq {s t : State} (h : s = t) : (Host.Outcome.next s : Res) = .next t := congrArg _ h

section
variable {s t u : State} {r : Jobs} {l : List Act}

theorem perform_then {a : Act} (h1 : s.perform1 a = (t, [])) (h2 : t.perform l = (u, r)) :
    s.perform (a :: l) = (u, r) := by
  rw [perform_cons, h1, h2, List.nil_append]

theorem perform_post {b : Block} {e : Ev} (h : s.perform l = (u, r)) : s.perform (.post b e :: l) = (u, (b, e) :: r) := by
  rw [perform_cons]
  simp [State.perform1, h]

theorem perform1_open {k : ExKey} {m : Msg} {d p : Nat} {b : Bool} (h : s.canSend = true) (r : ExRoom s k) :
    s.perform1 (.openEx k m d p b) = (s.opens k m d p b, []) := openExchange_room s k m d p b h r

theorem perform1_reply {d : Nat} {m : Msg} {g : Tag} (h : s.canSend = true) (r : ReplyRoom s) :
    s.perform1 (.send (replyFrame d m g)) = (s.queues (replyFrame d m g), []) := sendFrame_room s _ h r

theorem perform1_job {d : Nat} {m : Msg} {g : Tag} (h : s.canSend = true) (r : JobRoom s) :
    s.perform1 (.send (jobFrame d m g)) = (s.queues (jobFrame d m g), []) := sendFrame_room s _ h r

end

/-! ### Room after hearing -/

section
variable {s : State} (n : Nat)

theorem ReplyRoom.heard (h : ReplyRoom s) : ReplyRoom (s.heardFrom n) := by
  unfold ReplyRoom; rw [heardFrom_txq]; exact h

theorem JobRoom.heard (h : JobRoom s) : JobRoom (s.heardFrom n) := by
  unfold JobRoom; rw [heardFrom_txq]; exact h

theorem ExRoom.heard {k : ExKey} (h : ExRoom s k) : ExRoom (s.heardFrom n) k := by
  obtain ⟨hq, hx, hk⟩ := h
  exact ⟨JobRoom.heard n hq, by rw [heardFrom_exchanges]; exact hx, by rw [heardFrom_exchanges]; exact hk⟩

end

/-! ### LEASE-ASK -/

/-- What a head holds in a slot, as membership in the list of heads. -/
theorem holdsCurrent_iff {a : Arb} {n : Nat} :
    a.holdsCurrent n = true ↔ n ∈ (a.current.map (fun l => l.head)).toList := by
  unfold Arb.holdsCurrent
  cases a.current with
  | none => simp
  | some l => simpa using eq_comm

theorem holdsNext_iff {a : Arb} {n : Nat} :
    a.holdsNext n = true ↔ n ∈ (a.next.map (fun l => l.head)).toList := by
  unfold Arb.holdsNext
  cases a.next with
  | none => simp
  | some l => simpa using eq_comm

/-- A head that stands nowhere holds no slot and no place in the queue. -/
theorem not_mem_heads {a : Arb} {n : Nat} (h : n ∉ a.heads) :
    a.holdsCurrent n = false ∧ a.holdsNext n = false ∧ ∀ k ∈ a.queue, k.head ≠ n := by
  simp only [Arb.heads, List.mem_append, not_or] at h
  obtain ⟨⟨hcur, hnext⟩, hqueue⟩ := h
  exact ⟨by rwa [← Bool.not_eq_true, holdsCurrent_iff], by rwa [← Bool.not_eq_true, holdsNext_iff],
    fun k hk hn => hqueue (List.mem_map.2 ⟨k, hk, hn⟩)⟩

theorem slotOf_none {a : Arb} {n : Nat} (hc : a.holdsCurrent n = false) (hn : a.holdsNext n = false) :
    a.slotOf n = none := by
  simp [Arb.slotOf, hc, hn]

/-- While the flag is SHUT no slot is filled (R92). -/
theorem fill_shut {a : Arb} (h : a.openFlag = false) (cfg : Cfg) : a.fill cfg = Eff.pure a := by
  simp [Arb.fill, Arb.fillCurrent, Arb.fillNext, h, Eff.andThen, Eff.pure]

section
variable {a : Arb} {s : State} {src : Nat} {b : LeaseAskBody}

theorem takeAsk_outside (h : s.cfg.inChute src = false) :
    a.takeAsk s src b = Eff.mk' a [noteHead src .leaseAsk b.token .notHeld] := by
  simp [Arb.takeAsk, h]

theorem takeAsk_unserved (h : s.cfg.inChute src = true) (hp : b.purpose = .topup)
    (hs : s.blend.serves b.inv = false) : a.takeAsk s src b = Eff.mk' a [endAct src 0 .exhausted] := by
  simp [Arb.takeAsk, h, hp, hs]

/-- A new ask that is served, or for a fill, is queued and the slots are filled. -/
theorem takeAsk_new (h : s.cfg.inChute src = true) (hp : b.purpose = .fill ∨ s.blend.serves b.inv = true)
    (hn : src ∉ a.heads) :
    a.takeAsk s src b = a.queueAsk s.cfg { head := src, purpose := b.purpose, token := b.token } := by
  obtain ⟨hcur, hnext, hq⟩ := not_mem_heads hn
  have hserved : (b.purpose == .topup && !s.blend.serves b.inv) = false := by
    rcases hp with hp | hp <;> simp [hp]
  have hnew : { head := src, purpose := b.purpose, token := b.token } ∉ a.queue := fun hm => hq _ hm rfl
  have hrest : a.queue.filter (fun k => k.head != src) = a.queue :=
    List.filter_eq_self.2 fun k hk => bne_iff_ne.2 (hq k hk)
  simp [Arb.takeAsk, h, hserved, slotOf_none hcur hnext, hnew, hrest]

/-- While the flag is SHUT a new ask for a fill goes to the tail of the queue. -/
theorem queueAsk_shut {k : Ask} (hf : a.openFlag = false) (hk : k.purpose = .fill) (hn : k.head ∉ a.heads) (cfg : Cfg) :
    a.queueAsk cfg k = Eff.mk' { a with queue := a.queue ++ [k] } [noteHead k.head .leaseAsk k.token .queued] := by
  obtain ⟨hcur, hnext, _⟩ := not_mem_heads hn
  have hplace : placeAsk a.queue k = a.queue ++ [k] := by simp [placeAsk, hk]
  have hneither : (({ a with queue := a.queue ++ [k] } : Arb).holdsCurrent k.head ||
      ({ a with queue := a.queue ++ [k] } : Arb).holdsNext k.head) = false := Bool.or_eq_false_iff.2 ⟨hcur, hnext⟩
  rw [Arb.queueAsk, hplace, fill_shut (a := { a with queue := a.queue ++ [k] }) hf]
  simp only [Eff.pure, hneither, Bool.false_eq_true, if_false]
  rfl

end

/-- Settles O1. -/
theorem leaseAskQueued : Obligations.LeaseAskQueued := by
  intro s e b h hr hroom
  have hw : (s.heardFrom e.src).canSend = true := h.1.1
  refine ⟨fun hc => ?_, fun hc hp hs => ?_, fun hc hp hf hn => ?_⟩
  · exact next_eq (hear_done s _ e _ .arb h rfl (job_arb (canSend_working hw) hr (takeAsk_outside hc)
      (perform_reply _ _ _ _ hw (ReplyRoom.heard _ hroom))) h.1.2 (heardFrom_still s e.src))
  · exact next_eq (hear_done s _ e _ .arb h rfl (job_arb (canSend_working hw) hr (takeAsk_unserved hc hp hs)
      (perform_job _ _ _ _ hw (JobRoom.heard _ (ReplyRoom.job hroom)))) h.1.2 (heardFrom_still s e.src))
  · have hb : s.arb.takeAsk (s.heardFrom e.src) e.src b =
        Eff.mk' { s.arb with queue := s.arb.queue ++ [{ head := e.src, purpose := .fill, token := b.token }] }
          [noteHead e.src .leaseAsk b.token .queued] := by
      rw [takeAsk_new (by exact hc) (.inl hp) hn, hp]
      exact queueAsk_shut hf rfl hn _
    exact next_eq (hear_done s _ e _ .arb h rfl (job_arb (canSend_working hw) hr hb
      (perform_reply _ _ _ _ hw (ReplyRoom.heard _ hroom))) h.1.2 (heardFrom_still s e.src))

/-! ### A grant -/

/-- CURRENT empty, the flag OPEN: the front of the queue is granted CURRENT, and the rest stays where it is empty (R92). -/
theorem fill_one {a : Arb} {k : Ask} (ho : a.openFlag = true) (hc : a.current = none) (hq : a.queue = [k]) (cfg : Cfg) :
    a.fill cfg = ({ a with queue := [] } : Arb).enterCurrent cfg
      { head := k.head, token := k.token, purpose := k.purpose, inv := a.batch.getD 0, number := nextLease a.counter } := by
  simp [Arb.fill, Arb.fillCurrent, Arb.fillNext, ho, hc, hq, Arb.enterCurrent, Eff.andThen, Eff.mk', Eff.pure]

/-- Nothing waits, or CURRENT and NEXT are held: nothing is filled. -/
theorem fill_empty {a : Arb} (hq : a.queue = []) (cfg : Cfg) : a.fill cfg = Eff.pure a := by
  cases ho : a.openFlag <;> cases hc : a.current <;> cases hn : a.next <;>
    simp [Arb.fill, Arb.fillCurrent, Arb.fillNext, ho, hc, hn, hq, Eff.andThen, Eff.pure]

/-- The notice of a grant to a head that holds no fill yet: an OUTSTANDING fill with one lease joins the list (R126). -/
theorem takeGrant_new {i : Inv} {l : Lease} {o : OwnerRec} (ho : i.owned l.inv = some o)
    (hs : o.view.hdr.state = .opened) (hf : o.fills.all (fun f => f.head != l.head) = true) :
    i.takeGrant l = Eff.pure (i.updOwn l.inv (fun x => { x with
      fills := o.fills ++ [{ head := l.head, token := l.token, leases := 1, lost := false }] })) := by
  have hg : grantFill o.fills l.head l.token =
      (o.fills ++ [{ head := l.head, token := l.token, leases := 1, lost := false }], 0) := by
    have hnone : o.fills.find? (fun f => f.head == l.head) = none := by
      rw [List.find?_eq_none]
      intro f hmem
      simpa using List.all_eq_true.1 hf f hmem
    simp [grantFill, hnone]
  simp [Inv.takeGrant, ho, hs, hg, Inv.lostHeader]

/-- The end of an event of the invoice unit where no request waits for a free entry. -/
theorem andThen_claimIfFree {r : Eff Inv} (h : r.st.phase ≠ .waitFree) (s : State) :
    r.andThen (fun i => i.claimIfFree s) = r := by
  simp [Inv.claimIfFree, h, Eff.andThen, Eff.pure]

theorem takeInv_grant {s : State} {l : Lease} {r : Eff Inv} (hb : s.inv.takeGrant l = r) (h : r.st.phase ≠ .waitFree) :
    takeInv s (.grantNotice l) = r := by
  subst hb; exact andThen_claimIfFree h s

theorem inChute_of_position {c : Cfg} {n p : Nat} (h : c.position n = some p) : c.inChute n = true := by
  obtain ⟨x, hx, _⟩ := Option.map_eq_some_iff.1 h
  exact List.any_eq_true.2 ⟨x, List.mem_of_find?_eq_some hx, by simpa using List.find?_some hx⟩

/-- With an empty chute and the flag OPEN, an ask is granted CURRENT at once (R92). -/
theorem queueAsk_open {a : Arb} {cfg : Cfg} {k : Ask} {p : Nat} (ho : a.openFlag = true) (hc : a.current = none)
    (hq : a.queue = []) (hp : cfg.position k.head = some p) :
    a.queueAsk cfg k =
      let l : Lease := { head := k.head, token := k.token, purpose := k.purpose, inv := a.batch.getD 0,
                         number := nextLease a.counter }
      Eff.mk' { a with current := some l, counter := l.number, gate := true, diverter := some p }
        [grantAct .current l, .post .inv (.grantNotice l)] := by
  have hplace : placeAsk a.queue k = [k] := by cases hk : k.purpose <;> simp [placeAsk, hk, hq]
  rw [Arb.queueAsk, hplace, fill_one (a := { a with queue := [k] }) ho hc rfl]
  simp [Arb.enterCurrent, Arb.holdsCurrent, Eff.mk', hp, ho, hq]

/-- Settles O2. -/
theorem leaseAskGranted : Obligations.LeaseAskGranted := by
  intro s e b n o p h hr hpos hp hopen hbatch hcur hnext hqueue hroom hph ho hst hf
  have hw : (s.heardFrom e.src).canSend = true := h.1.1
  have hin : s.cfg.inChute e.src = true := inChute_of_position hpos
  have hnew : e.src ∉ s.arb.heads := by simp [Arb.heads, hcur, hnext, hqueue]
  let l : Lease := { head := e.src, token := b.token, purpose := b.purpose, inv := n, number := nextLease s.arb.counter }
  have hask : s.arb.takeAsk (s.heardFrom e.src) e.src b =
      Eff.mk' { s.arb with current := some l, counter := l.number, gate := true, diverter := some p }
        [grantAct .current l, .post .inv (.grantNotice l)] := by
    rw [takeAsk_new (by exact hin) (by exact hp) hnew, queueAsk_open hopen hcur hqueue hpos]
    simp [l, hbatch]
  exact next_eq (hear_two s _ _ e _ .arb .inv (.grantNotice l) h rfl
    (job_arb (canSend_working hw) hr hask
      (perform_then (perform1_open hw (ExRoom.heard _ hroom)) (perform_post (perform_nil _))))
    (job_inv (canSend_working hw) (takeInv_grant (takeGrant_new ho hst hf) hph) (perform_nil _)) h.1.2 (heardFrom_still s e.src))

/-! ### LEASE-DONE and LEASE-CANCEL -/

theorem slotOf_of_current {a : Arb} {l : Lease} (h : a.current = some l) : a.slotOf l.head = some (.current, l) := by
  simp [Arb.slotOf, Arb.holdsCurrent, h]

theorem slotOf_of_next {a : Arb} {l : Lease} (hc : a.holdsCurrent l.head = false) (h : a.next = some l) :
    a.slotOf l.head = some (.next, l) := by
  simp [Arb.slotOf, hc, Arb.holdsNext, h]

/-- CURRENT released with nothing waiting: the gate closes (R94). -/
theorem release_last {a : Arb} (hn : a.next = none) (hq : a.queue = []) (cfg : Cfg) :
    a.release cfg = Eff.pure { a with current := none, gate := false } := by
  simp only [Arb.release, hn]
  exact fill_empty (by exact hq) cfg

/-- CURRENT released with NEXT held and nothing queued: NEXT is promoted under a new number (R94). -/
theorem release_promotes {a : Arb} {cfg : Cfg} {m : Lease} {p : Nat} (ho : a.openFlag = true) (hn : a.next = some m)
    (hq : a.queue = []) (hp : cfg.position m.head = some p) :
    a.release cfg =
      let l : Lease := { m with number := nextLease a.counter }
      Eff.mk' { a with current := some l, next := none, counter := l.number, gate := true, diverter := some p }
        [grantAct .current l, .post .inv (.grantNotice l)] := by
  have hrest (x : Arb) (hx : x.queue = a.queue) : x.fill cfg = Eff.pure x := fill_empty (hx.trans hq) cfg
  simp [Arb.release, hn, Arb.enterCurrent, hp, ho, Eff.andThen, Eff.mk', Eff.pure, hrest]

section
variable {a : Arb} {s : State} {src n : Nat}

theorem takeDone_outside (h : s.cfg.inChute src = false) :
    a.takeDone s src n = Eff.mk' a [noteHead src .leaseDone n .notHeld] := by
  simp [Arb.takeDone, h]

/-- LEASE-DONE that fits no lease of the head is noted only. -/
theorem takeDone_loose (h : s.cfg.inChute src = true) (hs : a.slotWhere src (fun l => l.number == n) = none) :
    a.takeDone s src n = Eff.mk' a [noteHead src .leaseDone n .ok] := by
  simp [Arb.takeDone, h, hs, Eff.pure, Eff.act, Eff.mk']

theorem takeDone_current {l : Lease} (h : s.cfg.inChute src = true) (hl : a.current = some l) (hh : l.head = src)
    (hn : l.number = n) : a.takeDone s src n = (a.release s.cfg).act (noteHead src .leaseDone n .ok) := by
  subst hh hn
  simp [Arb.takeDone, h, Arb.slotWhere, slotOf_of_current hl, Arb.freeSlot]

theorem takeCancel_outside (h : s.cfg.inChute src = false) :
    a.takeCancel s src n = Eff.mk' a [noteHead src .leaseCancel n .notHeld] := by
  simp [Arb.takeCancel, h]

/-- LEASE-CANCEL of a head that holds no slot takes its ask out of the queue (R95). -/
theorem takeCancel_queued (h : s.cfg.inChute src = true) (hs : a.slotOf src = none) :
    a.takeCancel s src n = Eff.mk' { a with queue := a.queue.filter (fun k => !(k.head == src && k.token == n)) }
      [noteHead src .leaseCancel n .ok] := by
  simp [Arb.takeCancel, h, Arb.slotWhere, hs, Eff.pure, Eff.act, Eff.mk']

theorem takeCancel_next {l : Lease} (h : s.cfg.inChute src = true) (hc : a.holdsCurrent src = false)
    (hl : a.next = some l) (hh : l.head = src) (ht : l.token = n) :
    a.takeCancel s src n = (a.freeNext s.cfg).act (noteHead src .leaseCancel n .ok) := by
  subst hh ht
  simp [Arb.takeCancel, h, Arb.slotWhere, slotOf_of_next hc hl, Arb.freeSlot]

theorem takeCancel_current {l : Lease} (h : s.cfg.inChute src = true) (hl : a.current = some l) (hh : l.head = src)
    (ht : l.token = n) : a.takeCancel s src n = (a.release s.cfg).act (noteHead src .leaseCancel n .ok) := by
  subst hh ht
  simp [Arb.takeCancel, h, Arb.slotWhere, slotOf_of_current hl, Arb.freeSlot]

end

/-- A frame of one head to the arbiter that is answered by one reply and moves no lease to another head. -/
theorem hear_arb_noted {s : State} {e : Env} {m : Msg} {a : Arb} {k : FrameKind} {n : Nat} {r : NotedResult}
    (h : Hears s e m) (hm : takers m = [.arb]) (hr : s.cfg.roles.blend = true) (hroom : ReplyRoom s)
    (hb : takeArb (s.heardFrom e.src) (.frame e.src e.dst m false) = Eff.mk' a [noteHead e.src k n r]) :
    s.hear .other e (some m) =
      { (s.heardFrom e.src).queues (replyFrame e.src (notedMsg k n r) .plain) with arb := a } :=
  hear_done s _ e m .arb h hm (job_arb (canSend_working h.1.1) hr hb (perform_reply _ _ _ _ h.1.1 (ReplyRoom.heard _ hroom)))
    h.1.2 (heardFrom_still s e.src)

/-- Settles O4. -/
theorem leaseCancelFrees : Obligations.LeaseCancelFrees := by
  intro s e t h hr hroom
  have next {a : Arb} (hb : s.arb.takeCancel (s.heardFrom e.src) e.src t = Eff.mk' a [noteHead e.src .leaseCancel t .ok]) :
      exec (.leaseCancel e (some t)) s = .next { (s.heardFrom e.src).queues
        (replyFrame e.src (notedMsg .leaseCancel t .ok) .plain) with arb := a } :=
    next_eq (hear_arb_noted h rfl hr hroom hb)
  refine ⟨fun hc => ?_, fun hc hcur hnext => ?_, fun l hc hcur hl hh ht hq => ?_, fun l hc hl hh ht hn hq => ?_⟩
  · exact next_eq (hear_arb_noted h rfl hr hroom (takeCancel_outside hc))
  · exact next (takeCancel_queued hc (slotOf_none hcur hnext))
  · refine next ?_
    rw [takeCancel_next (by exact hc) hcur hl hh ht, Arb.freeNext, fill_empty (by exact hq)]
    rfl
  · refine next ?_
    rw [takeCancel_current (by exact hc) hl hh ht, release_last hn hq]
    rfl

/-- Settles O3. -/
theorem leaseDoneTaken : Obligations.LeaseDoneTaken := by
  refine ⟨fun s e n h hr hroom => ?_, fun s e n p l m o h hr hroom hc hopen hq hl hh hn hnext hm hpos hex hph ho hst hf => ?_⟩
  · have next {a : Arb} (hb : s.arb.takeDone (s.heardFrom e.src) e.src n = Eff.mk' a [noteHead e.src .leaseDone n .ok]) :
        exec (.leaseDone e (some n)) s = .next { (s.heardFrom e.src).queues
          (replyFrame e.src (notedMsg .leaseDone n .ok) .plain) with arb := a } :=
      next_eq (hear_arb_noted h rfl hr hroom hb)
    refine ⟨fun hc => ?_, fun hc hnew => ?_, fun l hc hl hh hln hnext hq => ?_⟩
    · exact next_eq (hear_arb_noted h rfl hr hroom (takeDone_outside hc))
    · obtain ⟨hcur, hnx, _⟩ := not_mem_heads hnew
      exact next (takeDone_loose hc (by simp [Arb.slotWhere, slotOf_none hcur hnx]))
    · refine next ?_
      rw [takeDone_current (by exact hc) hl hh hln, release_last hnext hq]
      rfl
  · have hw : (s.heardFrom e.src).canSend = true := h.1.1
    let g : Lease := { m with number := nextLease s.arb.counter }
    have hdone : s.arb.takeDone (s.heardFrom e.src) e.src n =
        Eff.mk' { s.arb with current := some g, next := none, counter := g.number, gate := true, diverter := some p }
          [grantAct .current g, .post .inv (.grantNotice g), noteHead e.src .leaseDone n .ok] := by
      rw [takeDone_current (by exact hc) hl hh hn, release_promotes hopen hnext hq (by exact hpos)]
      rfl
    have hroom' : ReplyRoom ((s.heardFrom e.src).opens (.leaseGrant (nextLease s.arb.counter))
        (.leaseGrant { slot := .current, inv := m.inv, lease := nextLease s.arb.counter }) m.head m.head false) := by
      show ((s.heardFrom e.src).line.txq ++ [_]).length < _
      rw [heardFrom_txq, List.length_append]
      exact hroom
    exact next_eq (hear_two s _ _ e _ .arb .inv (.grantNotice g) h rfl
      (job_arb (canSend_working hw) hr hdone (perform_then (perform1_open hw (ExRoom.heard _ hex))
        (perform_post (perform_reply _ _ _ _ hw hroom'))))
      (job_inv (canSend_working hw) (takeInv_grant (takeGrant_new ho hst hf) hph) (perform_nil _)) h.1.2
      (heardFrom_still s e.src))

end Sys2Proof.Machine

/-! ## O5 to O8: frames to the head (R15, R103, R107, R109, R110, R117, R120) -/

namespace Sys2Proof.Machine

section
variable {s t : State}

theorem job_head {e : Ev} {q : Jobs} {r : Eff Head} (hw : s.working = true) (hr : s.cfg.roles.head = true)
    (hb : takeHead s e = r) (hp : ({ s with head := r.st } : State).perform r.acts = (t, q)) :
    s.takeJob .head e = (t, q) := by
  rw [takeJob_head s e hw hr, hb]; exact hp

/-- A frame that the head alone takes, and whose actions raise no job. -/
theorem hear_head {e : Env} {m : Msg} {r : Eff Head} (h : Hears s e m) (hm : takers m = [.head])
    (hr : s.cfg.roles.head = true) (hb : takeHead (s.heardFrom e.src) (.frame e.src e.dst m false) = r)
    (ho : r.st.owedDone = s.head.owedDone)
    (hp : ({ s.heardFrom e.src with head := r.st } : State).perform r.acts = (t, [])) (hs : t.still) :
    s.hear .other e (some m) = t := by
  have ht : t.head = r.st := by
    have := perform_head r.acts ({ s.heardFrom e.src with head := r.st } : State)
    rwa [hp] at this
  exact hear_done s t e m .head h hm (job_head (canSend_working h.1.1) hr hb hp)
    ((congrArg Head.owedDone ht).trans (ho.trans h.1.2)) hs

end

/-! ### HOLD and GO (R107) -/

section
variable {h : Head} {s : State}

/-- The end of HOLD opens nothing where HOLD was not in force, or the head does not wait without a lease. -/
theorem endHold_quiet (hq : h.hold = false ∨ h.state ≠ .waiting ∨ h.lease ≠ .none) :
    h.endHold s = Eff.pure { h with hold := false, lapse := .stopped } := by
  rcases hq with hq | hq | hq <;> simp [Head.endHold, hq]

theorem endHold_asks {c : ChestNow} (hh : h.hold = true) (hs : h.state = .waiting) (hl : h.lease = .none)
    (hc : h.chest = some c) :
    h.endHold s = Eff.mk' { h with hold := false, lapse := .stopped, lease := .asked, waitBlender := false,
                                   waitJoin := false }
      [.openEx (.leaseAsk c.token) (.leaseAsk { purpose := .fill, token := c.token, inv := 0 }) s.cfg.blender
        s.cfg.blender false] := by
  simp [Head.endHold, hh, hs, hl, Head.askFill, hc]

end

/-- Settles O5. -/
theorem holdAndGo : Obligations.HoldAndGo := by
  intro s e n hr
  refine ⟨fun h => ?_, fun h hq => ?_, fun c h hh hs hl hc hroom => ?_⟩
  · exact next_eq (hear_head h rfl hr rfl rfl (perform_nil _) (heardFrom_still s e.src))
  · exact next_eq (hear_head h rfl hr (endHold_quiet hq) rfl (perform_nil _) (heardFrom_still s e.src))
  · exact next_eq (hear_head h rfl hr (endHold_asks hh hs hl hc) rfl
      (perform_open _ _ _ _ _ _ h.1.1 (ExRoom.heard _ hroom)) (heardFrom_still s e.src))

/-! ### LEASE-GRANT (R109) -/

section
variable {h : Head} {s : State} {b : LeaseGrantBody}

theorem takeGrant_noChest (hc : h.chest = none) : h.takeGrant s b = Eff.mk' h [noteGrant s b.lease .notHeld] := by
  simp [Head.takeGrant, Head.repeats, hc]

theorem takeGrant_next {c : ChestNow} (hc : h.chest = some c) (hs : h.state = .waiting) (hl : h.lease = .asked)
    (hb : b.slot = .next) :
    h.takeGrant s b = Eff.mk' { h with lease := .next, chest := some { c with lease := some b.lease } }
      [noteGrant s b.lease .ok] := by
  simp [Head.takeGrant, Head.repeats, hc, hs, hl, hb, Head.setChest]

/-- A feed begins at once where the latest reading has a weight. -/
theorem toFast_weighed {c : ChestNow} {r : Reading} (hc : h.chest = some c) (hr : h.last = some r)
    (hw : r.weight.isSome = true) (lease : Nat) (p : Purpose) :
    h.toFast s lease p = Eff.pure { h with state := .fast, lease := .current,
                                           chest := some { c with lease := some lease, purpose := p } } := by
  simp [Head.toFast, Head.setChest, hc, hr, hw]

theorem takeGrant_first {c : ChestNow} {g : Nat} {r : Reading} (hc : h.chest = some c) (hs : h.state = .waiting)
    (hl : h.lease = .asked ∨ h.lease = .next) (hb : b.slot = .current)
    (hg : g = (s.invoiceGrade b.inv).getD h.refGrade) (ht : inTareWindow (s.gradeRec g) c.tare = true)
    (hr : h.last = some r) (hw : r.weight.isSome = true) :
    h.takeGrant s b = Eff.mk' { h with state := .fast, lease := .current, refGrade := g,
                                       chest := some { c with inv := some (c.inv.getD b.inv), lease := some b.lease,
                                                              purpose := .fill } }
      [noteGrant s b.lease .ok] := by
  have hfirst : h.firstGrant s c b = Eff.pure { h with
      state := .fast, lease := .current, refGrade := g,
      chest := some { c with inv := some (c.inv.getD b.inv), lease := some b.lease, purpose := .fill } } := by
    simp only [Head.firstGrant, Head.setChest, hc, Option.map_some, ← hg, ht, if_true]
    exact toFast_weighed (h := { h with refGrade := g, chest := some { c with inv := some (c.inv.getD b.inv) } }) rfl hr hw _ _
  rcases hl with hl | hl <;>
    simp [Head.takeGrant, Head.repeats, hc, hs, hl, hb, hfirst, Eff.andThen, Eff.mk', Eff.pure]

theorem takeGrant_topup {c : ChestNow} {r : Reading} (hc : h.chest = some c) (hs : h.state = .topupWait)
    (hl : h.lease = .topupAsked ∨ h.lease = .next) (hb : b.slot = .current) (hi : c.inv = some b.inv)
    (hr : h.last = some r) (hw : r.weight.isSome = true) :
    h.takeGrant s b = Eff.mk' { h with state := .fast, lease := .current,
                                       refGrade := (s.invoiceGrade b.inv).getD h.refGrade,
                                       chest := some { c with topups := c.topups + 1, lease := some b.lease,
                                                              purpose := .topup } }
      [noteGrant s b.lease .ok] := by
  have hfeed (x : Head) (hx : x.chest = some { c with topups := c.topups + 1 }) (hxr : x.last = h.last) :=
    toFast_weighed (s := s) hx (hxr.trans hr) hw b.lease .topup
  rcases hl with hl | hl <;>
    simp [Head.takeGrant, Head.repeats, hc, hs, hl, hb, hi, Head.setChest, hfeed, Eff.andThen, Eff.mk', Eff.pure]

end

/-- A LEASE-GRANT of the head's blender that is answered and makes `x` of the head. -/
theorem hear_grant {s : State} {e : Env} {b : LeaseGrantBody} {x : Head} {r : NotedResult} (h : Hears s e (.leaseGrant b))
    (hr : s.cfg.roles.head = true) (hsrc : e.src = s.cfg.blender) (hroom : ReplyRoom s)
    (hb : s.head.takeGrant (s.heardFrom e.src) b = Eff.mk' x [noteGrant (s.heardFrom e.src) b.lease r])
    (ho : x.owedDone = s.head.owedDone) :
    exec (.leaseGrant e (some b)) s =
      .next { (s.heardFrom e.src).queues (replyFrame e.src (notedMsg .leaseGrant b.lease r) .plain) with head := x } := by
  have htake : takeHead (s.heardFrom e.src) (.frame e.src e.dst (.leaseGrant b) false) =
      Eff.mk' x [.send (replyFrame e.src (notedMsg .leaseGrant b.lease r) .plain)] := by
    have hn : noteGrant (s.heardFrom e.src) b.lease r =
        .send (replyFrame e.src (notedMsg .leaseGrant b.lease r) .plain) := by rw [hsrc]; rfl
    rw [← hn, ← hb]
    exact if_pos hsrc
  exact next_eq (hear_head h rfl hr htake ho (perform_reply _ _ _ _ h.1.1 (ReplyRoom.heard _ hroom))
    (heardFrom_still s e.src))

/-- Settles O6. -/
theorem leaseGrantStarts : Obligations.LeaseGrantStarts := by
  intro s e b h hr hsrc hroom
  refine ⟨fun hc => ?_, fun c hc hs hl hb => ?_, fun c g r hc hs hl hb hg ht hlast hw => ?_,
    fun c r hc hs hl hb hi hlast hw => ?_⟩
  · exact hear_grant h hr hsrc hroom (takeGrant_noChest hc) rfl
  · exact hear_grant h hr hsrc hroom (takeGrant_next hc hs hl hb) rfl
  · exact hear_grant h hr hsrc hroom (takeGrant_first hc hs hl hb hg ht hlast hw) rfl
  · exact hear_grant h hr hsrc hroom (takeGrant_topup hc hs hl hb hi hlast hw) rfl

/-! ### LEASE-END (R110, R116) -/

theorem takeEnd_other {h : Head} {s : State} {b : LeaseEndBody} {c : ChestNow} (hc : h.chest = some c)
    (h0 : b.lease ≠ 0) (hl : c.lease ≠ some b.lease) : h.takeEnd s b = Eff.pure h := by
  simp [Head.takeEnd, hc, h0, hl]

theorem takeEnd_starves {h : Head} {s : State} {b : LeaseEndBody} {c : ChestNow} (hc : h.chest = some c)
    (hl : c.lease = some b.lease) (hs : h.state = .fast ∨ h.state = .dribble)
    (hb : b.reason = .exhausted ∨ b.reason = .stopped ∨ b.reason = .blenderRestart) :
    h.takeEnd s b = Eff.pure { h with state := .settling, lease := .none, flight := .running 0,
                                      settle := .running Config.headSettle,
                                      chest := some { c with starved := true, flight := none, lease := none } } := by
  have hst : h.starve = { h with state := .settling, lease := .none, flight := .running 0,
                                 settle := .running Config.headSettle,
                                 chest := some { c with starved := true, flight := none, lease := none } } := by
    rcases hs with hs | hs <;> simp [Head.starve, hs, Head.toSettling, Head.setChest, hc]
  rw [← hst]
  rcases hs with hs | hs <;> rcases hb with hb | hb | hb <;> simp [Head.takeEnd, hc, hl, hs, hb]

/-- Settles O7. -/
theorem leaseEndStarves : Obligations.LeaseEndStarves := by
  intro s e b c h hr hsrc hc
  have end_ {x : Head} (hb : s.head.takeEnd (s.heardFrom e.src) b = Eff.pure x) (ho : x.owedDone = s.head.owedDone) :
      exec (.leaseEnd e (some b)) s = .next { s.heardFrom e.src with head := x } :=
    next_eq (hear_head h rfl hr ((if_pos hsrc).trans hb) ho (perform_nil _) (heardFrom_still s e.src))
  refine ⟨fun h0 hl => ?_, fun hl hs hb => ?_⟩
  · exact end_ (takeEnd_other hc h0 hl) rfl
  · exact end_ (takeEnd_starves hc hl hs hb) rfl

/-! ### CHEST-REFUSED (R15, R117, R120) -/

theorem heardEnding_still (s : State) (n id : Nat) : (s.heardEnding n id).still := heardFrom_still s n

/-- A frame that ends one exchange, an end that its block passes over, and that one block takes. -/
theorem hear_ending {s t : State} {e : Env} {m : Msg} {x : Exchange} {b : Block} (h : HearsEnd s e m x)
    (hm : takers m = [b])
    (hend : (s.heardEnding e.src x.id).takeJob (exBlock x.key) (.exEnded x .confirmed (some m) false) =
      (s.heardEnding e.src x.id, []))
    (hjob : (s.heardEnding e.src x.id).takeJob b (.frame e.src e.dst m false) = (t, [])) (ho : t.head.owedDone = [])
    (hs : t.still) : s.hear .other e (some m) = t := by
  have hone : (takers m).length ≤ 1 := by rw [hm]; exact le_rfl
  rw [State.hear, act_working _ _ (canSend_working h.1.1), receive_ends s e m x h, if_pos hone, hm, ← tryTransmit_quiet t hs]
  exact settle_only _ t [endJob x m] [] [] b _ (show 1 < jobBound by decide) (by simpa [endJob] using hend) hjob (by simp) ho

section
variable {h : Head} {s : State}

theorem isChest_iff {n t : Nat} : h.isChest n t = true ↔ ∃ c, h.chest = some c ∧ c.inv = some n ∧ c.token = t := by
  unfold Head.isChest
  cases h.chest <;> simp

/-- The confirmation of the report leaves a REPORTED head as it is. -/
theorem takeExEnd_reported {x : Exchange} {n t : Nat} {m : Option Msg} (hk : x.key = .chestDone n t)
    (hs : h.state = .reported) (hc : h.isChest n t = true) : h.takeExEnd s x .confirmed m false = Eff.pure h := by
  simp [Head.takeExEnd, hk, hs, hc]

/-- A refused report holds the head, and the reason is reported. -/
theorem takeRefused_reported {b : RefusedBody} {c : ChestNow} (hc : h.chest = some c) (hi : c.inv = some b.inv)
    (ht : c.token = b.token) (hs : h.state = .reported) (hl : h.lease = .none) (hf : h.flight = .stopped) :
    h.takeRefused s b = Eff.mk' { h with
        state := .held, cause := some .refused, flight := .stopped, settle := .stopped, sendFrame := none,
        refusedVoid := false, waitOwner := false, waitBlender := false, waitJoin := false,
        chest := some { c with lease := none } }
      [.track false, .report (Report.of .headFault (some b.inv) none none (.code (reasonCode b.reason)))] := by
  have his : h.isChest b.inv b.token = true := isChest_iff.2 ⟨c, hc, hi, ht⟩
  simp [Head.takeRefused, his, Head.awaitsEntry, hs, Head.faultWith, Head.giveUp, hc, hl, hf, Timer.on, Head.setChest,
    Head.chestInv, hi]

theorem takeRefused_other {b : RefusedBody} {c : ChestNow} (hc : h.chest = some c)
    (hn : c.inv ≠ some b.inv ∨ c.token ≠ b.token) : h.takeRefused s b = Eff.pure h := by
  have his : h.isChest b.inv b.token = false := by
    rcases hn with hn | hn <;> simp [Head.isChest, hc, hn]
  simp [Head.takeRefused, his]

end

/-- Settles O8. -/
theorem chestRefusedHolds : Obligations.ChestRefusedHolds := by
  refine ⟨fun s e b c x h hr hc hi ht hk hs hl hf => ?_, fun s e b c h hr hc => ⟨fun hn => ?_, fun hi ht hs hl hf => ?_⟩⟩
  · have hpass : takeHead (s.heardEnding e.src x.id) (.exEnded x .confirmed (some (.chestRefused b)) false) =
        Eff.pure s.head := by
      show s.head.takeExEnd (s.heardEnding e.src x.id) x .confirmed (some (.chestRefused b)) false = _
      exact takeExEnd_reported hk hs (isChest_iff.2 ⟨c, hc, hi, ht⟩)
    have hend := job_head (s := s.heardEnding e.src x.id) (canSend_working h.1.1) hr hpass (perform_nil (s.heardEnding e.src x.id))
    exact next_eq (hear_ending h rfl (by rw [hk]; exact hend)
      (job_head (canSend_working h.1.1) hr (takeRefused_reported hc hi ht hs hl hf) rfl) h.1.2
      (heardEnding_still s e.src x.id))
  · exact next_eq (hear_head h rfl hr (takeRefused_other hc hn) rfl (perform_nil _) (heardFrom_still s e.src))
  · exact next_eq (hear_head h rfl hr (takeRefused_reported hc hi ht hs hl hf) rfl rfl (heardFrom_still s e.src))

end Sys2Proof.Machine

/-! ## O10 and O12: frames to a copy of an invoice (R26, R36, R37, R39, R44)

A frame of the invoice unit changes the table and gives notices. `hear_inv` says what hearing such a frame is when its
notices find nothing to do; the notices themselves are the lists `copyNotice` and `ownerNotice` of the model. -/

namespace Sys2Proof.Machine

/-! ### Jobs that do nothing -/

section
variable {s : State} {e : Ev}

theorem idle_blend (h : takeBlend s e = Eff.pure s.blend) : s.takeJob .blend e = (s, []) := by
  unfold State.takeJob
  split
  · simp only [State.runBlend, h]; rfl
  · rfl

theorem idle_head (h : takeHead s e = Eff.pure s.head) : s.takeJob .head e = (s, []) := by
  unfold State.takeJob
  split
  · simp only [State.runHead, h]; rfl
  · rfl

/-- An owner change is nothing to a blender whose batch is another invoice. -/
theorem blend_ownerChanged {n : Nat} (h : s.blend.batchInv ≠ some n) :
    takeBlend s (.ownerChanged n) = Eff.pure s.blend := by
  have hb : (s.blend.batchInv == some n) = false := by simpa using h
  simp [takeBlend, Blend.lost, hb]

theorem head_ownerChanged {n : Nat} (h : s.head.chestInv ≠ some n) : takeHead s (.ownerChanged n) = Eff.pure s.head := by
  simp [takeHead, Head.takeOwner, h]

/-- A station without marker and paper unit has nothing to do at a change of a copy. -/
theorem copyNotice_idle (n : Nat) (hm : s.cfg.roles.mark = false) (hp : s.cfg.roles.paper = false) :
    ∀ j ∈ [Block.mark, .paper].map (fun b => (b, Ev.copyChanged n)), s.takeJob j.1 j.2 = (s, []) := by
  simp only [List.map_cons, List.map_nil, List.forall_mem_cons]
  exact ⟨takeJob_no_mark s _ hm, takeJob_no_paper s _ hp, by simp⟩

/-- Nor has one at an owner change of an invoice that neither its batch nor its chest is of. -/
theorem ownerNotice_idle {n : Nat} (hm : s.cfg.roles.mark = false) (hp : s.cfg.roles.paper = false)
    (hb : s.blend.batchInv ≠ some n) (hc : s.head.chestInv ≠ some n) :
    ∀ j ∈ [Block.blend, .head, .mark, .paper].map (fun b => (b, Ev.ownerChanged n)), s.takeJob j.1 j.2 = (s, []) := by
  simp only [List.map_cons, List.map_nil, List.forall_mem_cons]
  exact ⟨idle_blend (blend_ownerChanged hb), idle_head (head_ownerChanged hc), takeJob_no_mark s _ hm,
    takeJob_no_paper s _ hp, by simp⟩

end

/-! ### Actions in two parts -/

section
variable {s t u : State} {q r : Jobs} {l m : List Act}

theorem perform_append (h1 : s.perform l = (t, q)) (h2 : t.perform m = (u, r)) : s.perform (l ++ m) = (u, q ++ r) := by
  induction l generalizing s q with
  | nil =>
      cases h1
      exact h2
  | cons a l ih =>
      cases h1
      rw [List.cons_append, perform_cons, ih rfl]
      exact congrArg (Prod.mk u) (List.append_assoc _ _ _).symm

theorem perform_posts (s : State) (bs : List Block) (e : Ev) : s.perform (posts bs e) = (s, bs.map (fun b => (b, e))) := by
  induction bs with
  | nil => rfl
  | cons b bs ih => exact perform_post ih

end

/-! ### A frame that the invoice unit takes -/

section
variable {s t : State} {e : Env} {m : Msg} {q : Jobs} {r : Eff Inv}

theorem takeInv_frame {src dst : Nat} {own : Bool} (hb : s.inv.takeFrame s src m own = r) (hph : r.st.phase ≠ .waitFree) :
    takeInv s (.frame src dst m own) = r := by
  subst hb; exact andThen_claimIfFree hph s

/-- The jobs of the invoice unit leave the head. -/
theorem head_of_perform {i : Inv} {l : List Act} (hp : ({ s with inv := i } : State).perform l = (t, q)) :
    t.head = s.head := by
  have := perform_head l ({ s with inv := i } : State)
  rwa [hp] at this

/-- A frame that the invoice unit alone takes, and whose notices find nothing to do. -/
theorem hear_inv (h : Hears s e m) (hm : takers m = [.inv])
    (hb : s.inv.takeFrame (s.heardFrom e.src) e.src m false = r) (hph : r.st.phase ≠ .waitFree)
    (hp : ({ s.heardFrom e.src with inv := r.st } : State).perform r.acts = (t, q))
    (hq : ∀ j ∈ q, t.takeJob j.1 j.2 = (t, [])) (hs : t.still) : s.hear .other e (some m) = t :=
  hear_notices s t e m .inv q h hm (job_inv (canSend_working h.1.1) (takeInv_frame hb hph) hp) hq
    ((congrArg Head.owedDone (head_of_perform hp)).trans h.1.2) hs

/-- A frame that the invoice unit takes among others, which find nothing to do in it. -/
theorem hear_inv_only (h : Hears s e m) (hm : .inv ∈ takers m) (hl : ¬ (takers m).length ≤ 1)
    (idle : ∀ c, c ∈ takers m → c ≠ .inv →
      (s.heardFrom e.src).usedChoice.takeJob c (.frame e.src e.dst m false) = ((s.heardFrom e.src).usedChoice, []) ∧
      t.takeJob c (.frame e.src e.dst m false) = (t, []))
    (hb : s.inv.takeFrame (s.heardFrom e.src).usedChoice e.src m false = r) (hph : r.st.phase ≠ .waitFree)
    (hp : ({ (s.heardFrom e.src).usedChoice with inv := r.st } : State).perform r.acts = (t, q))
    (hq : ∀ j ∈ q, t.takeJob j.1 j.2 = (t, [])) (hs : t.still) : s.hear .other e (some m) = t :=
  hear_only s t e m .inv q h hm hl idle (job_inv (s := (s.heardFrom e.src).usedChoice) (canSend_working h.1.1) (takeInv_frame hb hph) hp) hq
    ((congrArg Head.owedDone (head_of_perform (s := (s.heardFrom e.src).usedChoice) hp)).trans h.1.2) hs

end

/-! ### The version rule at a copy (R36) -/

section
variable {i : Inv} {s : State} {x : Entry} {src n v : Nat} {change : Rec → Option Rec}

theorem takeEntry_old (hx : i.find n = some x) (ho : x.own = none) (hc : x.copy = .complete)
    (hs : x.data.hdr.owner = src) (hv : v ≤ x.data.hdr.version) : i.takeEntry s src n v change = Eff.pure i := by
  have hg : gapTest x.data.hdr.version v = some false := by
    have : v ≠ x.data.hdr.version + 1 := by omega
    simp [gapTest, hv, this]
  simp [Inv.takeEntry, hx, ho, hc, hs, hg]

theorem takeEntry_next {d : Rec} (hx : i.find n = some x) (ho : x.own = none) (hc : x.copy = .complete)
    (hs : x.data.hdr.owner = src) (hv : v = x.data.hdr.version + 1) (hd : change x.data = some d) :
    i.takeEntry s src n v change =
      Eff.mk' (i.upd n (fun y => { y with data := d.atVersion v })) (copyNotice n) := by
  simp [Inv.takeEntry, hx, ho, hc, hs, gapTest, hv, hd]

/-- A version gap: the copy is STALE and asks the sender (R36). -/
theorem takeEntry_gap (hx : i.find n = some x) (ho : x.own = none) (hc : x.copy = .complete)
    (hs : x.data.hdr.owner = src) (hv : x.data.hdr.version + 1 < v) :
    i.takeEntry s src n v change = i.stale s n src := by
  have hg : gapTest x.data.hdr.version v = some true := by
    have h1 : v ≠ x.data.hdr.version + 1 := by omega
    have h2 : ¬ v ≤ x.data.hdr.version := by omega
    simp [gapTest, h1, h2]
  simp [Inv.takeEntry, hx, ho, hc, hs, hg]

/-- A copy whose ask timer is stopped and that is no orphan asks where it becomes STALE. -/
theorem stale_asks {dst : Nat} (hx : i.find n = some x) (ht : x.askT = .stopped) (ho : x.orphan = false) :
    i.stale s n dst = Eff.mk' (i.upd n (fun y => { y with copy := .stale, askT := .running Config.askTime }))
      (.send (jobFrame dst (.recordAsk n) (.ask n)) :: copyNotice n) := by
  have hf : (i.upd n (fun y => { y with copy := .stale })).find n = some { x with copy := .stale } := by
    rw [find_upd_self i n _ (by intro _ h; exact h), hx]; rfl
  have hu := upd_upd i n (fun y => { y with copy := .stale }) (fun y => { y with askT := .running Config.askTime })
    (by intro _ h; exact h)
  simp [Inv.stale, Inv.ask, hf, ht, ho, Timer.on, Inv.askTo, hu, Eff.adds, Eff.mk']

end

/-- A frame that is not queued is not removed. -/
theorem perform1_unsend_none {s : State} {u : Unsend} (h : s.line.txq.all (fun f => !u.hits f) = true) :
    s.perform1 (.unsend u) = (s, []) := by
  show ({ s with line := s.line.removeWhere u.hits }, []) = _
  rw [removeWhere_none s.line u.hits h]

theorem adopt_hits (n : Nat) (f : TxFrame) : (Unsend.adopt n).hits f = (f.tag == .adopt n) := by
  cases h : f.tag <;> simp [Unsend.hits, h, beq_eq_decide, eq_comm]

theorem claim_hits (n : Nat) (f : TxFrame) : (Unsend.claim n).hits f = (f.tag == .claim n) := by
  cases h : f.tag <;> simp [Unsend.hits, h, beq_eq_decide, eq_comm]

/-- The ADOPT at the next version gives a copy its new owner (R44). -/
theorem takeAdopt_next {i : Inv} {s : State} {x : Entry} {src : Nat} {b : AdoptBody} (hx : i.find b.inv = some x)
    (ho : x.own = none) (hc : x.copy = .complete) (hf : b.forced = false) (hv : b.version = x.data.hdr.version + 1) :
    i.takeAdopt s src b = Eff.mk' (i.upd b.inv (fun e => { e with
        orphan := false, adoptT := .stopped,
        data := { e.data with hdr := { e.data.hdr with owner := src, version := b.version, adoption := .plain } } }))
      (.unsend (.adopt b.inv) :: (ownerNotice b.inv ++ copyNotice b.inv)) := by
  simp [Inv.takeAdopt, hx, ho, hc, gapTest, hv, hf, Entry.unorphaned]

/-- Settles O10. -/
theorem copyFollowsMarksAndAdoption : Obligations.CopyFollowsMarksAndAdoption := by
  refine ⟨fun s e b x h hm hp hph hx ho hc hown => ?_, fun s e b x h hm hp hph hbatch hchest htx hx ho hc hf hv => ?_⟩
  · have idle (t : State) (ht : t.cfg = s.cfg) : ∀ c, c ∈ takers (.markEntered b) → c ≠ .inv →
        (s.heardFrom e.src).usedChoice.takeJob c (.frame e.src e.dst (.markEntered b) false) =
          ((s.heardFrom e.src).usedChoice, []) ∧
        t.takeJob c (.frame e.src e.dst (.markEntered b) false) = (t, []) := by
      intro c hc hne
      have : c = .mark := by simpa [takers, hne] using hc
      subst this
      exact ⟨takeJob_no_mark _ _ hm, takeJob_no_mark _ _ (by rw [ht]; exact hm)⟩
    refine ⟨fun hv => ?_, fun hv hord => ?_, fun hv hask horph hroom => ?_⟩
    · exact next_eq (hear_inv_only h (by simp [takers]) (by simp [takers]) (idle _ rfl) (takeEntry_old hx ho hc hown hv)
        hph (perform_nil _) (by simp) (heardFrom_still s e.src))
    · have hd : markChange b x.data = some (x.data.setMark b.ordinal b.how b.marker) := if_pos hord
      exact next_eq (hear_inv_only h (by simp [takers]) (by simp [takers]) (idle _ rfl)
        (takeEntry_next hx ho hc hown hv hd) hph (perform_posts _ _ _) (copyNotice_idle b.inv hm hp)
        (heardFrom_still s e.src))
    · exact next_eq (hear_inv_only h (by simp [takers]) (by simp [takers]) (idle _ rfl)
        ((takeEntry_gap hx ho hc hown hv).trans (stale_asks hx hask horph)) hph
        (perform_then (perform1_job h.1.1 (JobRoom.heard _ hroom)) (perform_posts _ _ _)) (copyNotice_idle b.inv hm hp)
        (heardFrom_still s e.src))
  · refine ⟨s.inv.upd b.inv (fun y => { y with
        orphan := false, adoptT := .stopped,
        data := { y.data with hdr := { y.data.hdr with owner := e.src, version := b.version, adoption := .plain } } }),
      ?_, rfl, ?_, fun k hk => find_upd_ne _ _ _ _ (by intro _ h; exact h) hk⟩
    · have hun : (s.heardFrom e.src).line.txq.all (fun f => !(Unsend.adopt b.inv).hits f) = true := by
        rw [heardFrom_txq]
        simp only [adopt_hits]
        exact htx
      exact next_eq (hear_inv h rfl (takeAdopt_next hx ho hc hf hv) hph
        (perform_then (perform1_unsend_none hun) (perform_append (perform_posts _ _ _) (perform_posts _ _ _)))
        (List.forall_mem_append.2 ⟨ownerNotice_idle hm hp hbatch hchest, copyNotice_idle b.inv hm hp⟩)
        (heardFrom_still s e.src))
    · rw [find_upd_self _ _ _ (by intro _ h; exact h), hx]
      rfl

/-! ### Rebuilding from a dump (R39) -/

/-- The items of a dump leave the header. -/
theorem foldl_addItem_hdr (l : List Item) (r : Rec) : (l.foldl Rec.addItem r).hdr = r.hdr := by
  induction l generalizing r with
  | nil => rfl
  | cons a l ih => rw [List.foldl_cons, ih]; cases a <;> rfl

section
variable {i : Inv} {s : State} {x : Entry} {b : BlockBody} {r : Rebuild}

/-- The entry of a rebuild with the items of one more block. -/
def Entry.withBlock (x : Entry) (r : Rebuild) (b : BlockBody) : Entry :=
  { x with data := b.items.foldl Rec.addItem x.data, rebuildT := .running Config.rebuildTime,
           rebuild := some { r with got := r.got + b.items.length } }

theorem withBlock_num (x : Entry) (r : Rebuild) (b : BlockBody) : (x.withBlock r b).num = x.num :=
  congrArg Header.inv (foldl_addItem_hdr b.items x.data)

theorem takeBlock_more (hx : i.find b.inv = some x) (ho : x.own = none) (hc : x.copy = .rebuilding)
    (hr : x.rebuild = some r) (hv : r.version = b.version) (hg : r.got + b.items.length < r.count) :
    i.takeBlock s b = Eff.mk' (i.upd b.inv (fun _ => x.withBlock r b)) (copyNotice b.inv) := by
  have hg' : ¬ r.count ≤ r.got + b.items.length := by omega
  simp [Inv.takeBlock, hx, hr, hc, hv, ho, hg', Entry.withBlock]

/-- The last block of a dump makes the copy COMPLETE at the dump's version. -/
theorem takeBlock_last (hx : i.find b.inv = some x) (ho : x.own = none) (hc : x.copy = .rebuilding)
    (hr : x.rebuild = some r) (hv : r.version = b.version) (hg : r.count ≤ r.got + b.items.length)
    (horph : x.orphan = false) (hst : x.data.hdr.state ≠ .closed) :
    i.takeBlock s b = Eff.mk' (i.upd b.inv (fun _ => { x with
        data := (b.items.foldl Rec.addItem x.data).atVersion r.version, copy := .complete, rebuildT := .stopped,
        rebuild := none })) (copyNotice b.inv ++ copyNotice b.inv) := by
  have hnum : (x.withBlock r b).num = b.inv := (withBlock_num x r b).trans (find_num hx)
  have hopen : ((x.withBlock r b).data.hdr.state == .closed) = false := by
    show ((b.items.foldl Rec.addItem x.data).hdr.state == .closed) = false
    rw [foldl_addItem_hdr]
    simpa using hst
  have hfind (y : Entry) (hy : y.num = b.inv) : (i.upd b.inv (fun _ => y)).find b.inv = some y := by
    rw [find_upd_self i _ _ (fun _ _ => hy), hx]; rfl
  have hshort : i.takeBlock s b = (Eff.mk' (i.upd b.inv (fun _ => x.withBlock r b)) (copyNotice b.inv)).andThen
      (fun j => j.rebuilt s b.inv r.version r.wasClosed) := by
    simp [Inv.takeBlock, hx, hr, hc, hv, ho, hg, Entry.withBlock]
  rw [hshort]
  simp only [Inv.rebuilt, Eff.andThen, Eff.mk']
  rw [upd_upd i _ _ _ (fun _ _ => hnum)]
  have horph' : (x.withBlock r b).orphan = false := horph
  simp only [hopen, horph', Bool.false_and, Bool.false_eq_true, if_false]
  rw [hfind _ (by exact hnum)]
  have : (((x.withBlock r b).data.atVersion r.version).hdr.state == .closed) = false := hopen
  simp only [this, Bool.false_and, Bool.false_eq_true, if_false]
  simp [Entry.withBlock, horph]

end

/-- Settles O12. -/
theorem dumpRebuildsCopy : Obligations.DumpRebuildsCopy := by
  intro s e b x r h hm hp hph hx ho hc hr hv
  refine ⟨fun hg => ?_, fun hg horph hst => ?_⟩
  · exact next_eq (hear_inv h rfl (takeBlock_more hx ho hc hr hv hg) hph (perform_posts _ _ _)
      (copyNotice_idle b.inv hm hp) (heardFrom_still s e.src))
  · exact next_eq (hear_inv h rfl (takeBlock_last hx ho hc hr hv hg horph hst) hph
      (perform_append (perform_posts _ _ _) (perform_posts _ _ _))
      (List.forall_mem_append.2 ⟨copyNotice_idle b.inv hm hp, copyNotice_idle b.inv hm hp⟩)
      (heardFrom_still s e.src))

/-! ### RECORD-ASK at the owner (R38) -/

/-- Settles O13. -/
theorem recordAskAnswered : Obligations.RecordAskAnswered := by
  intro s e n h hph hroom
  refine ⟨fun ho => ?_, fun o ho hd => ?_, fun o ho hd => ?_⟩
  · have hb : s.inv.takeAsk e.src n = Eff.mk' s.inv [.send (replyFrame e.src (notedMsg .recordAsk n .notHeld) .plain)] := by
      simp [Inv.takeAsk, ho, Eff.mk']
    exact next_eq (hear_inv h rfl hb hph (perform_reply _ _ _ _ h.1.1 (ReplyRoom.heard _ hroom)) (by simp)
      (heardFrom_still s e.src))
  · have hb : s.inv.takeAsk e.src n = Eff.pure s.inv := by simp [Inv.takeAsk, ho, hd]
    exact next_eq (hear_inv h rfl hb hph (perform_nil _) (by simp) (heardFrom_still s e.src))
  · have hb : s.inv.takeAsk e.src n = Eff.mk' (s.inv.updOwn n (fun y =>
        { y with dump := some { version := y.issued, rest := blocksOf y.view.items } }))
          [.send (replyFrame 0 (.header
            { hdr := { o.view.hdr with version := o.issued }, dump := true, resumed := false, newVoid := none,
              entryCount := o.view.chests.length + o.view.voids.length }) (.dump n))] := by
      simp [Inv.takeAsk, ho, hd, Inv.startDump, Eff.mk']
    exact next_eq (hear_inv h rfl hb hph (perform_reply _ _ _ _ h.1.1 (ReplyRoom.heard _ hroom)) (by simp)
      (heardFrom_still s e.src))

end Sys2Proof.Machine

/-! ## O14: why a CHEST-DONE of class SHORT is not as stated

The found fill of a short chest is set OUTSTANDING by a change of the whole fill list, made in every entry of the number; the
statement has only the short slot change. In a table with two entries of one number, which no run reaches but which the
statement allows, the second entry's LOST fill of that head and token is found too. -/

namespace Sys2Proof.Machine

/-- An ACTIVE station 3 with no role block, every other station PRESENT. -/
def plainStation : State :=
  { State.reset with
    start := { State.reset.start with state := .active }, cfg := { Cfg.none with number := 3 },
    line := { State.reset.line with table := Vector.replicate 24 { Peer.cold with state := .present } } }

/-- The header of the OPEN invoice 4 of station 3 at version 1. -/
def openHeader : Header :=
  { inv := 4, owner := 3, version := 1, state := .opened, batch := 3, order := 7, garden := [], grade := 0,
    charged := 50000, planned := 10, entered := 0, netTotal := 0, voidTotal := 0, voidCount := 0, residue := none,
    endCause := none, adoption := .unadopted, lostFills := 0 }

/-- The owner's records of that invoice with a fill list. -/
def openRecords (fills : List Fill) : OwnerRec :=
  { OwnerRec.start { hdr := openHeader, chests := [], voids := [] } with fills := fills }

def openEntry (fills : List Fill) : Entry :=
  { Entry.made openHeader .complete with own := some (openRecords fills) }

/-- Invoice 4 stands twice in the table, the second time with a LOST fill of head 5 and token 9. -/
def twiceOpen : State :=
  { plainStation with inv := { plainStation.inv with
    table := [openEntry [], openEntry [{ head := 5, token := 9, leases := 1, lost := true }]] } }

/-- The LOST flags of the fills of the owned entries after a command. -/
def lostFlags : Res → List (List Bool)
  | .next t => t.inv.table.map (fun x => (x.own.map (fun o => o.fills.map (fun f => f.lost))).getD [])
  | _ => []

/-- Refutes O14: the statement leaves the second entry's fill LOST, and the model finds it. -/
theorem not_chestDoneEntered : ¬ Obligations.ChestDoneEntered := by
  intro h
  let e : Env := { dst := 3, src := 5 }
  let b : ChestDoneBody :=
    { inv := 4, token := 9, gross := 6000, tare := 1000, net := 1500, topups := 0, cls := .short, flightLong := false }
  have hshort := (((h twiceOpen e b (by decide) (by decide) (by decide)).2.2.2 (openRecords []) rfl rfl rfl
    (by decide)).2.2 rfl rfl rfl rfl (by decide) (by decide)).1 rfl
  have hmodel : lostFlags (exec (.chestDone e (some b)) twiceOpen) = [[], [false]] := by decide
  rw [hshort] at hmodel
  exact absurd hmodel (by decide)

end Sys2Proof.Machine

/-! ## O15, O16, O17: what the owner issues (R35, R49, R132, R133, R168)

Each answer of the owner is a chain of changes of its own records. `Inv.OwnerChanged` says what such a chain leaves: the rest
of the unit, the other entries and the copy. -/

namespace Sys2Proof.Machine

/-! ### A change of the owner's records -/

/-- `j` is `i` but for the owner's records of invoice `n`, which are `o` in `j`. -/
structure Inv.OwnerChanged (i j : Inv) (n : Nat) (o : OwnerRec) : Prop where
  rest : j = { i with table := j.table }
  others : ∀ k, k ≠ n → j.find k = i.find k
  data : (j.find n).map (fun x => x.data) = (i.find n).map (fun x => x.data)
  owned : j.owned n = some o

namespace Inv.OwnerChanged

variable {i j : Inv} {n : Nat} {o : OwnerRec}

theorem refl (h : i.owned n = some o) : i.OwnerChanged i n o := ⟨rfl, fun _ _ => rfl, rfl, h⟩

theorem updOwn (h : i.OwnerChanged j n o) (f : OwnerRec → OwnerRec) : i.OwnerChanged (j.updOwn n f) n (f o) := by
  obtain ⟨hrest, hothers, hdata, howned⟩ := h
  refine ⟨?_, fun k hk => (find_updOwn_ne j n k f hk).trans (hothers k hk), ?_, ?_⟩
  · show ({ j with table := _ } : Inv) = _
    rw [hrest]
    rfl
  · rw [← hdata, Inv.updOwn, find_upd_self j n _ (by intro _ h; exact h), Option.map_map]
    rfl
  · rw [owned_updOwn, howned]
    rfl

theorem phase (h : i.OwnerChanged j n o) : j.phase = i.phase := by
  rw [h.rest]

end Inv.OwnerChanged

/-! ### Frames of the owner (R35) -/

section
variable {i : Inv} {n : Nat} {o : OwnerRec}

/-- With no re-send delay a frame of the owner goes to the queue. -/
theorem sendOwned_now (ho : i.owned n = some o) (hd : o.resendDelay = .stopped) (f : TxFrame) :
    i.sendOwned n f = Eff.mk' i [.send f] := by
  unfold Inv.owned at ho
  unfold Inv.sendOwned
  cases hx : i.find n with
  | none => rfl
  | some x => simp_all [Timer.on, Eff.mk']

/-- A change at the next version. -/
theorem issue_next (ho : i.owned n = some o) (hd : o.resendDelay = .stopped) (hv : o.issued < Config.maxVersion)
    (chg : Rec → Rec) (msg : Rec → Msg) :
    i.issue n chg msg =
      Eff.mk' (i.updOwn n (fun y => { y with
          issued := o.issued + 1, view := (chg o.view).atVersion (o.issued + 1) }))
        [.send (jobFrame 0 (msg ((chg o.view).atVersion (o.issued + 1))) (.versioned n (o.issued + 1)))] := by
  have hroom : ¬ o.issued ≥ Config.maxVersion := by omega
  have hown : (i.updOwn n (fun y => { y with
      issued := o.issued + 1, view := (chg o.view).atVersion (o.issued + 1) })).owned n =
      some { o with issued := o.issued + 1, view := (chg o.view).atVersion (o.issued + 1) } := by
    rw [owned_updOwn, ho]; rfl
  simp only [Inv.issue, ho, hroom, if_false]
  exact sendOwned_now hown hd _

theorem issueHdr_next (ho : i.owned n = some o) (hd : o.resendDelay = .stopped) (hv : o.issued < Config.maxVersion)
    (chg : Header → Header) :
    i.issueHdr n chg =
      Eff.mk' (i.updOwn n (fun y => { y with
          issued := o.issued + 1, view := { o.view with hdr := { chg o.view.hdr with version := o.issued + 1 } } }))
        [.send (jobFrame 0 (headerMsg { chg o.view.hdr with version := o.issued + 1 } false none)
          (.versioned n (o.issued + 1)))] :=
  issue_next ho hd hv _ _

/-! ### The tests of an invoice that is OPEN (R131, R134) -/

theorem shortTest_not_ending (ho : i.owned n = some o) (hs : o.view.hdr.state ≠ .ending) : i.shortTest n = Eff.pure i := by
  cases hk : o.short <;> simp [Inv.shortTest, ho, hk, hs]

theorem endTest_not_ending (ho : i.owned n = some o) (hs : o.view.hdr.state ≠ .ending) : i.endTest n = Eff.pure i := by
  simp [Inv.endTest, ho, hs]

theorem closeTest_not_marking (ho : i.owned n = some o) (hs : o.view.hdr.state ≠ .marking) : i.closeTest n = Eff.pure i := by
  simp [Inv.closeTest, ho, hs]

/-- An event that changes no lost-fill count of an invoice that is not ENDING ends with nothing. -/
theorem conclude_not_ending (ho : i.owned n = some o) (hs : o.view.hdr.state ≠ .ending) :
    i.conclude n none = Eff.pure i := by
  simp [Inv.conclude, shortTest_not_ending ho hs, Eff.andThen, Eff.pure, Inv.lostHeader, endTest_not_ending ho hs]

theorem found_none {src token : Nat} (h : o.holdsLost src token = false) : o.found src token = none := by
  simp [OwnerRec.found, h]

end

/-! ### FILL-VOID (R132) -/

section
variable {i : Inv} {s : State} {src : Nat} {b : VoidBody} {o : OwnerRec}

theorem takeVoid_repeat (ho : i.owned b.inv = some o) (hs : o.view.hdr.state = .opened)
    (hv : (o.view.voidOf src b.token).isSome = true) :
    i.takeVoid src b = Eff.mk' i [.send (replyFrame src (notedMsg .fillVoid b.token .ok) .plain)] := by
  simp [Inv.takeVoid, ho, hs, hv]

/-- The records of the owner with a void recorded. -/
def OwnerRec.withVoid (o : OwnerRec) (src : Nat) (b : VoidBody) : OwnerRec :=
  { o with issued := o.issued + 1,
           view := (o.view.addVoid { head := src, token := b.token, net := b.net }).atVersion (o.issued + 1),
           fills := o.fills.filter (fun f => !f.is src b.token) }

theorem takeVoid_new (ho : i.owned b.inv = some o) (hd : o.resendDelay = .stopped) (hs : o.view.hdr.state = .opened)
    (hv : o.view.voidOf src b.token = none) (hc : o.view.chestOf src b.token = none)
    (hl : o.holdsLost src b.token = false) (hk : o.slotIs src b.token = false)
    (hroom : o.view.voids.length < Config.maxVoids) (hver : o.issued < Config.maxVersion) :
    ∃ j, i.OwnerChanged j b.inv (o.withVoid src b) ∧
      i.takeVoid src b = Eff.mk' j
        [.send (jobFrame 0 (headerMsg (o.withVoid src b).view.hdr false (some { head := src, token := b.token, net := b.net }))
          (.versioned b.inv (o.issued + 1))),
         .send (replyFrame src (notedMsg .fillVoid b.token .ok) .plain)] := by
  have h1 := ((Inv.OwnerChanged.refl ho).updOwn (fun o => { o with fills := o.fills.filter (fun f => !f.is src b.token) })).updOwn
    (fun o => if o.slotIs src b.token then { o with short := none } else o)
  have hslot : ({ o with fills := o.fills.filter (fun f => !f.is src b.token) } : OwnerRec).slotIs src b.token = false := hk
  simp only [hslot, Bool.false_eq_true, if_false] at h1
  have h2 := h1.updOwn (fun y => { y with
    issued := o.issued + 1,
    view := (o.view.addVoid { head := src, token := b.token, net := b.net }).atVersion (o.issued + 1) })
  have hissue := issue_next h1.owned hd hver (fun r => r.addVoid { head := src, token := b.token, net := b.net })
    (fun r => headerMsg r.hdr false (some { head := src, token := b.token, net := b.net }))
  have hopen : (o.withVoid src b).view.hdr.state ≠ .ending := by
    show o.view.hdr.state ≠ _
    rw [hs]; decide
  have hend := conclude_not_ending (o := o.withVoid src b) h2.owned hopen
  refine ⟨_, h2, ?_⟩
  have hnv : ¬ (o.view.voids.length ≥ Config.maxVoids ∨ o.issued ≥ Config.maxVersion) := by omega
  simp only [Inv.takeVoid, ho, hs, hv, hc, hnv, pastMarking, found_none hl, Option.isSome_none, Bool.false_eq_true, if_false]
  rw [Inv.dropFill, hissue]
  simp only [Eff.mk', Eff.act, Eff.andThen, hend, Eff.pure]
  rfl

end

theorem ReplyRoom.queues {s : State} {n : Nat} {f : TxFrame} (h : s.line.txq.length + 1 < Config.replyPlaces) :
    ReplyRoom ((s.heardFrom n).queues f) := by
  show ((s.heardFrom n).line.txq ++ [f]).length < _
  rw [heardFrom_txq, List.length_append]
  exact h

/-- Settles O15. -/
theorem fillVoidRecorded : Obligations.FillVoidRecorded := by
  intro s e b o h hph hroom ho hd hs
  have hreply : ReplyRoom s := Nat.lt_of_succ_lt hroom
  refine ⟨fun hv => ?_, fun hv hc hl hk hvoids hver => ?_⟩
  · exact next_eq (hear_inv h rfl (takeVoid_repeat ho hs hv) hph
      (perform_reply _ _ _ _ h.1.1 (ReplyRoom.heard _ hreply)) (by simp) (heardFrom_still s e.src))
  · obtain ⟨i, hi, hb⟩ := takeVoid_new ho hd hs hv hc hl hk hvoids hver
    refine ⟨i, _, rfl, ?_, hi.rest, hi.others, hi.data, hi.owned⟩
    exact next_eq (hear_inv h rfl hb (by rw [← hi.phase] at hph; exact hph)
      (perform_then (perform1_job h.1.1 (JobRoom.heard _ (ReplyRoom.job hreply)))
        (perform_reply _ _ _ _ h.1.1 (ReplyRoom.queues hroom))) (by simp) (heardFrom_still s e.src))

/-! ### MARK-DONE (R133) -/

section
variable {i : Inv} {s : State} {src : Nat} {b : MarkDoneBody}

theorem takeMark_unowned (ho : i.owned b.inv = none) :
    i.takeMark s src b = Eff.mk' i [.send (replyFrame src (notedMsg .markDone b.ordinal .notHeld) .plain)] := by
  simp [Inv.takeMark, ho]

theorem takeMark_new {o : OwnerRec} {c : Chest} (ho : i.owned b.inv = some o) (hd : o.resendDelay = .stopped)
    (hs : o.view.hdr.state ≠ .marking) (hc : o.view.chests.find? (fun c => c.ordinal == b.ordinal) = some c)
    (hp : c.stencil = .pending) (hver : o.issued < Config.maxVersion) :
    ∃ j, i.OwnerChanged j b.inv { o with
        issued := o.issued + 1, view := (o.view.setMark b.ordinal b.how b.marker).atVersion (o.issued + 1),
        markVer := o.markVer ++ [(b.ordinal, o.issued + 1)] } ∧
      i.takeMark s src b = Eff.mk' j
        [.send (jobFrame 0 (markMsg b.inv (o.issued + 1) b.ordinal b.how b.marker) (.versioned b.inv (o.issued + 1)))] := by
  have hissue := issue_next ho hd hver (fun r => r.setMark b.ordinal b.how b.marker)
    (fun r => markMsg b.inv r.hdr.version b.ordinal b.how b.marker)
  have h1 := ((Inv.OwnerChanged.refl ho).updOwn (fun y => { y with
      issued := o.issued + 1, view := (o.view.setMark b.ordinal b.how b.marker).atVersion (o.issued + 1) })).updOwn
    (fun y => { y with markVer := y.markVer ++ [(b.ordinal, y.issued)] })
  have hclose := closeTest_not_marking h1.owned hs
  have hhow : Chest.how c = none := by simp [Chest.how, hp]
  have hnv : ¬ o.issued ≥ Config.maxVersion := by omega
  refine ⟨_, h1, ?_⟩
  simp only [Inv.takeMark, ho, hc, hhow, hnv, if_false, hissue, Eff.mk', Eff.andThen, hclose, Eff.pure]
  rfl

end

/-- Settles O16. -/
theorem markDoneEntered : Obligations.MarkDoneEntered := by
  intro s e b h hph hroom
  refine ⟨fun ho => ?_, fun o c ho hd hs hc hp hver => ?_⟩
  · exact next_eq (hear_inv h rfl (takeMark_unowned ho) hph (perform_reply _ _ _ _ h.1.1 (ReplyRoom.heard _ hroom))
      (by simp) (heardFrom_still s e.src))
  · have hm : o.view.hdr.state ≠ .marking := by rcases hs with hs | hs <;> simp [hs]
    obtain ⟨i, hi, hb⟩ := takeMark_new (s := s.heardFrom e.src) (src := e.src) ho hd hm hc hp hver
    refine ⟨i, ?_, hi.rest, hi.others, hi.data, hi.owned⟩
    exact next_eq (hear_inv h rfl hb (by rw [← hi.phase] at hph; exact hph)
      (perform_job _ _ _ _ h.1.1 (JobRoom.heard _ (ReplyRoom.job hroom))) (by simp) (heardFrom_still s e.src))

/-! ### SHEET-TAKEN (R35, R49, R168) -/

section
variable {i : Inv} {s : State} {n : Nat}

theorem owned_of_find {x : Entry} (hx : i.find n = some x) : i.owned n = x.own := by simp [Inv.owned, hx]

theorem takeSheet_retired {r : Retired} (ho : i.owned n = none) (hr : i.retired.find? (fun r => r.inv == n) = some r) :
    i.takeSheet s n = if r.queued s then Eff.pure i else Eff.mk' i [.send (jobFrame 0 (.header r.frame) .plain)] := by
  simp [Inv.takeSheet, ho, hr]

theorem takeSheet_unknown (ho : i.owned n = none) (hr : i.retired.all (fun r => r.inv != n) = true) :
    i.takeSheet s n = Eff.pure i := by
  have hnone : i.retired.find? (fun r => r.inv == n) = none := by
    rw [List.find?_eq_none]
    intro r hmem
    simpa using List.all_eq_true.1 hr r hmem
  simp [Inv.takeSheet, ho, hnone]

theorem takeSheet_retires {o : OwnerRec} (ho : i.owned n = some o) (hr : o.retiring = false)
    (hd : o.resendDelay = .stopped) (hs : o.view.hdr.state = .closed) (hver : o.issued < Config.maxVersion) :
    ∃ j, i.OwnerChanged j n { o with
        issued := o.issued + 1,
        view := { o.view with hdr := { o.view.hdr with state := .retired, version := o.issued + 1 } }, retiring := true } ∧
      i.takeSheet s n = Eff.mk' j
        [.send (jobFrame 0 (headerMsg { o.view.hdr with state := .retired, version := o.issued + 1 } false none)
          (.versioned n (o.issued + 1)))] := by
  have h1 := ((Inv.OwnerChanged.refl ho).updOwn (fun y => { y with
      issued := o.issued + 1,
      view := { o.view with hdr := { o.view.hdr with state := .retired, version := o.issued + 1 } } })).updOwn
    (fun y => { y with retiring := true })
  have hnv : ¬ o.issued ≥ Config.maxVersion := by omega
  have hissue := issueHdr_next ho hd hver (fun h => { h with state := .retired })
  refine ⟨_, h1, ?_⟩
  simp only [Inv.takeSheet, ho, hr, hs, hnv, hissue, beq_self_eq_true, Bool.not_false, Bool.and_self, if_true, if_false]
  rfl

end

theorem idle_inv {s : State} {e : Ev} (h : takeInv s e = Eff.pure s.inv) : s.takeJob .inv e = (s, []) := by
  unfold State.takeJob
  split
  · simp only [State.runInv, h]; rfl
  · rfl

/-- SHEET-TAKEN at a station without a paper unit, and what the invoice unit makes of it. -/
theorem hear_sheetTaken {s t : State} {e : Env} {n : Nat} {r : Eff Inv} (h : Hears s e (.sheetTaken n))
    (hr : s.cfg.roles.paper = false) (hb : s.inv.takeSheet (s.heardFrom e.src).usedChoice n = r)
    (hph : r.st.phase ≠ .waitFree)
    (hp : ({ (s.heardFrom e.src).usedChoice with inv := r.st } : State).perform r.acts = (t, [])) (hs : t.still) :
    exec (.sheetTaken e (some n)) s = .next t := by
  have hcfg : t.cfg = s.cfg := by
    have := perform_cfg r.acts ({ (s.heardFrom e.src).usedChoice with inv := r.st } : State)
    rwa [hp] at this
  refine next_eq (hear_inv_only h (by simp [takers]) (by simp [takers]) (fun c hc hne => ?_) hb hph hp (by simp) hs)
  have : c = .paper := by simpa [takers, hne] using hc
  subst this
  exact ⟨takeJob_no_paper _ _ hr, takeJob_no_paper _ _ (by rw [hcfg]; exact hr)⟩

theorem queued_heard (r : Retired) (s : State) (n : Nat) : r.queued (s.heardFrom n).usedChoice = r.queued s := by
  simp [Retired.queued]

theorem job_paper {s t : State} {e : Ev} {q : Jobs} {r : Eff Paper} (hw : s.working = true)
    (hr : s.cfg.roles.paper = true) (hb : takePaper s e = r)
    (hp : ({ s with paper := r.st } : State).perform r.acts = (t, q)) : s.takeJob .paper e = (t, q) := by
  rw [takeJob_paper s e hw hr, hb]; exact hp

/-- SHEET-TAKEN of another station closes the window on its invoice (R168). -/
theorem takePaper_sheetTaken {s : State} {src dst n v : Nat} (ht : s.paper.takes n = false)
    (hw : s.paper.window.shown = some (n, v)) :
    takePaper s (.frame src dst (.sheetTaken n) false) =
      Eff.pure { s.paper with window := { shown := none, cause := .takenElsewhere } } := by
  simp [takePaper, ht, Window.close, hw]

/-- Settles O17. -/
theorem sheetTakenRetires : Obligations.SheetTakenRetires := by
  refine ⟨fun s e n r h hph hr ho hret => ⟨fun hq => ?_, fun hq hroom => ?_⟩,
    fun s e n x h hph hx => ⟨fun v hr hown hret htakes hshown => ?_, fun o hr hown hrt hd hst hver hroom => ?_⟩⟩
  · exact hear_sheetTaken h hr ((takeSheet_retired ho hret).trans (if_pos (by rw [queued_heard]; exact hq))) hph
      (perform_nil _) (heardFrom_still s e.src)
  · exact hear_sheetTaken h hr ((takeSheet_retired ho hret).trans (if_neg (by rw [queued_heard, hq]; decide))) hph
      (perform_job _ _ _ _ h.1.1 (JobRoom.heard _ hroom)) (heardFrom_still s e.src)
  · have idle (u : State) (hu : u.inv = s.inv) :
        u.takeJob .inv (.frame e.src e.dst (.sheetTaken n) false) = (u, []) := by
      have hb := takeSheet_unknown (s := u) ((owned_of_find hx).trans hown) hret
      rw [← hu] at hb hph
      exact idle_inv (takeInv_frame hb hph)
    refine next_eq (hear_only s _ e _ .paper [] h (by simp [takers]) (by simp [takers]) (fun c hc hne => ?_)
      (job_paper (s := (s.heardFrom e.src).usedChoice) (canSend_working h.1.1) hr (takePaper_sheetTaken htakes hshown)
        (perform_nil _)) (by simp) h.1.2 (heardFrom_still s e.src))
    have : c = .inv := by simpa [takers, hne] using hc
    subst this
    exact ⟨idle _ rfl, idle _ rfl⟩
  · obtain ⟨i, hi, hb⟩ := takeSheet_retires (s := (s.heardFrom e.src).usedChoice) ((owned_of_find hx).trans hown) hrt hd hst hver
    refine ⟨i, _, rfl, ?_, hi.rest, hi.others, hi.owned⟩
    exact hear_sheetTaken h hr hb (by rw [← hi.phase] at hph; exact hph)
      (perform_job _ _ _ _ h.1.1 (JobRoom.heard _ hroom)) (heardFrom_still s e.src)

end Sys2Proof.Machine

/-! ## O18 to O20: claims (R28 to R34, R81) -/

namespace Sys2Proof.Machine

/-! ### Another station's CLAIM (R28, R31) -/

section
variable {i : Inv} {s : State} {src : Nat} {b : ClaimBody}

/-- A blender that is not JOINING answers a CLAIM by one reply frame. -/
theorem claimAnswer_blender (hr : s.cfg.roles.blend = true) (hj : s.isJoining = false) (m : Msg) :
    s.claimAnswer src m = [.send (replyFrame src m .plain)] := by
  simp [State.claimAnswer, hr, hj]

theorem takeClaim_range (hs : s.inSeason b.inv = false) :
    i.takeClaim s src b =
      Eff.mk' i (s.claimAnswer src (.object { inv := b.inv, claimant := src, reason := .range })) := by
  simp [Inv.takeClaim, hs]

theorem takeClaim_new (hs : s.inSeason b.inv = true) (hx : i.find b.inv = none)
    (hroom : i.table.length < Config.tableEntries) :
    i.takeClaim s src b =
      Eff.mk' { i with
          mark := max i.mark b.inv,
          table := i.table ++ [{ Entry.made (s.claimHeader b.inv src b.order b.grade b.net b.garden) .complete with
            staleT := .running Config.claimStale }] }
        (s.claimAnswer src (.consent { inv := b.inv, claimant := src })) := by
  have hx' : (i.raise b.inv).find b.inv = none := hx
  have hf : (i.raise b.inv).full = false := decide_eq_false (not_le.2 hroom)
  simp only [Inv.takeClaim, hs, hx', hf, Bool.not_true, Bool.false_eq_true, if_false]
  rfl

theorem takeClaim_full (hs : s.inSeason b.inv = true) (hx : i.find b.inv = none) (hr : s.cfg.roles.blend = true)
    (hfull : Config.tableEntries ≤ i.table.length) :
    i.takeClaim s src b =
      Eff.mk' (i.raise b.inv) (s.claimAnswer src (.object { inv := b.inv, claimant := src, reason := .full })) := by
  have hx' : (i.raise b.inv).find b.inv = none := hx
  have hf : (i.raise b.inv).full = true := decide_eq_true hfull
  simp [Inv.takeClaim, hs, hx', hf, hr]

/-- A number that the table holds for another station: the claimant's own is consented to, another's held. -/
theorem takeClaim_held {x : Entry} (hs : s.inSeason b.inv = true) (hx : i.find b.inv = some x) (ho : x.own = none) :
    i.takeClaim s src b = Eff.mk' (i.raise b.inv) (s.claimAnswer src
      (if x.data.hdr.owner ≠ src then .object { inv := b.inv, claimant := src, reason := .held }
       else .consent { inv := b.inv, claimant := src })) := by
  have hx' : (i.raise b.inv).find b.inv = some x := hx
  by_cases ho' : x.data.hdr.owner = src <;> simp [Inv.takeClaim, hs, hx', ho, ho']

end

/-- Settles O18. -/
theorem claimAnswered : Obligations.ClaimAnswered := by
  intro s e b h hr hj hph hroom
  have answer {i : Inv} {m : Msg} (hb : s.inv.takeClaim (s.heardFrom e.src) e.src b =
      Eff.mk' i ((s.heardFrom e.src).claimAnswer e.src m)) (hi : i.phase = s.inv.phase) :
      exec (.claim e (some b)) s = .next { (s.heardFrom e.src).queues (replyFrame e.src m .plain) with inv := i } := by
    rw [claimAnswer_blender (by exact hr) (by exact hj)] at hb
    exact next_eq (hear_inv h rfl hb (by rw [← hi] at hph; exact hph)
      (perform_reply _ _ _ _ h.1.1 (ReplyRoom.heard _ hroom)) (by simp) (heardFrom_still s e.src))
  refine ⟨fun hs => ?_, fun hs hx hfree => ?_, fun hs hx hfull => ?_, fun x hs hx ho hown => ?_, fun x hs hx ho hown => ?_⟩
  · exact answer (takeClaim_range hs) rfl
  · exact answer (takeClaim_new hs hx hfree) rfl
  · exact answer (takeClaim_full hs hx hr hfull) rfl
  · exact answer ((takeClaim_held hs hx ho).trans (by rw [if_neg (not_not_intro hown)]; rfl)) rfl
  · exact answer ((takeClaim_held hs hx ho).trans (by rw [if_pos hown]; rfl)) rfl

/-! ### CONSENT (R32) -/

section
variable {i : Inv} {s : State} {src : Nat} {b : ConsentBody} {second : Bool} {l : List Nat}

theorem takeConsent_other (hc : b.claimant ≠ s.self) : i.takeConsent s src b = Eff.pure i := by
  simp [Inv.takeConsent, hc]

theorem takeConsent_window (hp : i.phase = .window b.inv second l) (hc : b.claimant = s.self) :
    i.takeConsent s src b =
      if l.filter (fun m => m != src) = [] then i.goFirm b.inv
      else Eff.pure { i with phase := .window b.inv second (l.filter (fun m => m != src)) } := by
  simp only [Inv.takeConsent, Inv.claiming, hp, hc, beq_self_eq_true, Bool.and_self, if_true, Inv.leaveSet]

end

/-- Settles O19. -/
theorem consentCounted : Obligations.ConsentCounted := by
  intro s e b second l h hp
  have hph : s.inv.phase ≠ .waitFree := by rw [hp]; exact ClaimPhase.noConfusion
  refine ⟨fun hc => ?_, fun hc hl => ?_, fun o hc hl ho hd hver hroom => ?_⟩
  · exact next_eq (hear_inv h rfl (takeConsent_other hc) hph (perform_nil _) (by simp) (heardFrom_still s e.src))
  · exact next_eq (hear_inv h rfl ((takeConsent_window hp hc).trans (if_neg hl)) ClaimPhase.noConfusion (perform_nil _)
      (by simp) (heardFrom_still s e.src))
  · let j : Inv := { s.inv with phase := .firm b.inv, claimWindow := .stopped }
    have hj : j.OwnerChanged j b.inv o := .refl ho
    have hi := hj.updOwn (fun y => { y with
      issued := o.issued + 1,
      view := { o.view with hdr := { o.view.hdr with state := .opened, version := o.issued + 1 } } })
    refine ⟨_, _, rfl, ?_, hi.rest, hi.others, hi.owned⟩
    exact next_eq (hear_inv h rfl ((takeConsent_window hp hc).trans ((if_pos hl).trans
        (issueHdr_next (i := j) ho hd hver (fun h => { h with state := .opened })))) ClaimPhase.noConfusion
      (perform_job _ _ _ _ h.1.1 (JobRoom.heard _ hroom)) (by simp) (heardFrom_still s e.src))

/-! ### O20: a claim cancelled when firm (R81)

The statement gives every entry of the number the owner's records; the model changes the records of those that have any. In a
table with two entries of one number, the second a plain copy, they differ. -/

/-- The owner's records of invoice 4 whose claim was cancelled when firm, its opening HEADER issued. -/
def cancelledRecords : OwnerRec := { openRecords [] with cancelled := true }

/-- The CLAIMED entry of invoice 4, with and without owner's records. -/
def claimedEntry (o : Option OwnerRec) : Entry :=
  { Entry.made { openHeader with version := 0, state := .claimed } .complete with own := o }

def openingBody : HeaderBody := { hdr := openHeader, dump := false, resumed := false, newVoid := none, entryCount := 0 }

/-- The HEADER that opens invoice 4. -/
def openingFrame : TxFrame := jobFrame 0 (.header openingBody) (.versioned 4 1)

/-- The opening HEADER is being sent, and invoice 4 stands twice in the table. -/
def twiceClaimed : State :=
  { plainStation with
    line := { plainStation.line with sending := true, txq := [openingFrame], attempts := 1 },
    inv := { plainStation.inv with table := [claimedEntry (some cancelledRecords), claimedEntry none] } }

/-- Which entries have owner's records after a command. -/
def ownedFlags : Res → List Bool
  | .next t => t.inv.table.map (fun x => x.own.isSome)
  | _ => []

/-- Refutes O20: the copy that stands beside the owned entry gets no owner's records. -/
theorem not_claimsGivenUp : ¬ Obligations.ClaimsGivenUp := by
  intro h
  have hends := h.2.2 twiceClaimed openingFrame [] 4 1 openingBody (claimedEntry (some cancelledRecords)) cancelledRecords _
    (by decide) rfl rfl rfl rfl (by decide) rfl rfl rfl (by decide) rfl rfl (by decide) rfl rfl rfl rfl rfl rfl rfl
    (by decide) (by decide) rfl
  have hmodel : ownedFlags (exec .frameComplete twiceClaimed) = [true, false] := by decide
  rw [hends] at hmodel
  exact absurd hmodel (by decide)

end Sys2Proof.Machine

/-! ## Commands of the line unit, the front end and the drum (O25, O26, O34 to O36) -/

namespace Sys2Proof.Machine

/-! ### A command that is no frame -/

section
variable {s t : State} {f : State → State × Jobs} {q : Jobs}

/-- A command of a working station that raises no job. -/
theorem act_done (hw : s.working = true) (hf : f s = (t, [])) (ho : t.head.owedDone = []) :
    s.act f = t.tryTransmit := by
  rw [act_working s f hw, hf, settle_nil t ho]

/-- A command that only changes the state. -/
theorem act_changes {g : State → State} (hw : s.working = true) (hg : g s = t) (ho : t.head.owedDone = []) :
    s.act (fun s => (g s, [])) = t.tryTransmit :=
  act_done hw (Prod.ext hg rfl) ho

/-- A command of one block that raises no job. -/
theorem actAs_done {b : Block} (hw : s.working = true) (hr : s.blockActive b = true) (hf : f s = (t, []))
    (ho : t.head.owedDone = []) : s.actAs b f = t.tryTransmit :=
  act_done hw ((if_pos hr).trans hf) ho

/-- Jobs that leave the state as it is, at the end of a command with nothing owed. -/
theorem settle_idle (hq : ∀ j ∈ q, t.takeJob j.1 j.2 = (t, [])) (ho : t.head.owedDone = []) :
    State.settle (t, q) = t.tryTransmit := by
  show (State.payAll (drain jobBound t q).head.owedDone.length (drain jobBound t q)).tryTransmit = _
  rw [drain_idle t q hq, ho]
  rfl

end

/-! ### The line unit (O25, O26) -/

section
variable {s : State}

/-- A transmission begins where a frame waits without a backoff and the gap is reached (R7). -/
theorem tryTransmit_begins (hc : s.canSend = true) (hq : s.line.txq ≠ []) (hb : s.line.backoff = none)
    (hg : s.line.gap = true) (hs : s.line.sending = false) :
    s.tryTransmit = { s with line := { s.line with cond := .busy, gap := false, sending := true,
                                                   attempts := s.line.attempts + 1 } } := by
  simp [State.tryTransmit, hc, hq, hb, hg, hs, Line.busy]

/-- With no frame queued, or a backoff running, no transmission begins. -/
theorem tryTransmit_waits (h : s.line.txq = [] ∨ s.line.backoff ≠ none) : s.tryTransmit = s := by
  unfold State.tryTransmit
  refine if_neg fun hc => ?_
  rcases h with h | h <;> simp [h] at hc

/-- A command of the line unit that raises no job and leaves no transmission to begin. -/
theorem act_calm {t : State} {f : State → State × Jobs} (h : Ready s) (hf : f s = (t, []))
    (ho : t.head.owedDone = s.head.owedDone) (ht : t.tryTransmit = t) : (Host.Outcome.next (s.act f) : Res) = .next t :=
  next_eq ((act_done (canSend_working h.1) hf (ho.trans h.2)).trans ht)

theorem gapReached_idle (hw : s.working = true) (hs : s.line.sending = false) :
    s.gapReached = { s with line := { s.line with cond := .idle, gap := true } } := by
  simp [State.gapReached, hw, hs]

theorem gapReached_sending (hs : s.line.sending = true) : s.gapReached = s := by
  simp [State.gapReached, hs]

/-- A slot of idle line counts the backoff down (R8). -/
theorem slotPassed_counts {k : Nat} (hc : s.canSend = true) (hs : s.line.sending = false) (hg : s.line.gap = true)
    (hb : s.line.backoff = some (k + 1)) :
    s.slotPassed = { s with line := { s.line with backoff := if k = 0 then none else some k } } := by
  simp [State.slotPassed, hc, hs, hg, hb]

theorem outputs_shedLine (hc : s.canSend = true) : s.outputs.shedLine = s.driven := by
  have hw := canSend_working hc
  have hl : s.start.resetLow = false := by
    simp only [State.working, Bool.and_eq_true, Bool.not_eq_true'] at hw
    exact hw.1
  simp [State.outputs, hl, hw]

end

/-- Settles O25: each command changes the line by one equation, after which a transmission begins or none does. -/
theorem lineIdleAndBackoff : Obligations.LineIdleAndBackoff := by
  refine ⟨fun s h => ⟨fun hs hq => ?_, fun hs hq hb => ?_, fun hs => ?_, ?_⟩,
    fun s k h hs hg hb => ⟨fun hk => ?_, fun hk hq => ?_⟩, fun s hc => ⟨fun hs => ?_, fun f q hs hq => ?_⟩⟩
  · exact act_calm h (Prod.ext (gapReached_idle (canSend_working h.1) hs) rfl) rfl (tryTransmit_waits hq)
  · have hidle := gapReached_idle (canSend_working h.1) hs
    refine next_eq ((act_changes (canSend_working h.1) hidle h.2).trans ?_)
    exact tryTransmit_begins (s := { s with line := { s.line with cond := .idle, gap := true } }) h.1 hq hb rfl hs
  · exact act_calm h (Prod.ext (gapReached_sending hs) rfl) rfl (tryTransmit_quiet s (by simp [hs]))
  · exact act_calm h (t := { s with line := s.line.busy }) rfl rfl (tryTransmit_quiet _ rfl)
  · refine act_calm h (Prod.ext ((slotPassed_counts h.1 hs hg hb).trans ?_) rfl) rfl (tryTransmit_waits (.inr ?_))
    · rw [if_neg (Nat.pos_iff_ne_zero.1 hk)]
    · exact Option.some_ne_none k
  · have hend : s.slotPassed = { s with line := { s.line with backoff := none } } := by
      rw [slotPassed_counts h.1 hs hg hb, if_pos hk]
    refine next_eq ((act_changes (canSend_working h.1) hend h.2).trans ?_)
    exact tryTransmit_begins (s := { s with line := { s.line with backoff := none } }) h.1 hq rfl hg hs
  · rw [outputs_shedLine hc, driven_silent hs]
  · rw [outputs_shedLine hc, driven_front hc hs hq]; rfl

section
variable {s : State} {f : TxFrame} {q : List TxFrame}

/-- A frame asked back goes with the collision (R12). -/
theorem collide_cancelled (hc : s.canSend = true) (hs : s.line.sending = true) (hq : s.line.txq = f :: q)
    (hf : f.cancel = true) :
    s.collide = ({ s with line := { s.line with
      cond := .busy, gap := false, sending := false, txq := q, attempts := 0, backoff := none } }, []) := by
  simp [State.collide, hc, hs, hq, hf, Line.busy]

/-- At the end of the retry budget a frame that no block waits for is dropped and reported (R9). -/
theorem collide_congested (hc : s.canSend = true) (hs : s.line.sending = true) (hq : s.line.txq = f :: q)
    (hf : f.cancel = false) (ha : s.budget ≤ s.line.attempts) (ht : f.tag = .plain ∨ f.tag = .presence) :
    s.collide = ({ s.report (Report.of .lineCongested none none none (.code .budget)) with
      line := { s.line with cond := .busy, gap := false, sending := false, txq := q, attempts := 0,
                            backoff := none } }, []) := by
  rcases ht with ht | ht <;>
    simp [State.collide, hc, hs, hq, hf, ha, Line.busy, State.tellFailed, ht, Tag.block, State.report]

/-- Within the budget the frame backs off by a number drawn from the range (R8). -/
theorem collide_backsOff (hc : s.canSend = true) (hs : s.line.sending = true) (hq : s.line.txq = f :: q)
    (hf : f.cancel = false) (ha : s.line.attempts < s.budget) :
    s.collide =
      let d := Config.backoffDraw s.draws % backoffRange s.line.attempts
      ({ s with
        draws := s.draws + 1,
        line := { s.line with cond := .busy, gap := false, sending := false,
                              backoff := if d = 0 then none else some d } }, []) := by
  simp [State.collide, hc, hs, hq, hf, Nat.not_le.2 ha, Line.busy]

end

/-- Settles O26, by the three outcomes of a collision. -/
theorem collisionBacksOff : Obligations.CollisionBacksOff := by
  intro s f q h hs hq
  refine ⟨fun hf => ?_, fun hf ha ht => ?_,
    fun hf ha => ⟨Config.backoffDraw s.draws % backoffRange s.line.attempts, Nat.mod_lt _ (Nat.two_pow_pos _), ?_⟩⟩
  · exact act_calm h (collide_cancelled h.1 hs hq hf) rfl (tryTransmit_quiet _ rfl)
  · exact act_calm h (collide_congested h.1 hs hq hf ha ht) rfl (tryTransmit_quiet _ rfl)
  · exact act_calm h (collide_backsOff h.1 hs hq hf ha) rfl (tryTransmit_quiet _ rfl)

/-! ### The front end (O34, O35) -/

section
variable {f : FrontEnd} {cfg : Cfg} {c a b d : Int} {atHead : Bool}

@[simp] theorem stability_tracking (f : FrontEnd) (band : Nat) (v : Int) :
    (f.stability band v).tracking = f.tracking := by unfold FrontEnd.stability; dsimp only; split <;> rfl

@[simp] theorem stability_overload (f : FrontEnd) (band : Nat) (v : Int) :
    (f.stability band v).overload = f.overload := by unfold FrontEnd.stability; dsimp only; split <;> rfl

@[simp] theorem stability_lost (f : FrontEnd) (band : Nat) (v : Int) :
    (f.stability band v).lost = f.lost := by unfold FrontEnd.stability; dsimp only; split <;> rfl

/-- Beyond the limits: OVERLOAD, the window emptied where it was not set (R55). -/
theorem accept_beyond (hc : c > (cfg.overload : Int) ∨ c < -(cfg.overload : Int)) :
    f.accept cfg atHead c =
      (if f.overload then { f with lost := false, loss := .running 100 }
        else { f.emptied with overload := true, lost := false, loss := .running 100 }, false) := by
  unfold FrontEnd.accept
  rw [if_pos hc]
  rfl

/-- Within the limits: OVERLOAD clears and the count joins the window. -/
theorem accept_within (hhi : c ≤ (cfg.overload : Int)) (hlo : -(cfg.overload : Int) ≤ c) :
    f.accept cfg atHead c =
      ({ f with overload := false, lost := false, loss := .running 100 } : FrontEnd).join cfg.span cfg.band atHead c := by
  unfold FrontEnd.accept
  exact if_neg (by omega)

/-- A window that is not yet full. -/
theorem join_short {span band : Nat} (hw : f.window.length < 3) :
    f.join span band atHead c = ({ f with window := f.window ++ [c] }, false) := by
  have hlen : (f.window ++ [c]).length - 4 = 0 := by simp; omega
  unfold FrontEnd.join
  simp only [hlen, List.drop_zero]
  exact if_pos (by simp; omega)

/-- The latest four counts: three of the window, or all but the oldest of four. -/
theorem join_full {span band : Nat} (hw : f.window = [a, b, d] ∨ ∃ z : Int, f.window = [z, a, b, d]) :
    f.join span band atHead c =
      let v := calibrate f.zero span ((a + b + d + c).tdiv 4)
      let g := FrontEnd.stability { f with
        window := [a, b, d, c], avg := some ((a + b + d + c).tdiv 4), weight := some v } band v
      if g.tracks atHead v then (g.zeroed ((a + b + d + c).tdiv 4) v, true) else (g, false) := by
  have hlast : (f.window ++ [c]).drop ((f.window ++ [c]).length - 4) = [a, b, d, c] := by
    rcases hw with hw | ⟨z, hw⟩ <;> rw [hw] <;> rfl
  have havg : average [a, b, d, c] = (a + b + d + c).tdiv 4 := by simp [average]
  unfold FrontEnd.join
  simp only [hlast, havg]
  rfl

/-- A front end that is neither overloaded nor lost tracks its zero at a head, where that is permitted, on a stable weight near
zero (R59). -/
theorem tracks_iff (ho : f.overload = false) (hl : f.lost = false) {v : Int} :
    f.tracks atHead v = true ↔ atHead = true ∧ f.tracking = true ∧ f.stable = true ∧ -50 ≤ v ∧ v ≤ 50 := by
  simp [FrontEnd.tracks, ho, hl, and_assoc]

end

/-- Settles O34: a count beyond the limits, one that does not fill the window, and one that does. -/
theorem sampleJoinsWindow : Obligations.SampleJoinsWindow := by
  refine ⟨fun f g cfg c a b d hhi hlo hw hg => ?_, fun f cfg c => ⟨fun hc ho => ?_, fun hc ho => ?_, fun hhi hlo hw => ?_⟩,
    fun f cfg c => ⟨fun hc ho => ?_, fun hc ho => ?_, fun hhi hlo hw => ?_, fun a b d hhi hlo hw => ?_⟩⟩
  · have hjoin := (accept_within (f := f) (atHead := true) hhi hlo).trans (join_full hw)
    rw [hjoin]
    dsimp only
    rw [← hg]
    have htracks := tracks_iff (f := g) (atHead := true) (v := calibrate f.zero cfg.span ((a + b + d + c).tdiv 4))
      (by rw [hg]; simp) (by rw [hg]; simp)
    have htracking : g.tracking = f.tracking := by rw [hg]; simp
    refine ⟨fun ⟨ht, hs, h1, h2⟩ => ?_, fun hn => ?_⟩
    · rw [if_pos (htracks.2 ⟨rfl, htracking.trans ht, hs, h1, h2⟩)]
      rfl
    · rw [if_neg fun h => ?_]
      obtain ⟨-, ht, hs, h1, h2⟩ := htracks.1 h
      rw [htracking] at ht
      rcases hn with hn | hn | hn | hn
      · simp [hn] at ht
      · simp [hn] at hs
      · omega
      · omega
  · rw [accept_beyond hc, ho]; rfl
  · rw [accept_beyond hc, ho]; rfl
  · exact (accept_within hhi hlo).trans (join_short hw)
  · rw [accept_beyond hc, ho]; rfl
  · rw [accept_beyond hc, ho]; rfl
  · exact congrArg Prod.fst ((accept_within hhi hlo).trans (join_short hw))
  · have hjoin := (accept_within (f := f) (atHead := false) hhi hlo).trans (join_full hw)
    rw [hjoin]
    dsimp only
    rw [if_neg (by simp [FrontEnd.tracks])]

/-- An IDLE blender keeps a reading and does nothing more. -/
theorem takeReading_idle {b : Blend} (h : b.state = .idle) (cfg : Cfg) (r : Reading) :
    b.takeReading cfg r = Eff.pure { b with last := some r } := by
  simp [Blend.takeReading, h]

/-- The reading that the loss timer leaves (R56, R57). -/
theorem readingOf_silent (f : FrontEnd) :
    readingOf f f.silent false =
      { weight := none, stable := false, becameStable := false, becameUnstable := f.stable, overload := f.overload,
        overloadMark := false, lost := true, lostMark := !f.lost, zeroTaken := false } := by
  simp [readingOf, FrontEnd.silent, FrontEnd.emptied]

/-- Settles O35: a reading goes to the blender, which keeps it. -/
theorem readingsHandedOn : Obligations.ReadingsHandedOn := by
  intro s word bits ms h hb hh hi
  have hw := canSend_working h.1
  have hweighs : s.weighs = true := by simp [State.weighs, hw, hb]
  have huser : s.scaleUser = .blend := by simp [State.scaleUser, hh]
  have handed : ∀ (g : State → State × Jobs) (f : FrontEnd) (z : Bool) (n : Nat), g s = s.handReading f z n →
      (Host.Outcome.next (s.act g) : Res) = .next (State.tryTransmit { s with
        fe := f, blend := { s.blend with last := some (readingOf s.fe f z) } }) := by
    intro g f z n hg
    refine next_eq ?_
    rw [act_working s g hw, hg, State.handReading, huser]
    refine settle_one { s with fe := f } _ _ _ ?_ h.2
    exact (takeJob_blend { s with fe := f } _ hw hb).trans
      (by rw [show takeBlend { s with fe := f } (.reading (readingOf s.fe f z) n) = _ from takeReading_idle hi _ _]; rfl)
  refine ⟨fun hc => ?_, fun c hc => ?_, fun hl => ?_⟩
  · exact next_eq (act_done hw (by simp [State.sample, hweighs, hc]) h.2)
  · exact handed _ _ _ ms (by simp [State.sample, hweighs, hc, hh])
  · rw [← readingOf_silent s.fe]
    exact handed State.lossExpired s.fe.silent false 0 (by simp [State.lossExpired, hweighs, hl])

end Sys2Proof.Machine

/-! ## The drum and its orders (O36, O44, O48) -/

namespace Sys2Proof.Machine

/-! ### A command of the blend sequencer -/

section
variable {s t u : State} {q : Jobs} {r : Eff Blend} {g : State → Eff Blend}

theorem job_blend {e : Ev} (hw : s.working = true) (hr : s.cfg.roles.blend = true) (hb : takeBlend s e = r)
    (hp : ({ s with blend := r.st } : State).perform r.acts = (t, q)) : s.takeJob .blend e = (t, q) := by
  rw [takeJob_blend s e hw hr, hb]; exact hp

/-- A timer or an input of the blend sequencer: its actions, then their jobs. -/
theorem blend_settles (h : Ready s) (hr : s.cfg.roles.blend = true) (hg : g s = r)
    (hp : ({ s with blend := r.st } : State).perform r.acts = (t, q)) (hu : State.settle (t, q) = u) :
    (Host.Outcome.next (s.actAs .blend (fun s => s.runBlend (g s))) : Res) = .next u := by
  refine next_eq ?_
  rw [State.actAs, act_working s _ (canSend_working h.1)]
  show State.settle (if s.cfg.roles.blend = true then _ else _) = u
  rw [if_pos hr, hg, ← hu, ← hp]
  rfl

/-- The same where its actions raise no job. -/
theorem blend_done (h : Ready s) (hr : s.cfg.roles.blend = true) (hg : g s = r)
    (hp : ({ s with blend := r.st } : State).perform r.acts = (t, [])) :
    (Host.Outcome.next (s.actAs .blend (fun s => s.runBlend (g s))) : Res) = .next t.tryTransmit := by
  refine blend_settles h hr hg hp (settle_nil t ?_)
  have := perform_head r.acts ({ s with blend := r.st } : State)
  rw [hp] at this
  exact (congrArg Head.owedDone this).trans h.2

end

/-! ### The current component -/

section
variable {b : Blend} {o : Order} {k : Nat} {c : Comp}

theorem current_eq (hb : b.order = some o) (hk : o.cur = some k) (hc : o.comps[k]? = some c) :
    b.current = some (o, k, c) := by
  simp [Blend.current, hb, hk, hc]

theorem updCur_eq (hb : b.order = some o) (hk : o.cur = some k) (f : Comp → Comp) :
    b.updCur f = { b with order := some { o with comps := o.comps.modify k f } } := by
  simp [Blend.updCur, Blend.upd, hb, hk, Order.updComp]

end

/-! ### The timers and the turns (O36) -/

section
variable {b : Blend} {o : Order}

/-- Starvation with no stable weight shown: the component waits to be weighed (R71). -/
theorem starved_unstable {k : Nat} {c : Comp} (hs : b.state = .charging) (ht : b.starve.on = true)
    (ho : b.order = some o) (hk : o.cur = some k) (hc : o.comps[k]? = some c) (hw : b.stableNow = none) :
    b.starved = Eff.mk' { b with
        state := .held, held := some .shortfall, gate := none, starve := .stopped,
        order := some { o with draw := .settling, comps := o.comps.modify k (fun c => { c with state := .shortfall }) } }
      [.report (Report.of .shortfall none (some (k + 1)) none (.number c.bin))] := by
  simp [Blend.starved, hs, ht, current_eq ho hk hc, hw, updCur_eq ho hk, Blend.upd]

theorem stalled_mixing (hs : b.state = .mixing) (ht : b.stall.on = true) (ho : b.order = some o) :
    b.stalled = Eff.mk' { b with state := .held, held := some .mixStall, stall := .stopped }
      [.report (Report.of .mixStall none none none (.number o.turns))] := by
  simp [Blend.stalled, hs, ht, ho]

theorem turn_more (hs : b.state = .mixing) (hp : b.stop = none) (ho : b.order = some o) (ht : o.turns + 1 < o.mix)
    (j : Bool) :
    b.turn j = Eff.pure { b with order := some { o with turns := o.turns + 1 }, stall := .running 10000 } := by
  simp [Blend.turn, hs, hp, ho, Nat.not_le.2 ht, Config.stallTime]

/-- The last turn before the claim is firm (R74). -/
theorem turn_waits (hs : b.state = .mixing) (hp : b.stop = none) (ho : b.order = some o) (ht : o.mix ≤ o.turns + 1)
    (hc : o.claim ≠ .firm) (j : Bool) :
    b.turn j = Eff.pure { b with state := .waitClaim, order := some { o with turns := o.turns + 1 }, stall := .stopped } := by
  simp [Blend.turn, hs, hp, ho, ht, hc]

/-- The last turn on a firm claim in the join period: discharge begins, and the arbiter is not told (R77, R87). -/
theorem turn_discharges_joining (hs : b.state = .mixing) (hp : b.stop = none) (ho : b.order = some o)
    (ht : o.mix ≤ o.turns + 1) (hc : o.claim = .firm) :
    b.turn true = Eff.pure { b with
      state := .discharging, order := some { o with turns := o.turns + 1 }, stall := .stopped } := by
  cases hb : o.batch <;> simp [Blend.turn, hs, hp, ho, ht, hc, Blend.discharge, hb, Eff.mk', Eff.pure]

/-- After the join period the arbiter is told. -/
theorem turn_discharges {n : Nat} (hs : b.state = .mixing) (hp : b.stop = none) (ho : b.order = some o)
    (ht : o.mix ≤ o.turns + 1) (hc : o.claim = .firm) (hb : o.batch = some n) :
    b.turn false = Eff.mk' { b with
        state := .discharging, order := some { o with turns := o.turns + 1 }, stall := .stopped }
      [.post .arb (.dischargeBegun n)] := by
  simp [Blend.turn, hs, hp, ho, ht, hc, Blend.discharge, hb]

end

/-- With nothing queued the begun notice opens the flag for the batch (R92). -/
theorem arb_begun {s : State} (n : Nat) (hw : s.working = true) (hr : s.cfg.roles.blend = true) (hq : s.arb.queue = []) :
    s.takeJob .arb (.dischargeBegun n) = ({ s with arb := { s.arb with openFlag := true, batch := some n } }, []) :=
  job_arb hw hr (fill_empty (a := { s.arb with openFlag := true, batch := some n }) hq s.cfg) (perform_nil _)

/-- Settles O36. -/
theorem drumTimersAndTurns : Obligations.DrumTimersAndTurns := by
  intro s o h hr ho
  refine ⟨fun k c hs ht hk hc hw => ?_, fun hs ht => ?_, fun hs hp ht => ?_, fun hs hp ht hc => ?_,
    fun hj hs hp ht hc => ?_, fun n hj hs hp ht hc hb hq => ?_⟩
  · exact blend_done h hr (starved_unstable hs ht ho hk hc hw) rfl
  · exact blend_done h hr (stalled_mixing hs ht ho) rfl
  · exact blend_done h hr (turn_more hs hp ho ht _) rfl
  · exact blend_done h hr (turn_waits hs hp ho ht hc _) rfl
  · exact blend_done h hr (g := fun s => s.blend.turn s.isJoining)
      ((congrArg s.blend.turn hj).trans (turn_discharges_joining hs hp ho ht hc)) rfl
  · exact blend_settles h hr (g := fun s => s.blend.turn s.isJoining)
      ((congrArg s.blend.turn hj).trans (turn_discharges hs hp ho ht hc hb)) rfl
      (settle_one _ _ _ _ (arb_begun n (by exact canSend_working h.1) (by exact hr) (by exact hq)) h.2)

/-! ### A sample at a blender (O44) -/

section
variable {s t u : State} {q r : Jobs}

/-- A job, then those behind it and those it raises. -/
theorem drain_job {n : Nat} {b : Block} {e : Ev} (hj : s.takeJob b e = (t, q)) (hd : drain n t (r ++ q) = u) :
    drain (n + 1) s ((b, e) :: r) = u := (drain_cons r n hj).trans hd

/-- The jobs of a command with nothing owed. -/
theorem settle_drain (hd : drain jobBound s q = t) (ho : t.head.owedDone = []) : State.settle (s, q) = t.tryTransmit := by
  show (State.payAll (drain jobBound s q).head.owedDone.length (drain jobBound s q)).tryTransmit = _
  rw [hd, ho]
  rfl

/-- A sample at a blender: the front end takes the count, the blend sequencer the reading. -/
theorem sample_blend {word : BitVec 32} {bits ms : Nat} {c : Int} {f : FrontEnd} {z : Bool} {x : Eff Blend}
    (h : Ready s) (hr : s.cfg.roles.blend = true) (hh : s.cfg.roles.head = false) (hc : sampleCount word bits = some c)
    (hf : s.fe.accept s.cfg false c = (f, z)) (hb : s.blend.takeReading s.cfg (readingOf s.fe f z) = x)
    (hp : ({ s with fe := f, blend := x.st } : State).perform x.acts = (t, q)) (hd : drain 4095 t q = u)
    (ho : u.head.owedDone = []) : exec (.sample word bits ms) s = .next u.tryTransmit := by
  have hw := canSend_working h.1
  have hweighs : s.weighs = true := by simp [State.weighs, hw, hr]
  have huser : s.scaleUser = .blend := by simp [State.scaleUser, hh]
  have hsample : s.sample word bits ms = ({ s with fe := f }, [(.blend, .reading (readingOf s.fe f z) ms)]) := by
    simp [State.sample, hweighs, hc, hh, hf, State.handReading, huser]
  refine next_eq ?_
  rw [act_working s _ hw, hsample]
  exact settle_drain (drain_job (n := 4095) (job_blend (s := { s with fe := f }) hw hr hb hp) hd) ho

/-- The same where the blend sequencer raises no job. -/
theorem sample_blend_done {word : BitVec 32} {bits ms : Nat} {c : Int} {f : FrontEnd} {z : Bool} {b : Blend}
    (h : Ready s) (hr : s.cfg.roles.blend = true) (hh : s.cfg.roles.head = false) (hc : sampleCount word bits = some c)
    (hf : s.fe.accept s.cfg false c = (f, z)) (hb : s.blend.takeReading s.cfg (readingOf s.fe f z) = Eff.pure b) :
    exec (.sample word bits ms) s = .next (State.tryTransmit { s with fe := f, blend := b }) :=
  sample_blend h hr hh hc hf hb rfl rfl h.2

end

/-! ### A reading in DISCHARGING (R78) -/

section
variable {b : Blend} {r : Reading} {w : Int}

theorem takeReading_discharging (hs : b.state = .discharging) (hp : b.stop = none) (hr : r.stable = true)
    (hw : r.weight = some w) (cfg : Cfg) :
    b.takeReading cfg r =
      if w < (cfg.drumEmpty : Int) then ({ b with last := some r } : Blend).exhausted w
      else Eff.pure { b with last := some r } := by
  simp [Blend.takeReading, Blend.restReading, hs, hp, hr, hw]

theorem exhausted_batch {n : Nat} (hb : b.batchInv = some n) :
    b.exhausted w = Eff.mk' b.toIdle [.post .inv (.endInvoice n .exhausted (some w.toNat)),
      .post .arb (.batchEnded .exhausted), batchReport (some n) .exhausted] := by
  simp [Blend.exhausted, hb]

end

/-- With an empty chute the end of the batch shuts the flag (R96). -/
theorem ended_empty {a : Arb} (hf : a.openFlag = true) (hc : a.current = none) (hn : a.next = none) (hq : a.queue = [])
    (c : LeaseEndReason) : a.ended c = Eff.pure { a with openFlag := false, batch := none, gate := false } := by
  simp [Arb.ended, hf, hc, hn, hq, Eff.mk', Eff.pure]

theorem arb_ended {s : State} (c : LeaseEndReason) (hw : s.working = true) (hr : s.cfg.roles.blend = true)
    (hf : s.arb.openFlag = true) (hc : s.arb.current = none) (hn : s.arb.next = none) (hq : s.arb.queue = []) :
    s.takeJob .arb (.batchEnded c) =
      ({ s with arb := { s.arb with openFlag := false, batch := none, gate := false } }, []) :=
  job_arb hw hr (ended_empty hf hc hn hq c) (perform_nil _)

section
variable {i : Inv} {n : Nat} {o : OwnerRec}

/-- The tests wait for an OUTSTANDING fill (R134). -/
theorem tests_outstanding (ho : i.owned n = some o) (hs : o.short = none) (hf : o.fills.any (fun f => !f.lost) = true) :
    i.tests n = Eff.pure i := by
  have hout : o.noOutstanding = false := by
    rw [OwnerRec.noOutstanding, ← Bool.not_eq_true, List.all_eq_true]
    obtain ⟨f, hmem, hl⟩ := List.any_eq_true.1 hf
    intro hall
    simp [hall f hmem] at hl
  simp [Inv.tests, Inv.conclude, Inv.shortTest, ho, hs, Eff.andThen, Eff.pure, Inv.lostHeader, Inv.endTest, hout]

/-- The end of the batch at its owner while a fill is OUTSTANDING: the invoice is ENDING and stays so (R48). -/
theorem endInvoice_waits (ho : i.owned n = some o) (hs : o.view.hdr.state = .opened) (hd : o.resendDelay = .stopped)
    (hv : o.issued < Config.maxVersion) (hk : o.short = none) (hf : o.fills.any (fun f => !f.lost) = true)
    (cause : EndCause) (residue : Option Nat) {h : Header}
    (hh : h = { o.view.hdr with state := .ending, endCause := some cause, residue := residue, version := o.issued + 1 }) :
    ∃ j, i.OwnerChanged j n { o with issued := o.issued + 1, view := { o.view with hdr := h } } ∧
      i.endInvoice n cause residue =
        Eff.mk' j [.send (jobFrame 0 (headerMsg h false none) (.versioned n (o.issued + 1)))] := by
  subst hh
  have hissue := issueHdr_next ho hd hv (fun h => { h with state := .ending, endCause := some cause, residue := residue })
  have h1 := (Inv.OwnerChanged.refl ho).updOwn (fun y => { y with
    issued := o.issued + 1,
    view := { o.view with hdr := { o.view.hdr with
      state := .ending, endCause := some cause, residue := residue, version := o.issued + 1 } } })
  have htests := tests_outstanding h1.owned hk hf
  refine ⟨_, h1, ?_⟩
  simp only [Inv.endInvoice, ho, hs, beq_self_eq_true, if_true, hissue, Eff.andThen, Eff.mk', htests, Eff.pure]
  rfl

end

theorem takeInv_endInvoice {s : State} {n : Nat} {c : EndCause} {k : Option Nat} {r : Eff Inv}
    (hb : s.inv.endInvoice n c k = r) (hph : r.st.phase ≠ .waitFree) : takeInv s (.endInvoice n c k) = r := by
  subst hb; exact andThen_claimIfFree hph s

/-! ### A reading in CHARGING (R67 to R69, R73) -/

section
variable {b : Blend} {o : Order} {k : Nat} {x : Comp} {cfg : Cfg} {r : Reading} {w st : Int}

theorem pour_eq (hb : b.order = some o) (hk : o.cur = some k) (bin : Nat) (start rise : Int) :
    b.pour bin start rise = { b with
      gate := some bin, starve := .running Config.starveTime,
      order := some { o with
        draw := .pouring, comps := o.comps.modify k (fun c => { c with start := some start, peak := rise }) } } := by
  simp [Blend.pour, updCur_eq hb hk, Blend.upd]

theorem takeReading_charging (hs : b.state = .charging) :
    b.takeReading cfg r = ({ b with last := some r } : Blend).chargeReading cfg r := by
  simp [Blend.takeReading, hs]

theorem chargeReading_start (hb : b.order = some o) (hk : o.cur = some k) (hx : o.comps[k]? = some x)
    (hd : o.draw = .waitStart) (hw : r.weight = some w) (hr : r.stable = true) :
    b.chargeReading cfg r = Eff.pure { b with
      gate := some x.bin, starve := .running Config.starveTime,
      order := some { o with
        draw := .pouring, comps := o.comps.modify k (fun c => { c with start := some w, peak := 0 }) } } := by
  simp [Blend.chargeReading, current_eq hb hk hx, hd, hw, hr, pour_eq hb hk]

theorem chargeReading_pouring (hb : b.order = some o) (hk : o.cur = some k) (hx : o.comps[k]? = some x)
    (hd : o.draw = .pouring) (hw : r.weight = some w) :
    b.chargeReading cfg r = b.pourReading cfg w r.stable := by
  simp [Blend.chargeReading, current_eq hb hk hx, hd, hw]

theorem chargeReading_settling (hb : b.order = some o) (hk : o.cur = some k) (hx : o.comps[k]? = some x)
    (hd : o.draw = .settling) (hw : r.weight = some w) (hr : r.becameStable = true) :
    b.chargeReading cfg r = b.settleDone w := by
  simp [Blend.chargeReading, current_eq hb hk hx, hd, hw, hr]

/-- The blender after the highest rise is taken (R68, R71). -/
def Blend.withRise (b : Blend) (o : Order) (k : Nat) (rise : Int) : Blend :=
  { b with order := some { o with comps := o.comps.modify k (fun y => { y with peak := rise }) },
           starve := .running Config.starveTime }

/-- A reading short of the close point pours on; a higher rise restarts the starve timer. -/
theorem chargeReading_on (hb : b.order = some o) (hk : o.cur = some k) (hx : o.comps[k]? = some x)
    (hd : o.draw = .pouring) (hst : x.start = some st) (hclose : w - st < closePoint x.target cfg.flight)
    (hw : r.weight = some w) :
    b.chargeReading cfg r = Eff.pure (if x.peak < w - st then b.withRise o k (w - st) else b) := by
  have hrise : w - x.start.getD w = w - st := by rw [hst]; rfl
  have hopen : ¬ w - st ≥ closePoint x.target cfg.flight := by omega
  rw [chargeReading_pouring hb hk hx hd hw]
  simp only [Blend.pourReading, current_eq hb hk hx, hrise, hopen, if_false, updCur_eq hb hk]
  rfl

/-- An unstable reading at the close point closes the gate. -/
theorem chargeReading_closes (hb : b.order = some o) (hk : o.cur = some k) (hx : o.comps[k]? = some x)
    (hd : o.draw = .pouring) (hst : x.start = some st) (hclose : closePoint x.target cfg.flight ≤ w - st)
    (hw : r.weight = some w) (hr : r.stable = false) :
    b.chargeReading cfg r =
      Eff.pure { (if x.peak < w - st then b.withRise o k (w - st) else b).upd (fun o => { o with draw := .settling }) with
        gate := none, starve := .stopped } := by
  have hrise : w - x.start.getD w = w - st := by rw [hst]; rfl
  have hshut : w - st ≥ closePoint x.target cfg.flight := hclose
  rw [chargeReading_pouring hb hk hx hd hw]
  simp only [Blend.pourReading, current_eq hb hk hx, hrise, hshut, hr, if_true, updCur_eq hb hk]
  rfl

/-- The request that the end of charging makes (R73). -/
def Order.claimReq (o : Order) : ClaimReq :=
  { order := o.number, grade := o.grade, garden := o.garden,
    charged := min (o.comps.foldl (fun t y => t + y.drawn) 0) 500000 }

theorem endCharging_eq (hb : b.order = some o) :
    b.endCharging = Eff.mk' { b with
        state := .mixing, held := none, gate := none, starve := .stopped, stall := .running 10000,
        order := some { o with charged := some o.claimReq.charged, cur := none, turns := 0, claim := .asked } }
      [.post .inv (.claimAsk o.claimReq)] := by
  simp [Blend.endCharging, hb, Order.claimReq, Config.maxBatch, Config.stallTime]

/-- The last component has settled: charging ends (R69, R73). -/
theorem settleDone_last (hb : b.order = some o) (hk : o.cur = some k) (hx : o.comps[k]? = some x) (hbin : x.bin ≠ 12)
    (hlast : k + 1 = o.comps.length) :
    b.settleDone w = ({ b with order := some { o with comps := o.comps.modify k (fun y =>
      { y with drawn := drawnWeight x.start w, state := .done, settle := true }) } } : Blend).endCharging := by
  simp [Blend.settleDone, current_eq hb hk hx, hbin, updCur_eq hb hk, Blend.following, hlast]

end

/-- A number is asked for while the station is not ACTIVE: the request waits (R29). -/
theorem inv_claimAsk_waits {s : State} {q : ClaimReq} (hw : s.working = true) (ha : s.isActive = false) :
    s.takeJob .inv (.claimAsk q) = ({ s with inv := { s.inv with phase := .waitActive, req := some q } }, []) := by
  have hb : takeInv s (.claimAsk q) = Eff.pure { s.inv with phase := .waitActive, req := some q } := by
    have htry : s.inv.takeClaimAsk s q = Eff.pure { s.inv with phase := .waitActive, req := some q } := by
      simp [Inv.takeClaimAsk, Inv.tryClaim, ha]
    show (s.inv.takeClaimAsk s q).andThen (fun i => i.claimIfFree s) = _
    rw [htry]
    exact andThen_claimIfFree (by simp [Eff.pure]) s
  exact job_inv hw hb (perform_nil _)

/-- Settles O44. -/
theorem blendPours : Obligations.BlendPours := by
  refine ⟨fun s word bits ms n c w f z b o h hr hh hc hf hw hst hs hp hb hn => ?_, ?_⟩
  · have hread := takeReading_discharging (r := readingOf s.fe f z) hs hp hst hw s.cfg
    refine ⟨fun hge => ?_, fun hlt hroom hflag hcur hnext hqueue hph ho hopen hd hv hk hfills => ?_⟩
    · rw [if_neg (by omega)] at hread
      exact sample_blend_done h hr hh hc hf hread
    · have hbatch : ({ s.blend with last := some (readingOf s.fe f z) } : Blend).batchInv = some n := by
        simp [Blend.batchInv, hb, hn]
      rw [if_pos hlt, exhausted_batch hbatch] at hread
      obtain ⟨i, hi, hend⟩ := endInvoice_waits ho hopen hd hv hk hfills .exhausted (some w.toNat) rfl
      refine ⟨i, _, rfl, ?_, hi.rest, hi.others, hi.owned⟩
      have hphi : i.phase ≠ .waitFree := by rw [hi.phase]; exact hph
      exact sample_blend h hr hh hc hf hread rfl
        (drain_job (n := 4094) (job_inv (by exact canSend_working h.1) (takeInv_endInvoice hend hphi)
            (perform_job _ _ _ _ (by exact h.1) (by exact hroom)))
          (drain_job (n := 4093) (arb_ended _ (by exact canSend_working h.1) (by exact hr) hflag hcur hnext hqueue)
            (drain_nil _ _))) h.2
  · intro s word bits ms k c w f z o x h hr hh hc hf hw hs hb hk hx
    have hread (y : Eff Blend) (hy : ({ s.blend with last := some (readingOf s.fe f z) } : Blend).chargeReading s.cfg
        (readingOf s.fe f z) = y) : s.blend.takeReading s.cfg (readingOf s.fe f z) = y :=
      (takeReading_charging hs).trans hy
    have pours (st : Int) (hd : o.draw = .pouring) (hx' : x.start = some st)
        (hcl : w - st < closePoint x.target s.cfg.flight) :=
      hread _ (chargeReading_on (by exact hb) hk hx hd hx' hcl (by exact hw))
    have closes (st : Int) (hd : o.draw = .pouring) (hx' : x.start = some st)
        (hcl : closePoint x.target s.cfg.flight ≤ w - st) (hst : f.stable = false) :=
      hread _ (chargeReading_closes (by exact hb) hk hx hd hx' hcl (by exact hw) (by exact hst))
    refine ⟨fun hd hst => ?_, fun st hd hx' hpk hcl => ?_, fun st hd hx' hpk hcl hst => ?_, fun st hd hx' hpk hcl => ?_,
      fun st hd hx' hpk hcl hst => ?_, fun st hd hx' hst hfe hbin hlast ha hph => ?_⟩
    · exact sample_blend_done h hr hh hc hf
        (hread _ (chargeReading_start (by exact hb) hk hx hd (by exact hw) (by exact hst)))
    · have hy := pours st hd hx' hcl
      rw [if_neg (by omega)] at hy
      exact sample_blend_done h hr hh hc hf hy
    · have hy := closes st hd hx' hcl hst
      rw [if_neg (by omega)] at hy
      simp only [Blend.upd, hb, Option.map_some] at hy
      exact sample_blend_done h hr hh hc hf hy
    · have hy := pours st hd hx' hcl
      rw [if_pos hpk] at hy
      exact sample_blend_done h hr hh hc hf hy
    · have hy := closes st hd hx' hcl hst
      rw [if_pos hpk] at hy
      exact sample_blend_done h hr hh hc hf hy
    · have hbecame : (readingOf s.fe f z).becameStable = true := by simp [readingOf, hst, hfe]
      have hy := hread _ ((chargeReading_settling (by exact hb) hk hx hd (by exact hw) hbecame).trans
        ((settleDone_last (by exact hb) hk hx hbin hlast).trans (endCharging_eq rfl)))
      rw [hx'] at hy
      refine sample_blend h hr hh hc hf hy rfl (drain_job (n := 4094) (r := []) (inv_claimAsk_waits ?_ ?_) (drain_nil _ _)) h.2
      · exact canSend_working h.1
      · exact ha

end Sys2Proof.Machine

/-! ## The requests of the blend sequencer (O48) -/

namespace Sys2Proof.Machine

section
variable {s t u : State} {q : Jobs} {α : Type} {a : α} {k : Byte} {c : PortAnswer}

/-- A request of the blend sequencer: its answer, its actions, then their jobs. -/
theorem request_blend {e : Eff Blend} {g : α → State → PortAnswer × Eff Blend} (h : PortTakes s .blend)
    (hg : g a s = (c, e)) (hp : ({ s.answer k c [] with blend := e.st } : State).perform e.acts = (t, q))
    (hd : drain jobBound t q = u) (ho : u.head.owedDone = []) :
    s.request k .blend (.good a) (fun a s => s.portBlend k (g a s)) = u.tryTransmit := by
  rw [request_good s k .blend a _ h]
  refine Eq.trans ?_ (settle_drain hd ho)
  rw [State.portBlend, hg, ← hp]
  rfl

/-- The same where it raises no job. -/
theorem request_blend_done {e : Eff Blend} {g : α → State → PortAnswer × Eff Blend} (h : PortTakes s .blend)
    (hg : g a s = (c, e)) (hp : ({ s.answer k c [] with blend := e.st } : State).perform e.acts = (t, [])) :
    s.request k .blend (.good a) (fun a s => s.portBlend k (g a s)) = t.tryTransmit := by
  refine request_blend h hg hp (drain_nil _ _) ?_
  have := perform_head e.acts ({ s.answer k c [] with blend := e.st } : State)
  rw [hp] at this
  exact (congrArg Head.owedDone this).trans h.2.2.2.2.2

end

/-! ### The answers of the blend sequencer -/

theorem modify_twice {α : Type} (l : List α) (k : Nat) (f g : α → α) :
    (l.modify k f).modify k g = l.modify k (fun a => g (f a)) := by
  refine List.ext_getElem? fun i => ?_
  rw [List.getElem?_modify, List.getElem?_modify, List.getElem?_modify]
  by_cases h : k = i <;> simp [h, Function.comp_def]

section
variable {b : Blend} {s : State} {o : OrderBody}

theorem placeOrder_refused (h : b.state ≠ .idle ∨ s.dupOffline = true) :
    b.placeOrder s o = (.state, 0, Eff.pure b) := by
  rcases h with h | h <;> simp [Blend.placeOrder, h]

theorem placeOrder_outOfRange (hi : b.state = .idle) (hd : s.dupOffline = false) (hr : orderInRange o = false) :
    b.placeOrder s o = (.range, 0, Eff.pure b) := by
  simp [Blend.placeOrder, hi, hd, hr]

theorem placeOrder_rejected (hi : b.state = .idle) (hd : s.dupOffline = false) (hr : orderInRange o = true)
    (hg : o.grade ∈ s.start.rejected) : b.placeOrder s o = (.range, 1, Eff.pure b) := by
  simp [Blend.placeOrder, hi, hd, hr, hg]

theorem placeOrder_tooHeavy (hi : b.state = .idle) (hd : s.dupOffline = false) (hr : orderInRange o = true)
    (hg : o.grade ∉ s.start.rejected)
    (hw : 120 * s.targetOf o.grade < (b.compsOf o).foldl (fun t c => t + c.target) 0 ∨
      500000 < (b.compsOf o).foldl (fun t c => t + c.target) 0) :
    b.placeOrder s o = (.range, 2, Eff.pure b) := by
  simp [Blend.placeOrder, hi, hd, hr, hg, hw]

end

section
variable {b : Blend} {o : Order} {k : Nat} {c d : Comp} {w : Int}

/-- A component begins with no stable weight shown: it waits for one (R67). -/
theorem beginComp_waits (hb : b.order = some o) (hw : b.stableNow = none) (k : Nat) :
    b.beginComp k = { b with order := some { o with
      cur := some k, draw := .waitStart,
      comps := o.comps.modify k (fun c => { c with state := .drawing, start := none, peak := 0, settle := false }) } } := by
  have hlast : ({ b with order := some { o with
      cur := some k, draw := .waitStart,
      comps := o.comps.modify k (fun c => { c with state := .drawing, start := none, peak := 0, settle := false }) } } :
      Blend).stableNow = none := hw
  simp only [Blend.beginComp, Blend.upd, hb, Option.map_some, Order.updComp]
  rw [hlast]
  split
  · next h => cases h
  · rfl

/-- A component begins on a stable weight: its gate opens. -/
theorem beginComp_pours (hb : b.order = some o) (hd : o.comps[k]? = some d) (hw : b.stableNow = some w) :
    b.beginComp k = { b with
      gate := some d.bin, starve := .running 6000,
      order := some { o with
        cur := some k, draw := .pouring,
        comps := o.comps.modify k (fun c => { c with state := .drawing, start := some w, peak := 0, settle := false }) } } := by
  have hcur : (o.comps.modify k (fun c => { c with state := .drawing, start := none, peak := 0, settle := false }))[k]? =
      some { d with state := .drawing, start := none, peak := 0, settle := false } := by
    rw [List.getElem?_modify_eq, hd]; rfl
  have hlast (p : Option Order) : ({ b with order := p } : Blend).stableNow = some w := hw
  simp only [Blend.beginComp, Blend.upd, hb, Option.map_some, Order.updComp, hlast]
  rw [current_eq rfl rfl hcur]
  refine (pour_eq rfl rfl d.bin w 0).trans ?_
  rw [modify_twice]
  rfl

/-- A component whose start weight is kept waits for a stable weight to pour again (R67, R87). -/
theorem pourAgain_waits (hb : b.order = some o) (hw : b.stableNow = none) :
    b.pourAgain = { b with order := some { o with draw := .waitAgain } } := by
  have hlast (p : Option Order) : ({ b with order := p } : Blend).stableNow = none := hw
  simp only [Blend.pourAgain, Blend.upd, hb, Option.map_some, hlast]
  split
  · next h => cases h
  · rfl

theorem pourAgain_pours {v : Int} (hb : b.order = some o) (hk : o.cur = some k) (hc : o.comps[k]? = some c)
    (hv : c.start = some v) (hw : b.stableNow = some w) :
    b.pourAgain = { b with
      gate := some c.bin, starve := .running 6000,
      order := some { o with
        draw := .pouring, comps := o.comps.modify k (fun y => { y with start := some v, peak := w - v }) } } := by
  have hlast (p : Option Order) : ({ b with order := p } : Blend).stableNow = some w := hw
  have hcur : ({ b with order := some { o with draw := .waitAgain } } : Blend).current =
      some ({ o with draw := .waitAgain }, k, c) := current_eq rfl hk hc
  simp only [Blend.pourAgain, Blend.upd, hb, Option.map_some, hlast, hcur, hv, Option.getD_some]
  exact pour_eq (o := { o with draw := .waitAgain }) rfl hk c.bin v (w - v)

end

section
variable {b : Blend} {s : State} {o : OrderBody}

/-- The order that a PLACE ORDER makes, before its first component begins (R65). -/
def Blend.ordered (b : Blend) (s : State) (o : OrderBody) : Order :=
  { number := o.order, grade := o.grade, garden := o.garden.getD s.cfg.garden, mix := o.mix.getD s.cfg.mixTurns,
    comps := b.compsOf o, cur := none, charged := none, turns := 0, claim := .none, batch := none, draw := .waitStart }

/-- An order that passes its tests, with no stable weight shown: its first component waits for one (R65 to R67). -/
theorem placeOrder_waits (hi : b.state = .idle) (hd : s.dupOffline = false) (hr : orderInRange o = true)
    (hg : o.grade ∉ s.start.rejected)
    (h1 : (b.compsOf o).foldl (fun t c => t + c.target) 0 ≤ 120 * s.targetOf o.grade)
    (h2 : (b.compsOf o).foldl (fun t c => t + c.target) 0 ≤ 500000) (hw : b.stableNow = none) :
    b.placeOrder s o = (.ok, 0, Eff.pure { b with
      state := .charging,
      order := some
        { number := o.order, grade := o.grade, garden := o.garden.getD s.cfg.garden, mix := o.mix.getD s.cfg.mixTurns,
          cur := some 0, charged := none, turns := 0, claim := .none, batch := none, draw := .waitStart,
          comps := (b.compsOf o).modify 0 (fun c =>
            { c with state := .drawing, start := none, peak := 0, settle := false }) } }) := by
  have hsum : ¬ ((b.compsOf o).foldl (fun t c => t + c.target) 0 > 120 * s.targetOf o.grade ∨
      (b.compsOf o).foldl (fun t c => t + c.target) 0 > 500000) := by omega
  simp only [Blend.placeOrder, hi, hd, hr, hg, hsum, List.contains_eq_mem, decide_false, bne_self_eq_false, Bool.or_false,
    Bool.not_true, Bool.false_eq_true, if_false]
  exact congrArg (fun e => (PortAnswer.ok, 0, Eff.pure e))
    (beginComp_waits (b := { b with state := .charging, order := some (b.ordered s o) }) rfl hw 0)

end

section
variable {b : Blend} {o : Order} {k n : Nat} {c d : Comp} {w v : Int}

theorem cancel_refused (h : b.cancellable = false) : b.cancel = (.state, Eff.pure b) := by
  simp [Blend.cancel, h]

/-- The blender BLOCKED by CANCEL (R81). -/
def Blend.blockedBy (b : Blend) : Blend :=
  { b with state := .blocked, held := none, gate := none, starve := .stopped, stall := .stopped }

/-- CANCEL with no claim made, or with the invoice lost, asks nothing of the invoice unit (R81). -/
theorem cancel_alone (h : b.cancellable = true) (ho : b.order = some o)
    (hc : o.claim = .none ∨ (o.claim = .firm ∧ o.batch.isSome = true ∧ b.stop = some .ownerLost)) :
    b.cancel = (.ok, Eff.mk' b.blockedBy [batchReport o.batch .cancelled]) := by
  rcases hc with hc | ⟨hc, hb, hs⟩
  · simp [Blend.cancel, h, ho, hc, Blend.blockedBy]
  · obtain ⟨n, hn⟩ := Option.isSome_iff_exists.1 hb
    simp [Blend.cancel, h, ho, hc, hn, hs, Blend.blockedBy]

theorem cancel_asked (h : b.cancellable = true) (ho : b.order = some o) (hc : o.claim = .asked) :
    b.cancel = (.ok, Eff.mk' b.blockedBy [.post .inv .claimCancel, batchReport o.batch .cancelled]) := by
  simp [Blend.cancel, h, ho, hc, Blend.blockedBy]

theorem cancel_firm (h : b.cancellable = true) (ho : b.order = some o) (hc : o.claim = .firm) (hn : o.batch = some n)
    (hs : b.stop ≠ some .ownerLost) :
    b.cancel = (.ok, Eff.mk' b.blockedBy [.post .inv (.endInvoice n .cancelled none), batchReport o.batch .cancelled]) := by
  simp [Blend.cancel, h, ho, hc, hn, hs, Blend.blockedBy]

theorem resume_refused (h : b.state ≠ .held) : b.resume = (.state, Eff.pure b) := by
  simp [Blend.resume, h]

theorem redraw_refused (h : b.state ≠ .held) (n : Nat) : b.redraw n = (.state, Eff.pure b) := by
  simp [Blend.redraw, h]

theorem resume_mixStall (h : b.state = .held) (hh : b.held = some .mixStall) :
    b.resume = (.ok, Eff.pure { b with state := .mixing, held := none, stall := .running 10000 }) := by
  simp [Blend.resume, h, hh, Config.stallTime]

section
variable (h : b.state = .held) (ho : b.order = some o) (hk : o.cur = some k) (hc : o.comps[k]? = some c)
include h ho hk hc

theorem resume_unsettled (hh : b.held = some .shortfall) (hs : c.settle = false) : b.resume = (.state, Eff.pure b) := by
  simp [Blend.resume, h, hh, current_eq ho hk hc, hs]

/-- CONTINUE of a starved component that has settled: the carry-over book is lowered and the next one follows (R72, R73). -/
theorem resume_settled (hh : b.held = some .shortfall) (hs : c.settle = true) :
    b.resume = (.ok, ({ b with
      state := .charging, held := none,
      book := if c.bin = 12 then
          b.book.setIfInBounds o.grade
            { weight := (b.bookOf o.grade).weight - c.drawn,
              count := if (b.bookOf o.grade).weight - c.drawn = 0 then 0 else (b.bookOf o.grade).count }
        else b.book } : Blend).following k) := by
  have hbook (y : Blend) : y.bookOf o.grade = (y.book[o.grade]?).getD { weight := 0, count := 0 } := rfl
  by_cases hbin : c.bin = 12 <;>
    simp [Blend.resume, h, hh, current_eq ho hk hc, hs, hbin, Blend.lowerBook, Blend.setBook, hbook]

theorem redraw_range (hh : b.held = some .shortfall ∨ b.held = some .restart) (hn : c.bin = 12 ∨ n = 0 ∨ 11 < n) :
    b.redraw n = (.range, Eff.pure b) := by
  rcases hh with hh | hh <;> simp [Blend.redraw, h, hh, current_eq ho hk hc, hn]

/-- The blender charging again with a component redrawn from bin `n` (R72). -/
def Blend.redrawn (b : Blend) (o : Order) (k n : Nat) : Blend :=
  { b with
    state := .charging, held := none,
    order := some { o with comps := o.comps.modify k (fun c =>
      { c with bin := n, drawn := 0, state := .drawing, settle := false }) } }

theorem redraw_taken {v : Int} (hbin : c.bin ≠ 12) (h1 : 1 ≤ n) (h2 : n ≤ 11) (hv : c.start = some v)
    (hh : (b.held = some .shortfall ∧ c.settle = true) ∨ (b.held = some .restart ∧ b.stableNow.isSome = true)) :
    b.redraw n = (.ok, Eff.pure (b.redrawn o k n).pourAgain) := by
  have hr : ¬ (c.bin = 12 ∨ n = 0 ∨ n > 11) := by omega
  rcases hh with ⟨hh, hs⟩ | ⟨hh, hs⟩
  · simp [Blend.redraw, h, hh, current_eq ho hk hc, hr, hs, hv, updCur_eq ho hk, Blend.redrawn]
  · have hs' : b.stableNow ≠ none := Option.isSome_iff_ne_none.1 hs
    simp [Blend.redraw, h, hh, current_eq ho hk hc, hr, hs', hv, updCur_eq ho hk, Blend.redrawn]

theorem redraw_unstable (hh : b.held = some .restart) (hbin : c.bin ≠ 12) (h1 : 1 ≤ n) (h2 : n ≤ 11)
    (hw : b.stableNow = none) : b.redraw n = (.state, Eff.pure b) := by
  have hr : ¬ (c.bin = 12 ∨ n = 0 ∨ n > 11) := by omega
  simp [Blend.redraw, h, hh, current_eq ho hk hc, hr, hw]

/-- CONTINUE of a drum held by a restart (R87). -/
theorem resume_restart (hh : b.held = some .restart) :
    b.resume = (.ok,
      if o.draw = .settling then
        (match b.stableNow with
        | some w => ({ b with state := .charging, held := none } : Blend).settleDone w
        | none => Eff.pure { b with state := .charging, held := none })
      else if c.start.isSome then Eff.pure ({ b with state := .charging, held := none } : Blend).pourAgain
      else Eff.pure (({ b with state := .charging, held := none } : Blend).beginComp k)) := by
  cases hd : o.draw <;> cases hw : b.stableNow <;> cases hv : c.start <;>
    simp [Blend.resume, h, hh, current_eq ho hk hc, hd, hw, hv]

end

theorem endBatch_refused (h : b.state ≠ .discharging) : b.endBatch = (.state, Eff.pure b) := by
  simp [Blend.endBatch, h]

/-- END BATCH again, the stop pending: it completes with no remainder (R79). -/
theorem endBatch_again (h : b.state = .discharging) (ho : b.order = some o) (hs : b.stop = some .stopped) :
    b.endBatch = (.ok, Eff.mk' b.toIdle [batchReport o.batch .stopped]) := by
  simp [Blend.endBatch, h, hs, Blend.stopDone, ho, Blend.addBook]

theorem stopNow_waits (hw : b.stableNow = none) : b.stopNow = Eff.pure b := by
  simp [Blend.stopNow, hw]

theorem endBatch_stops (h : b.state = .discharging) (hb : b.batchInv = some n) (hs : b.stop = none)
    (hw : b.stableNow = none) :
    b.endBatch = (.ok, Eff.mk' { b with stop := some .stopped }
      [.post .inv (.endInvoice n .stopped none), .post .arb (.batchEnded .stopped)]) := by
  have hstop := stopNow_waits (b := { b with stop := some .stopped }) hw
  unfold Blend.endBatch
  rw [if_neg (by simp [h]), hs, hb]
  simp only [Eff.andThen, Eff.mk', hstop, Eff.pure, List.append_nil]

theorem confirmEmpty_refused (h : b.state ≠ .blocked ∨ b.stableNow = none) (cfg : Cfg) :
    b.confirmEmpty cfg = (.state, Eff.pure b) := by
  by_cases hs : b.state = .blocked
  · simp [Blend.confirmEmpty, hs, h.resolve_left (not_not.2 hs)]
  · simp [Blend.confirmEmpty, hs]

theorem confirmEmpty_weighed (h : b.state = .blocked) (hw : b.stableNow = some w) (cfg : Cfg) :
    b.confirmEmpty cfg = if w < (cfg.drumEmpty : Int) then (.ok, Eff.pure b.toIdle) else (.range, Eff.pure b) := by
  simp [Blend.confirmEmpty, h, hw]

end

theorem carrySet_range {b : Blend} {r : CarrySet} (h : 11 < r.grade ∨ 500000 < r.weight) :
    b.carrySet r = (.range, Eff.pure b) := if_pos h

theorem carrySet_inRange {b : Blend} {r : CarrySet} (h1 : r.grade ≤ 11) (h2 : r.weight ≤ 500000) :
    b.carrySet r = if b.carryBusy r.grade then (.state, Eff.pure b)
      else (.ok, Eff.pure (b.setBook r.grade { weight := r.weight, count := 0 })) :=
  if_neg (by omega)

section
variable {b : Blend} {o : Order} {k : Nat} {d : Comp}

/-- The current component settles, and the next follows (R69). -/
theorem settleDone_next {c : Comp} {w : Int} (hb : b.order = some o) (hk : o.cur = some k) (hc : o.comps[k]? = some c)
    (hbin : c.bin ≠ 12) :
    b.settleDone w = ({ b with order := some { o with comps := o.comps.modify k (fun y =>
      { y with drawn := drawnWeight c.start w, state := .done, settle := true }) } } : Blend).following k := by
  simp [Blend.settleDone, current_eq hb hk hc, hbin, updCur_eq hb hk]

theorem following_begins (hb : b.order = some o) (hd : o.comps[k + 1]? = some d) :
    b.following k = Eff.pure (b.beginComp (k + 1)) := by
  have hlen : k + 1 < o.comps.length := (List.getElem?_eq_some_iff.1 hd).1
  simp [Blend.following, hb, hlen]

theorem following_ends (hb : b.order = some o) (hend : k + 1 = o.comps.length) : b.following k = b.endCharging := by
  simp [Blend.following, hb, hend]

end

/-! ### The invoice unit asked by the port (R29, R33, R48, R81) -/

section
variable {s : State} {n : Nat}

theorem portTakes_working {g : Group} (h : PortTakes s g) (hg : g ≠ .all) : s.working = true := by
  obtain ⟨hlow, -, hload, -, hoff, -⟩ := h
  have hcfg : s.start.state ≠ .offlineConfig := hoff.resolve_left hg
  unfold State.working
  rw [hlow]
  cases hst : s.start.state <;> simp_all

theorem canSend_active (hl : s.start.resetLow = false) (ha : s.isActive = true) : s.canSend = true := by
  have hst : s.start.state = .active := by simpa [State.isActive] using ha
  simp [State.canSend, State.working, State.dupOffline, hl, hst]

/-- A number is asked for on an ACTIVE station with a free entry and a free number: it is claimed at once (R29). -/
theorem inv_claimAsk_claims {q : ClaimReq} (hc : s.canSend = true) (hroom : JobRoom s) (ha : s.isActive = true)
    (hm : s.inv.mark < s.cfg.last) (hf : s.inv.table.length < Config.tableEntries) :
    s.takeJob .inv (.claimAsk q) = ({ s.queues (jobFrame 0 (.claim
        { inv := s.inv.mark + 1, order := q.order, grade := q.grade, garden := q.garden, net := q.charged })
        (.claim (s.inv.mark + 1))) with
      inv := { s.inv with
        mark := s.inv.mark + 1, req := some q, phase := .queued (s.inv.mark + 1) false [],
        table := s.inv.table ++
          [{ Entry.made (s.claimHeader (s.inv.mark + 1) s.self q.order q.grade q.charged q.garden) .complete with
              own := some (OwnerRec.start (Entry.made
                (s.claimHeader (s.inv.mark + 1) s.self q.order q.grade q.charged q.garden) .complete).data) }] } }, []) := by
  have hfull : ({ s.inv with req := some q } : Inv).full = false := by simpa [Inv.full] using hf
  have hlast : ¬ ({ s.inv with req := some q } : Inv).mark ≥ s.cfg.last := Nat.not_le.2 hm
  have htry : s.inv.takeClaimAsk s q = ({ s.inv with req := some q } : Inv).claim s q := by
    simp [Inv.takeClaimAsk, Inv.tryClaim, ha, hfull, hlast]
  refine job_inv (canSend_working hc) (r := ({ s.inv with req := some q } : Inv).claim s q) ?_ (perform_job _ _ _ _ hc hroom)
  show (s.inv.takeClaimAsk s q).andThen (fun i => i.claimIfFree s) = _
  rw [htry]
  exact andThen_claimIfFree (by simp [Inv.claim]) s

theorem takeInv_claimCancel {r : Eff Inv} (hb : s.inv.takeCancel = r) (hph : r.st.phase ≠ .waitFree) :
    takeInv s .claimCancel = r := by
  subst hb; exact andThen_claimIfFree hph s

/-- An entry freed with its number in the gap list is nothing to a station without marker and paper unit whose blender is
BLOCKED. -/
theorem freed_idle (hm : s.cfg.roles.mark = false) (hp : s.cfg.roles.paper = false) (hb : s.blend.state = .blocked) (n : Nat) :
    ∀ j ∈ [(Block.blend, Ev.entryFreed n), (.paper, .entryFreed n), (.mark, .copyChanged n), (.paper, .gapNumber n)],
      s.takeJob j.1 j.2 = (s, []) := by
  have hblend : takeBlend s (.entryFreed n) = Eff.pure s.blend := by
    simp [takeBlend, Blend.freed, Blend.lost, hb]
  simp only [List.forall_mem_cons]
  exact ⟨idle_blend hblend, takeJob_no_paper s _ hp, takeJob_no_mark s _ hm, takeJob_no_paper s _ hp, by simp⟩

end

section
variable {i : Inv} {n : Nat} {o : OwnerRec}

/-- With no short entry held, the tests are the end test. -/
theorem tests_noShort (ho : i.owned n = some o) (hk : o.short = none) : i.tests n = i.endTest n := by
  simp [Inv.tests, Inv.conclude, Inv.shortTest, ho, hk, Eff.andThen, Eff.pure, Inv.lostHeader]

/-- The owner's records after a change of the header at the next version. -/
def OwnerRec.issuedHdr (o : OwnerRec) (h : Header) : OwnerRec :=
  { o with issued := o.issued + 1, view := { o.view with hdr := { h with version := o.issued + 1 } } }

/-- An ENDING invoice with no fill OUTSTANDING moves to MARKING (R134). -/
theorem endTest_moves (ho : i.owned n = some o) (hs : o.view.hdr.state = .ending) (hf : o.noOutstanding = true)
    (hk : o.short = none) (ht : o.settle = .stopped) (hd : o.resendDelay = .stopped) (hv : o.issued < Config.maxVersion) :
    i.endTest n =
      (Eff.mk' (i.updOwn n (fun y => { y with
          issued := o.issued + 1,
          view := { o.view with hdr := { o.view.hdr with state := .marking, version := o.issued + 1 } } }))
        [.send (jobFrame 0 (headerMsg { o.view.hdr with state := .marking, version := o.issued + 1 } false none)
          (.versioned n (o.issued + 1)))]).andThen (fun i => i.closeTest n) := by
  have hissue := issueHdr_next ho hd hv (fun h => { h with state := .marking })
  simp only [Inv.endTest, ho, hs, hf, hk, ht, Timer.on, beq_self_eq_true, Option.isNone_none, Bool.not_false, Bool.and_self,
    if_true, hissue]

/-- A MARKING invoice with no chest to mark closes (R158). -/
theorem closeTest_closes (ho : i.owned n = some o) (hs : o.view.hdr.state = .marking)
    (hch : o.view.chests.all (fun c => c.stencil != .pending) = true) (hd : o.resendDelay = .stopped)
    (hv : o.issued < Config.maxVersion) :
    i.closeTest n =
      Eff.mk' (i.updOwn n (fun y => { y with
          issued := o.issued + 1,
          view := { o.view with hdr := { o.view.hdr with state := .closed, version := o.issued + 1 } } }))
        [.send (jobFrame 0 (headerMsg { o.view.hdr with state := .closed, version := o.issued + 1 } false none)
          (.versioned n (o.issued + 1)))] := by
  have hissue := issueHdr_next ho hd hv (fun h => { h with state := .closed })
  simp only [Inv.closeTest, ho, hs, hch, beq_self_eq_true, Bool.and_self, if_true, hissue]

/-- The end of an invoice with no chests, no fills and no short: it goes through ENDING and MARKING to CLOSED at once (R48,
R134, R158). -/
theorem endInvoice_closes (ho : i.owned n = some o) (hs : o.view.hdr.state = .opened) (hch : o.view.chests = [])
    (hf : o.fills = []) (hk : o.short = none) (ht : o.settle = .stopped) (hd : o.resendDelay = .stopped)
    (hv : o.issued + 3 ≤ Config.maxVersion) (cause : EndCause) (residue : Option Nat) {h : Header}
    (hh : h = { o.view.hdr with state := .closed, endCause := some cause, residue := residue, version := o.issued + 3 }) :
    i.endInvoice n cause residue =
      Eff.mk' (i.updOwn n (fun y => { y with issued := o.issued + 3, view := { o.view with hdr := h } }))
        [.send (jobFrame 0 (headerMsg { h with state := .ending, version := o.issued + 1 } false none)
          (.versioned n (o.issued + 1))),
         .send (jobFrame 0 (headerMsg { h with state := .marking, version := o.issued + 2 } false none)
          (.versioned n (o.issued + 2))),
         .send (jobFrame 0 (headerMsg h false none) (.versioned n (o.issued + 3)))] := by
  subst hh
  have h1 := (Inv.OwnerChanged.refl ho).updOwn (fun y => { y with
    issued := o.issued + 1,
    view := { o.view with hdr := { o.view.hdr with
      state := .ending, endCause := some cause, residue := residue, version := o.issued + 1 } } })
  have h2 := h1.updOwn (fun y => { y with
    issued := o.issued + 1 + 1,
    view := { o.view with hdr := { o.view.hdr with
      state := .marking, endCause := some cause, residue := residue, version := o.issued + 1 + 1 } } })
  have hissue := issueHdr_next ho hd (by omega)
    (fun h => { h with state := .ending, endCause := some cause, residue := residue })
  have hend := endTest_moves h1.owned rfl (by rw [OwnerRec.noOutstanding]; simp [hf]) hk ht hd
    (show o.issued + 1 < Config.maxVersion by omega)
  have hclose := closeTest_closes h2.owned rfl (by simp [hch]) hd (show o.issued + 1 + 1 < Config.maxVersion by omega)
  simp only [Inv.endInvoice, ho, hs, beq_self_eq_true, if_true, hissue, Eff.andThen, Eff.mk', tests_noShort h1.owned hk, hend]
  simp only [hclose]
  simp only [Eff.mk', updOwn_updOwn]
  rfl

end

/-- A frame queued takes one place. -/
theorem room_queues {u : State} (f : TxFrame) {k : Nat} (hu : u.line.txq.length + (k + 2) ≤ Config.txPlaces) :
    (u.queues f).line.txq.length + (k + 1) ≤ Config.txPlaces := by
  show (u.line.txq ++ [f]).length + (k + 1) ≤ _
  rw [List.length_append, List.length_singleton]
  omega

theorem JobRoom.behind {u : State} {f : TxFrame} {k : Nat} (hu : u.line.txq.length + (k + 2) ≤ Config.txPlaces) :
    JobRoom (u.queues f) := by
  have := room_queues f hu
  show (u.queues f).line.txq.length < _
  omega

/-! ### The claim cancelled (R33, R81) -/

section
variable {i : Inv} {n : Nat} {l : List Nat} {second : Bool}

theorem claimCancel_idle (h : i.phase = .waitActive ∨ i.phase = .waitFree ∨ i.phase = .seasonEnd ∨ i.phase = .retry) :
    i.takeCancel = Eff.pure { i with req := none, phase := .idle, claimRetry := .stopped } := by
  rcases h with h | h | h | h <;> simp [Inv.takeCancel, h]

theorem claimCancel_firm (h : i.phase = .firm n) :
    i.takeCancel = Eff.pure
      (({ i with req := none, phase := .idle } : Inv).updOwn n (fun y => { y with cancelled := true })) := by
  simp [Inv.takeCancel, h]

theorem claimCancel_queued (h : i.phase = .queued n false l) :
    i.takeCancel = Eff.mk' { i with req := none, phase := .idle, table := i.table.filter (fun y => y.num != n) }
      (posts [.blend, .paper] (.entryFreed n) ++ [.post .mark (.copyChanged n), .post .paper (.gapNumber n)] ++
        [.unsend (.claim n)]) := by
  simp [Inv.takeCancel, h, Inv.free, Eff.act, Eff.mk']

theorem claimCancel_window (h : i.phase = .window n second l) :
    i.takeCancel = Eff.mk' { i with
        req := none, phase := .idle, claimWindow := .stopped, table := i.table.filter (fun y => y.num != n) }
      (posts [.blend, .paper] (.entryFreed n) ++ [.post .mark (.copyChanged n), .post .paper (.gapNumber n)] ++
        [.unsend (.claim n), .send (jobFrame 0 (.withdraw n) .withdraw)]) := by
  simp [Inv.takeCancel, h, Inv.withdraw, Inv.free, Eff.adds, Eff.mk']

end

/-- The notices of an entry freed with its number in the gap list. -/
theorem perform_freed (s : State) (n : Nat) :
    s.perform (posts [.blend, .paper] (.entryFreed n) ++ [.post .mark (.copyChanged n), .post .paper (.gapNumber n)]) =
      (s, [(.blend, .entryFreed n), (.paper, .entryFreed n), (.mark, .copyChanged n), (.paper, .gapNumber n)]) := rfl

section
variable {s : State} {o : OrderBody} {a : PortAnswer} {n : Nat} {b : Blend}

/-- PLACE ORDER and its answer. -/
theorem placeOrder_done (h : PortTakes s .blend) (hb : s.blend.placeOrder s o = (a, n, Eff.pure b)) :
    exec (.placeOrder (.good o)) s =
      .next (State.tryTransmit { s.answer 0x10#8 a (if a == .range then put1 n else []) with blend := b }) := by
  refine next_eq ?_
  rw [portTake_good s 0x10#8 .blend o [0#8] _ h]
  refine Eq.trans ?_ (settle_nil _ h.2.2.2.2.2)
  rw [State.placeOrder, hb]
  rfl

end

/-- Settles O48: each request is answered by one equation of the blend sequencer; CANCEL and the end of charging then run through
the invoice unit, END BATCH through the arbiter too. -/
theorem blendRequests : Obligations.BlendRequests := by
  intro s h
  have hw : s.working = true := portTakes_working h (by decide)
  have hr : s.cfg.roles.blend = true := h.2.2.2.1
  have hdone : s.head.owedDone = [] := h.2.2.2.2.2
  refine ⟨fun b => ⟨fun hs => ?_, fun hi hd => ⟨fun hrange => ?_, fun hrange hg => ?_, fun hrange hg hsum => ?_,
      fun hrange hg h1 h2 hst => ?_⟩⟩, fun hc => ?_, fun o hc ho hcl => ?_, fun hs => ⟨?_, fun n => ?_⟩, fun hs hh => ?_,
    fun o k n c hs hh ho hk hc => ⟨fun hset => ?_, fun hn => ?_, fun hbin h1 h2 hset hstart hst => ?_⟩, fun hs => ?_,
    fun o hs ho hst => ?_, ?_, fun hs => ?_, fun w hs hst => ⟨fun hge => ?_, fun hlt => ?_⟩,
    fun b => ⟨fun hn => ?_, fun h1 h2 => ⟨fun hb => ?_, fun hb => ?_⟩⟩, ?_, ?_, ?_, ?_⟩
  · exact placeOrder_done h (placeOrder_refused hs)
  · exact placeOrder_done h (placeOrder_outOfRange hi hd hrange)
  · exact placeOrder_done h (placeOrder_rejected hi hd hrange hg)
  · exact placeOrder_done h (placeOrder_tooHeavy hi hd hrange hg hsum)
  · exact placeOrder_done h (placeOrder_waits hi hd hrange hg h1 h2 hst)
  · exact next_eq (request_blend_done h (cancel_refused hc) rfl)
  · exact next_eq (request_blend_done h (cancel_alone hc ho hcl) rfl)
  · exact next_eq (request_blend_done h (resume_refused hs) rfl)
  · exact next_eq (request_blend_done h (redraw_refused hs n) rfl)
  · exact next_eq (request_blend_done h (resume_mixStall hs hh) rfl)
  · exact next_eq (request_blend_done h (resume_unsettled hs ho hk hc hh hset) rfl)
  · exact next_eq (request_blend_done h (redraw_range hs ho hk hc (.inl hh) hn) rfl)
  · obtain ⟨v, hv⟩ := Option.isSome_iff_exists.1 hstart
    have htaken := redraw_taken hs ho hk hc hbin h1 h2 hv (.inl ⟨hh, hset⟩)
    rw [pourAgain_waits rfl (by exact hst)] at htaken
    exact next_eq (request_blend_done h htaken rfl)
  · exact next_eq (request_blend_done h (endBatch_refused hs) rfl)
  · exact next_eq (request_blend_done h (endBatch_again hs ho hst) rfl)
  · intro b n o hcs hroom hs hb hn hst hlast hflag hcur hnext hqueue hph ho hopen hd hv hk hf
    have hbatch : s.blend.batchInv = some n := by simp [Blend.batchInv, hb, hn]
    obtain ⟨i, hi, hend⟩ := endInvoice_waits ho hopen hd hv hk hf .stopped none rfl
    have hphi : i.phase ≠ .waitFree := by rw [hi.phase]; exact hph
    refine ⟨i, _, rfl, ?_, hi.rest, hi.others, hi.data, hi.owned⟩
    exact next_eq (request_blend h (endBatch_stops hs hbatch hst hlast) rfl
      (drain_job (n := 4095) (job_inv (by exact hw) (takeInv_endInvoice hend hphi)
          (perform_job _ _ _ _ (by exact hcs) (by exact hroom)))
        (drain_job (n := 4094) (arb_ended _ (by exact hw) (by exact hr) hflag hcur hnext hqueue) (drain_nil _ _))) hdone)
  · exact next_eq (request_blend_done h (confirmEmpty_refused hs _) rfl)
  · exact next_eq (request_blend_done h ((confirmEmpty_weighed hs hst _).trans (if_neg (by omega))) rfl)
  · exact next_eq (request_blend_done h ((confirmEmpty_weighed hs hst _).trans (if_pos hlt)) rfl)
  · exact next_eq (request_blend_done h (carrySet_range hn) rfl)
  · exact next_eq (request_blend_done h ((carrySet_inRange h1 h2).trans (if_pos hb)) rfl)
  · exact next_eq (request_blend_done h ((carrySet_inRange h1 h2).trans (if_neg (by simp [hb]))) rfl)
  · intro o hc ho
    refine ⟨fun hcl => ?_, ?_⟩
    · have asked {t u : State} {q : Jobs}
          (hj : (s.cancels o).takeJob .inv .claimCancel = (t, q)) (hd : drain 4095 t q = u)
          (hu : u.head.owedDone = []) : exec (.cancel (.good ())) s = .next u.tryTransmit :=
        next_eq (request_blend h (cancel_asked hc ho hcl) rfl (drain_job (n := 4095) hj hd) hu)
      refine ⟨fun hph => ?_, fun n hph => ?_, fun n l hm hp hph => ?_, fun n second l hm hp hph hcs hroom htx => ?_⟩
      · exact asked (job_inv (by exact hw) (takeInv_claimCancel (claimCancel_idle (by exact hph)) (by simp [Eff.pure]))
          (perform_nil _)) (drain_nil _ _) hdone
      · exact asked (job_inv (by exact hw) (takeInv_claimCancel (claimCancel_firm (by exact hph)) (by simp [Eff.pure, updOwn_phase]))
          (perform_nil _)) (drain_nil _ _) hdone
      · exact asked (job_inv (by exact hw) (takeInv_claimCancel (claimCancel_queued (by exact hph)) (by simp [Eff.mk']))
          (perform_append (perform_freed _ _) rfl)) (drain_idle _ _ (freed_idle (by exact hm) (by exact hp) (by rfl) n) _) hdone
      · have hun : s.line.txq.all (fun f => !(Unsend.claim n).hits f) = true := by
          simp only [claim_hits]
          exact htx
        exact asked (job_inv (by exact hw) (takeInv_claimCancel (claimCancel_window (by exact hph)) (by simp [Eff.mk']))
          (perform_append (perform_freed _ _) (perform_then (perform1_unsend_none (by exact hun))
            (perform_job _ _ _ _ (by exact hcs) (by exact hroom))))) (drain_idle _ _ (freed_idle (by exact hm) (by exact hp) (by rfl) n) _) hdone
    · intro n w x hcl hn hst hcs hph hown hopen hch hf hk ht hd hv hroom hx
      refine next_eq (request_blend h (cancel_firm hc ho hcl hn hst) rfl
        (drain_job (n := 4095) (job_inv (by exact hw)
          (takeInv_endInvoice (endInvoice_closes hown hopen hch hf hk ht hd hv .cancelled none hx) (by exact hph))
          (perform_then (perform1_job (by exact hcs) ?_)
            (perform_then (perform1_job (by exact hcs) ?_) (perform_job _ _ _ _ (by exact hcs) ?_))))
          (drain_nil _ _)) hdone)
      · exact Nat.lt_of_lt_of_le (Nat.lt_add_of_pos_right (by decide)) hroom
      · exact JobRoom.behind (k := 1) (by exact hroom)
      · exact JobRoom.behind (k := 0) (room_queues _ (k := 1) (by exact hroom))
  · intro o k left c b q hs hh ho hk hc hset hleft hb hq
    have hb' : b = { s.blend with
        state := .charging, held := none,
        book := if c.bin = 12 then
            s.blend.book.setIfInBounds o.grade
              { weight := (s.blend.bookOf o.grade).weight - c.drawn,
                count := if (s.blend.bookOf o.grade).weight - c.drawn = 0 then 0 else (s.blend.bookOf o.grade).count }
          else s.blend.book } := by rw [hb, hleft]
    have hres := resume_settled hs ho hk hc hh hset
    rw [← hb'] at hres
    have hbo : b.order = some o := by rw [hb]; exact ho
    have hlast : b.stableNow = s.blend.stableNow := by rw [hb]; rfl
    refine ⟨fun d hd => ?_, fun hend => ?_⟩
    · have hfol := following_begins hbo hd
      refine ⟨fun hst => ?_, fun w hst => ?_⟩
      · exact next_eq (request_blend_done h (hres.trans (congrArg (Prod.mk _)
          (hfol.trans (congrArg Eff.pure (beginComp_waits hbo (hlast.trans hst) _))))) rfl)
      · exact next_eq (request_blend_done h (hres.trans (congrArg (Prod.mk _)
          (hfol.trans (congrArg Eff.pure (beginComp_pours hbo hd (hlast.trans hst)))))) rfl)
    · have hq' : o.claimReq = q := hq.symm
      have hfol := (following_ends hbo hend).trans (endCharging_eq hbo)
      rw [hq'] at hfol
      have hb := hb'
      subst hb
      refine ⟨fun ha => ?_, fun ha hlow hroom hmark htable => ?_⟩
      · exact next_eq (request_blend h (hres.trans (congrArg (Prod.mk _) hfol)) rfl
          (drain_job (n := 4095) (inv_claimAsk_waits (by exact hw) (by exact ha)) (drain_nil _ _)) hdone)
      · exact next_eq (request_blend h (hres.trans (congrArg (Prod.mk _) hfol)) rfl
          (drain_job (n := 4095) (inv_claimAsk_claims (by exact canSend_active hlow ha) (by exact hroom) (by exact ha)
            (by exact hmark) (by exact htable)) (drain_nil _ _)) hdone)
  · intro o k n c b hs hh ho hk hc hb
    have hres := resume_restart hs ho hk hc hh
    rw [← hb] at hres
    have hbo : b.order = some o := by rw [hb]; exact ho
    have hlast : b.stableNow = s.blend.stableNow := by rw [hb]; rfl
    refine ⟨fun hd hst => ?_, fun w d hd hst hnext hbin => ?_, fun v hd hv => ⟨fun hst => ?_, fun w hst => ?_⟩,
      fun hd hv hst => ?_, fun hn => ?_, fun hbin h1 h2 hst => ?_⟩
    · rw [if_pos hd, hst] at hres
      exact next_eq (request_blend_done h hres rfl)
    · have hafter : (o.comps.modify k (fun y =>
          { y with drawn := drawnWeight c.start w, state := .done, settle := true }))[k + 1]? = some d := by
        simp [hnext]
      rw [if_pos hd, hst] at hres
      dsimp only at hres
      rw [settleDone_next hbo hk hc hbin, following_begins rfl hafter,
        beginComp_pours rfl hafter (by exact hlast.trans hst)] at hres
      exact next_eq (request_blend_done h hres rfl)
    · rw [if_neg hd, if_pos (by rw [hv]; rfl), pourAgain_waits hbo (hlast.trans hst)] at hres
      exact next_eq (request_blend_done h hres rfl)
    · rw [if_neg hd, if_pos (by rw [hv]; rfl), pourAgain_pours hbo hk hc hv (hlast.trans hst)] at hres
      exact next_eq (request_blend_done h hres rfl)
    · rw [if_neg hd, if_neg (by rw [hv]; decide), beginComp_waits hbo (hlast.trans hst), ← hk] at hres
      exact next_eq (request_blend_done h hres rfl)
    · exact next_eq (request_blend_done h (redraw_range hs ho hk hc (.inr hh) hn) rfl)
    · exact next_eq (request_blend_done h (redraw_unstable hs ho hk hc hh hbin h1 h2 hst) rfl)
  · intro o k n c v w hs hh ho hk hc hbin h1 h2 hst hv
    have htaken := redraw_taken hs ho hk hc hbin h1 h2 hv
      (hh.elim (fun hh => .inr ⟨hh, by rw [hst]; rfl⟩) (fun hh => .inl hh))
    have hcur : (o.comps.modify k (fun c => { c with bin := n, drawn := 0, state := .drawing, settle := false }))[k]? =
        some { c with bin := n, drawn := 0, state := .drawing, settle := false } := by
      rw [List.getElem?_modify_eq, hc]; rfl
    rw [pourAgain_pours (b := s.blend.redrawn o k n) rfl hk hcur hv hst, modify_twice] at htaken
    exact next_eq (request_blend_done h htaken rfl)

end Sys2Proof.Machine

/-! ## Requests and inputs of the head (O37 to O39) -/

namespace Sys2Proof.Machine

section
variable {s t u : State} {q : Jobs} {α : Type} {a : α} {k : Byte} {c : PortAnswer}

/-- A request of the head controller whose actions raise no job. -/
theorem request_head {e : Eff Head} {g : α → State → PortAnswer × Eff Head} (h : PortTakes s .head)
    (hg : g a s = (c, e)) (ho : e.st.owedDone = s.head.owedDone)
    (hp : ({ s.answer k c [] with head := e.st } : State).perform e.acts = (t, [])) :
    s.request k .head (.good a) (fun a s => s.portHead k (g a s)) = t.tryTransmit := by
  have htake : (fun a s => State.portHead s k (g a s)) a s = (t, []) := by
    rw [← hp]
    show State.portHead s k (g a s) = _
    rw [State.portHead, hg]
    rfl
  have hhead := perform_head e.acts ({ s.answer k c [] with head := e.st } : State)
  rw [hp] at hhead
  exact request_done s t k .head a _ h htake ((congrArg Head.owedDone hhead).trans (ho.trans h.2.2.2.2.2))

/-- One that the head answers without a change. -/
theorem request_head_same {g : α → State → PortAnswer × Eff Head} (h : PortTakes s .head)
    (hg : g a s = (c, Eff.pure s.head)) :
    s.request k .head (.good a) (fun a s => s.portHead k (g a s)) = (s.answer k c []).tryTransmit :=
  request_head h hg rfl rfl

/-- ZERO answered without a change. -/
theorem request_zero_same (h : PortTakes s .head) (hz : s.zeroAnswer = (c, none)) :
    s.request 0x24#8 .head (.good a) (fun _ s => s.zero) = (s.answer 0x24#8 c []).tryTransmit :=
  request_answer s _ _ a _ c [] h (by simp [State.zero, hz])

end

/-! ### START, STOP and ZERO (O38) -/

section
variable {s : State}

theorem start_taken (hs : s.head.state = .stopped) (ha : s.isActive = true) : s.head.start s = (.ok, s.head.toEmpty) := by
  simp [Head.start, hs, ha]

theorem start_refused (h : s.head.state ≠ .stopped ∨ s.isActive = false) :
    s.head.start s = (.state, Eff.pure s.head) := by
  rcases h with h | h <;> simp [Head.start, h]

theorem stop_taken {h : Head} (hs : h.state = .empty ∨ h.state = .stopped) :
    h.stop = (.ok, Eff.mk' { h with state := .stopped } [.track false]) := by
  rcases hs with hs | hs <;> simp [Head.stop, hs]

theorem stop_refused {h : Head} (he : h.state ≠ .empty) (hs : h.state ≠ .stopped) : h.stop = (.state, Eff.pure h) := by
  simp [Head.stop, he, hs]

/-- ZERO of a platform that is not idle, or shows no stable weight (R60). -/
theorem zeroAnswer_refused (h : s.presence = true ∨ s.fe.stable = false ∨ s.fe.overload = true ∨ s.fe.lost = true ∨
    s.fe.weight = none ∨ (s.head.state ≠ .stopped ∧ s.head.state ≠ .empty ∧ s.head.state ≠ .held)) :
    s.zeroAnswer = (.state, none) := by
  unfold State.zeroAnswer
  dsimp only
  split
  · rfl
  · next hidle =>
    split
    · rfl
    · next hquiet =>
      split
      · next hw =>
        simp only [Bool.or_eq_true, Bool.not_eq_true', not_or, Bool.not_eq_true, Bool.or_eq_false_iff] at hidle hquiet
        rcases h with h | h | h | h | h | ⟨h1, h2, h3⟩ <;> simp_all
      · rfl

/-- The conditions of ZERO: no chest, a head that feeds nothing, and a stable weight (R60). -/
structure ZeroShown (s : State) (a w : Int) : Prop where
  clear : s.presence = false
  idle : s.head.state = .stopped ∨ s.head.state = .empty ∨ s.head.state = .held
  fits : s.fe.overload = false
  heard : s.fe.lost = false
  stable : s.fe.stable = true
  avg : s.fe.avg = some a
  weight : s.fe.weight = some w

theorem zeroAnswer_shown {a w : Int} (h : ZeroShown s a w) :
    s.zeroAnswer = if w < -2000 ∨ w > 2000 then (.range, none) else (.ok, some (s.fe.zeroed a w)) := by
  rcases h.idle with hi | hi | hi <;>
    simp [State.zeroAnswer, h.clear, hi, h.fits, h.heard, h.stable, h.avg, h.weight]

/-- The head with a reading of a weight noted (R57). -/
def Head.noted (h : Head) (r : Reading) (w : Int) : Head := { h with last := some r, lastWeight := some w }

/-- With no chest present a reading of weight 0 that is no double fault changes nothing else in STOPPED, EMPTY and HELD. -/
theorem takeReading_zero {r : Reading} (hp : s.presence = false) (hr : r.weight = some 0) (ho : r.overload = false)
    (hl : r.lost = false) (ms : Nat)
    (hs : s.head.state = .stopped ∨ s.head.state = .empty ∨ (s.head.state = .held ∧
      (s.head.chest = none ∨ s.head.cause = some .chestLost ∨ s.head.cause = some .tareRange))) :
    s.head.takeReading s r ms = Eff.pure (s.head.noted r 0) := by
  rcases hs with hs | hs | ⟨hs, hc | hc | hc⟩
  · simp [Head.takeReading, hs, hr, Head.platformTest, Head.noted]
  · simp [Head.takeReading, hs, hr, Head.platformTest, Head.noted, Head.seesChest, hp]
  · simp [Head.takeReading, hs, hr, Head.noted, Head.doubleFault, ho, hl, hc]
  · simp [Head.takeReading, hs, hr, Head.noted, Head.doubleFault, ho, hl, hc]
  · simp [Head.takeReading, hs, hr, Head.noted, Head.doubleFault, ho, hl, hc]

/-- ZERO taken: the answer, then the reading as a job of the head. -/
theorem request_zero_taken {a w : Int} {r : Reading} (h : PortTakes s .head) (hw : s.working = true)
    (hz : s.zeroAnswer = (.ok, some (s.fe.zeroed a w))) (hr : r = readingOf s.fe (s.fe.zeroed a w) true)
    (ht : s.head.takeReading { s.answer 0x24#8 .ok [] with fe := s.fe.zeroed a w } r 0 = Eff.pure (s.head.noted r 0)) :
    s.request 0x24#8 .head (.good ()) (fun _ s => s.zero) =
      State.tryTransmit { s.answer 0x24#8 .ok [] with fe := s.fe.zeroed a w, head := s.head.noted r 0 } := by
  subst hr
  have hrole : s.cfg.roles.head = true := h.2.2.2.1
  have huser : (s.answer 0x24#8 .ok []).scaleUser = .head := by
    show (if s.cfg.roles.head = true then Block.head else Block.blend) = _
    rw [if_pos hrole]
  have hzero : s.zero = ({ s.answer 0x24#8 .ok [] with fe := s.fe.zeroed a w },
      [(.head, .reading (readingOf s.fe (s.fe.zeroed a w) true) 0)]) := by
    simp only [State.zero, hz, State.handReading, huser]
    rfl
  rw [request_good s _ _ _ _ h, hzero]
  exact settle_one _ _ _ _
    (job_head (s := { s.answer 0x24#8 .ok [] with fe := s.fe.zeroed a w }) (by exact hw) (by exact hrole)
      (by exact ht) (by exact perform_nil _)) h.2.2.2.2.2

end

/-- Settles O38. -/
theorem headStartStopZero : Obligations.HeadStartStopZero := by
  intro s h
  refine ⟨fun hs ha => ?_, fun hs => ?_, fun hs => ?_, fun he hs => ?_, fun hz => ?_,
    fun a w hw hp hs ho hl hst ha hwt => ?_⟩
  · exact next_eq (request_head h (start_taken hs ha) rfl rfl)
  · exact next_eq (request_head_same h (start_refused hs))
  · exact next_eq (request_head h (stop_taken hs) rfl rfl)
  · exact next_eq (request_head_same h (stop_refused he hs))
  · exact next_eq (request_zero_same h (zeroAnswer_refused hz))
  · have hshown : ZeroShown s a w :=
      ⟨hp, hs.imp_right (Or.imp_right And.left), ho, hl, hst, ha, hwt⟩
    have hz := zeroAnswer_shown hshown
    refine ⟨fun hr => ?_, fun h1 h2 => ?_⟩
    · exact next_eq (request_zero_same h (hz.trans (if_pos hr)))
    · have hin : ¬ (w < -2000 ∨ w > 2000) := by omega
      refine ⟨readingOf s.fe (s.fe.zeroed a w) true, rfl, hst, rfl, ?_⟩
      refine next_eq (request_zero_taken h hw (hz.trans (if_neg hin)) rfl ?_)
      exact takeReading_zero (s := { s.answer 0x24#8 .ok [] with fe := s.fe.zeroed a w }) hp rfl ho hl 0 hs


/-! ### CLEAR and RESET HEAD (O39) -/

section
variable {s : State} {h : Head} {c : ChestNow} {n : Nat}

theorem clearRetry_refused (hs : h.state ≠ .held) : h.clearRetry s = (.state, Eff.pure h) := by
  simp [Head.clearRetry, hs]

theorem clearVoid_refused (hs : h.state ≠ .held) : h.clearVoid s = (.state, Eff.pure h) := by
  simp [Head.clearVoid, hs]

theorem clearRetry_settles (hs : h.state = .held) (hc : h.cause = some .overLimit ∨ h.cause = some .unstable) :
    h.clearRetry s = (.ok, Eff.pure h.settleOnly) := by
  rcases hc with hc | hc <;> simp [Head.clearRetry, hs, hc]

theorem clearVoid_voids (hs : h.state = .held) (hc : h.cause = some .overLimit ∨ h.cause = some .unstable) :
    h.clearVoid s = (.ok, h.voidChest s) := by
  rcases hc with hc | hc <;> simp [Head.clearVoid, hs, hc]

theorem clearRetry_sends (hs : h.state = .held) (hc : h.cause = some .send) :
    h.clearRetry s = (.ok, h.sendAgain s) := by
  simp [Head.clearRetry, hs, hc]

theorem clearVoid_unasked (hs : h.state = .held) (hc : h.cause = some .send) (hf : h.sendFrame = some .askFill) :
    h.clearVoid s = (.ok, h.voidChest s) := by
  simp [Head.clearVoid, hs, hc, hf]

theorem clearVoid_reporting (hs : h.state = .held) (hc : h.cause = some .send) (hf : h.sendFrame = some .chestDone) :
    h.clearVoid s = (.state, Eff.pure h) := by
  simp [Head.clearVoid, hs, hc, hf]

theorem reset_refused (h1 : h.state ≠ .held) (h2 : h.state ≠ .locked) : h.reset s = (.state, Eff.pure h) := by
  simp [Head.reset, h1, h2]

theorem reset_voids (hs : h.state = .held ∨ h.state = .locked) (hc : h.chest = some c) :
    h.reset s = (.ok, h.voidChest s) := by
  rcases hs with hs | hs <;> simp [Head.reset, hs, hc]

theorem voidChest_booked (hc : h.chest = some c) (hn : c.inv = some n) :
    h.voidChest s = h.openVoid s c n (h.voidNet c) := by
  simp [Head.voidChest, hc, hn]

theorem voidChest_unbooked (hc : h.chest = some c) (hn : c.inv = none) : h.voidChest s = h.voidUnbooked := by
  simp [Head.voidChest, hc, hn]

/-- The head VOIDING a chest with a booked net (R118). -/
def Head.voidingChest (h : Head) (c : ChestNow) (net : Nat) : Head :=
  { h with state := .voiding, lease := .none, cause := none, sendFrame := none, refusedVoid := false,
           waitOwner := false, waitJoin := false, voidOk := false, emptied := false,
           chest := some { c with voided := some net } }

theorem openVoid_eq (hc : h.chest = some c) (n net : Nat) :
    h.openVoid s c n net = Eff.mk' (h.voidingChest c net)
      [.openEx (.fillVoid n c.token) (.fillVoid { inv := n, token := c.token, net := net }) (s.reportTo n)
        (s.reportTo n) false] := by
  simp [Head.openVoid, Head.setChest, Head.voidingChest, hc]

theorem settleOnly_eq (hc : h.chest = some c) :
    h.settleOnly = { h with state := .settling, lease := .none, cause := none, sendFrame := none, flight := .stopped,
                            settle := .running 4000, chest := some { c with lease := none } } := by
  simp [Head.settleOnly, Head.setChest, hc, Config.headSettle]

/-- The failed LEASE-ASK(FILL) goes out again, unless HOLD is in force (R107, R121). -/
theorem sendAgain_asks (hf : h.sendFrame = some .askFill) (hc : h.chest = some c) (hh : h.hold = false) :
    h.sendAgain s = Eff.mk' { h with state := .waiting, lease := .asked, cause := none, sendFrame := none,
                                     waitBlender := false, waitJoin := false }
      [.openEx (.leaseAsk c.token) (.leaseAsk { purpose := .fill, token := c.token, inv := 0 }) s.cfg.blender
        s.cfg.blender false] := by
  simp [Head.sendAgain, hf, Head.askFill, hc, hh]

theorem sendAgain_held (hf : h.sendFrame = some .askFill) (hc : h.chest = some c) (hh : h.hold = true) :
    h.sendAgain s = Eff.pure { h with state := .waiting, lease := .none, cause := none, sendFrame := none } := by
  simp [Head.sendAgain, hf, Head.askFill, hc, hh]

theorem sendAgain_reports (hf : h.sendFrame = some .chestDone) (hc : h.chest = some c) (hn : c.inv = some n) :
    h.sendAgain s = Eff.mk' { h with state := .reported, cause := none, sendFrame := none, waitOwner := false,
                                     waitJoin := false }
      [.openEx (.chestDone n c.token)
        (.chestDone { inv := n, token := c.token, gross := c.gross.getD 0, tare := c.tare, net := c.net.getD 0,
                      topups := c.topups, cls := c.cls.getD .full, flightLong := c.flightLong })
        (s.reportTo n) (s.reportTo n) (c.cls == some .short)] := by
  have hshort : (c.cls.getD .full == .short) = (c.cls == some .short) := by cases c.cls <;> rfl
  simp [Head.sendAgain, hf, Head.openReport, hc, hn, hshort]

/-- A request of the head that opens an exchange. -/
theorem request_head_opens {α : Type} {a : α} {k : Byte} {x : PortAnswer} {b : Head} {y : ExKey} {m : Msg} {d p : Nat}
    {l : Bool} {g : α → State → PortAnswer × Eff Head} (h : PortTakes s .head) (hw : s.canSend = true) (hr : ExRoom s y)
    (ho : b.owedDone = s.head.owedDone) (hg : g a s = (x, Eff.mk' b [.openEx y m d p l])) :
    s.request k .head (.good a) (fun a s => s.portHead k (g a s)) =
      State.tryTransmit { (s.answer k x []).opens y m d p l with head := b } :=
  request_head h hg ho (by exact perform_open _ _ _ _ _ _ hw hr)

end

/-- Settles O39. -/
theorem headClears : Obligations.HeadClears := by
  intro s h
  refine ⟨fun hs => ⟨?_, ?_⟩, fun c hs hk hc => ?_, fun c n hw hs hk hc hn hr => ?_,
    fun c hs hk hf hc hn => ⟨?_, fun hw hh hr => ?_, fun hh => ?_⟩,
    fun c n hs hk hf hc hn => ⟨?_, fun hw hr => ?_⟩, fun h1 h2 => ?_, fun c n hw hs hc hn hr => ?_⟩
  · exact next_eq (request_head_same h (clearRetry_refused hs))
  · exact next_eq (request_head_same h (clearVoid_refused hs))
  · have hg := (clearRetry_settles (s := s) hs hk).trans (by rw [settleOnly_eq hc])
    exact next_eq (request_head h hg rfl rfl)
  · have hg := (clearVoid_voids (s := s) hs hk).trans (by rw [voidChest_booked hc hn, openVoid_eq hc])
    exact next_eq (request_head_opens h hw hr rfl hg)
  · have hg := (clearVoid_unasked (s := s) hs hk hf).trans (by rw [voidChest_unbooked hc hn])
    exact next_eq (request_head h hg rfl rfl)
  · have hg := (clearRetry_sends (s := s) hs hk).trans (by rw [sendAgain_asks hf hc hh])
    exact next_eq (request_head_opens h hw hr rfl hg)
  · have hg := (clearRetry_sends (s := s) hs hk).trans (by rw [sendAgain_held hf hc hh])
    exact next_eq (request_head h hg rfl rfl)
  · exact next_eq (request_head_same h (clearVoid_reporting hs hk hf))
  · have hg := (clearRetry_sends (s := s) hs hk).trans (by rw [sendAgain_reports hf hc hn])
    exact next_eq (request_head_opens h hw hr rfl hg)
  · exact next_eq (request_head_same h (reset_refused h1 h2))
  · have hg := (reset_voids (s := s) hs hc).trans (by rw [voidChest_booked hc hn, openVoid_eq hc])
    exact next_eq (request_head_opens h hw hr rfl hg)

end Sys2Proof.Machine

/-! ### Inputs and timers of the head (O37) -/

namespace Sys2Proof.Machine

section
variable {s t : State} {x : Eff Head} {g : State → Eff Head}

/-- The actions of the head raise no job: nothing stays owed. -/
theorem owed_of_perform {l : List Act} {q : Jobs} (hp : s.perform l = (t, q)) (ho : s.head.owedDone = []) :
    t.head.owedDone = [] := by
  have := perform_head l s
  rw [hp] at this
  exact (congrArg Head.owedDone this).trans ho

/-- A timer of the head whose actions raise no job. -/
theorem head_done (h : Ready s) (hr : s.cfg.roles.head = true) (hg : g s = x)
    (ho : x.st.owedDone = s.head.owedDone)
    (hp : ({ s with head := x.st } : State).perform x.acts = (t, [])) :
    (Host.Outcome.next (s.actAs .head (fun s => s.runHead (g s))) : Res) = .next t.tryTransmit := by
  refine next_eq (actAs_done (canSend_working h.1) hr ?_ (owed_of_perform hp (by exact ho.trans h.2)))
  rw [hg, ← hp]
  rfl

/-- A job of the head alone, at the end of a command. -/
theorem settle_head {e : Ev} (hw : s.working = true) (hr : s.cfg.roles.head = true) (hb : takeHead s e = x)
    (hp : ({ s with head := x.st } : State).perform x.acts = (t, [])) (ho : x.st.owedDone = []) :
    State.settle (s, [(.head, e)]) = t.tryTransmit :=
  settle_one _ _ _ _ (job_head hw hr hb hp) (owed_of_perform hp ho)

/-- A sample at a head: the front end takes the count, the head controller the reading. -/
theorem sample_head {word : BitVec 32} {bits ms : Nat} {c : Int} {f : FrontEnd} {z : Bool} (h : Ready s)
    (hr : s.cfg.roles.head = true) (hc : sampleCount word bits = some c) (hf : s.fe.accept s.cfg true c = (f, z))
    (hb : s.head.takeReading { s with fe := f } (readingOf s.fe f z) ms = x)
    (hp : ({ s with fe := f, head := x.st } : State).perform x.acts = (t, []))
    (ho : x.st.owedDone = s.head.owedDone) : exec (.sample word bits ms) s = .next t.tryTransmit := by
  have hw := canSend_working h.1
  have hweighs : s.weighs = true := by simp [State.weighs, hw, hr]
  have huser : s.scaleUser = .head := by simp [State.scaleUser, hr]
  have hsample : s.sample word bits ms = ({ s with fe := f }, [(.head, .reading (readingOf s.fe f z) ms)]) := by
    simp [State.sample, hweighs, hc, hr, hf, State.handReading, huser]
  refine next_eq ?_
  rw [act_working s _ hw, hsample]
  exact settle_head (s := { s with fe := f }) hw hr hb hp (ho.trans h.2)

end

section
variable {s : State} {h : Head} {c : ChestNow}

/-- A chest seen from EMPTY: the head begins to tare (R105). -/
theorem takePresence_seen {w : Int} (hs : h.state = .empty) (hp : s.presence = true) (hw : h.weight = some w)
    (hl : (s.cfg.headEmpty : Int) < w) :
    h.takePresence s = Eff.mk' { h with state := .taring } [.track false] := by
  simp [Head.takePresence, hs, Head.platformTest, Head.seesChest, hp, hw, hl]

/-- HOLD lapses where no head waits for it (R107). -/
theorem lapseExpired_quiet (ht : h.lapse.on = true) (hs : h.state ≠ .waiting ∨ h.lease ≠ .none) :
    h.lapseExpired s = Eff.pure { h with hold := false, lapse := .stopped } := by
  rcases hs with hs | hs <;> simp [Head.lapseExpired, Head.endHold, ht, hs]

/-- HOLD lapses and the head it kept waiting asks (R107). -/
theorem lapseExpired_asks (ht : h.lapse.on = true) (hh : h.hold = true) (hs : h.state = .waiting) (hl : h.lease = .none)
    (hc : h.chest = some c) :
    h.lapseExpired s = Eff.mk' { h with hold := false, lapse := .stopped, lease := .asked, waitBlender := false,
                                        waitJoin := false }
      [.openEx (.leaseAsk c.token) (.leaseAsk { purpose := .fill, token := c.token, inv := 0 }) s.cfg.blender
        s.cfg.blender false] := by
  simp [Head.lapseExpired, Head.endHold, ht, hs, hh, hl, Head.askFill, hc]

/-- A chest that does not settle: HELD, its flight unmeasured where its flight timer still ran (R112, R120). -/
theorem settleExpired_held (hs : h.state = .settling) (ht : h.settle.on = true) (hl : h.lease = .none)
    (hc : h.chest = some c) :
    h.settleExpired s = Eff.mk' { h with
        state := .held, cause := some .unstable, flight := .stopped, settle := .stopped, sendFrame := none,
        refusedVoid := false, waitOwner := false, waitBlender := false, waitJoin := false,
        chest := some { c with flightLong := true, lease := none, flight := if h.flight.on then none else c.flight } }
      [.track false, .report (Report.of .headFault c.inv none none (.code .unstable))] := by
  simp [Head.settleExpired, hs, ht, Head.fault, Head.faultWith, Head.setChest, Head.giveUp, hc, hl, Head.chestInv,
    faultCode]

end

/-! ### A sample at a head in EMPTY and TARING -/

/-- A sample that re-takes the zero: the weight is 0, stable, with neither overload nor loss (R59). -/
theorem accept_zero_taken {f g : FrontEnd} {cfg : Cfg} {b : Bool} {k : Int} (h : f.accept cfg b k = (g, true)) :
    g.weight = some 0 ∧ g.stable = true ∧ g.overload = false ∧ g.lost = false := by
  simp only [FrontEnd.accept] at h
  split at h
  · cases h
  · simp only [FrontEnd.join] at h
    split at h
    · cases h
    · split at h
      · next ht =>
        obtain ⟨rfl, -⟩ := Prod.mk.inj h
        simp only [FrontEnd.tracks, Bool.and_eq_true, Bool.not_eq_true'] at ht
        obtain ⟨⟨⟨⟨⟨-, hst⟩, hov⟩, hlo⟩, -⟩, -⟩ := ht
        exact ⟨rfl, hst, hov, hlo⟩
      · cases h

theorem readingOf_zero_taken {f g : FrontEnd} (hw : g.weight = some 0) (hs : g.stable = true) (ho : g.overload = false)
    (hl : g.lost = false) :
    readingOf f g true =
      { weight := some 0, stable := true, becameStable := !f.stable, becameUnstable := false, overload := false,
        overloadMark := f.overload, lost := false, lostMark := f.lost, zeroTaken := true } := by
  simp [readingOf, hw, hs, ho, hl]

section
variable {s : State} {h : Head} {r : Reading} {w : Int} {t : Nat}

/-- A weight of 0 shows no chest. -/
theorem takeReading_empty (hs : h.state = .empty) (hr : r.weight = some 0) (ms : Nat) :
    h.takeReading s r ms = Eff.pure (h.noted r 0) := by
  have hlow : ¬ (0 : Int) > (s.cfg.headEmpty : Int) := by omega
  simp [Head.takeReading, hs, hr, Head.platformTest, Head.seesChest, Head.weight, hlow, Head.noted]

/-- A stable weight of a chest in TARING is its tare (R106). -/
theorem takeReading_tares (hs : h.state = .taring) (hp : s.presence = true) (hr : r.weight = some w)
    (hst : r.stable = true) (hl : (s.cfg.headEmpty : Int) < w) (ms : Nat) :
    h.takeReading s r ms = (h.noted r w).tare s w := by
  simp [Head.takeReading, hs, hr, Head.platformEmpty, Head.seesChest, Head.weight, hp, hst, hl, Head.noted]

/-- The new token is the next one, or the one after it where the next one is in use (R106). -/
theorem newToken_eq (ht : t = (if s.tokenUsed ((h.lastToken + 1) % 256) then (h.lastToken + 2) % 256
      else (h.lastToken + 1) % 256)) (hu : s.tokenUsed t = false) : h.newToken s = t := by
  have htwo : ((h.lastToken + 1) % 256 + 1) % 256 = (h.lastToken + 2) % 256 := by omega
  subst ht
  rw [Head.newToken]
  by_cases h1 : s.tokenUsed ((h.lastToken + 1) % 256) = true
  · rw [if_pos h1] at hu ⊢
    simp [State.findToken, h1, htwo, hu]
  · rw [if_neg h1]
    simp [State.findToken, h1]

/-- The chest of a tare just taken (R106). -/
def newChest (c : Cfg) (t : Nat) (w : Int) : ChestNow :=
  { token := t, inv := none, tare := (max 0 (min 65535 w)).toNat, gross := none, net := none, topups := 0,
    limit := c.topups, starved := false, flight := none, flightLong := false, cls := none, lease := none,
    purpose := .fill, voided := none }

theorem tare_taken (hw : inTareWindow (s.gradeRec h.refGrade) w = true) (ht : h.newToken s = t) :
    h.tare s w =
      ({ h with state := .waiting, chest := some (newChest s.cfg t w), lastToken := t } : Head).askFill s := by
  rw [Head.tare, if_pos hw, ht]
  rfl

theorem tare_asks (hw : inTareWindow (s.gradeRec h.refGrade) w = true) (ht : h.newToken s = t) (hh : h.hold = false) :
    h.tare s w = Eff.mk' { h with state := .waiting, chest := some (newChest s.cfg t w), lastToken := t, lease := .asked,
                                  waitBlender := false, waitJoin := false }
      [.openEx (.leaseAsk t) (.leaseAsk { purpose := .fill, token := t, inv := 0 }) s.cfg.blender s.cfg.blender false] := by
  simp [tare_taken hw ht, Head.askFill, hh, newChest]

theorem tare_held (hw : inTareWindow (s.gradeRec h.refGrade) w = true) (ht : h.newToken s = t) (hh : h.hold = true) :
    h.tare s w = Eff.pure { h with state := .waiting, chest := some (newChest s.cfg t w), lastToken := t,
                                   lease := .none } := by
  simp [tare_taken hw ht, Head.askFill, hh]

theorem tare_range (hw : inTareWindow (s.gradeRec h.refGrade) w = false) (hc : h.chest = none)
    (hf : h.flight = .stopped) :
    h.tare s w = Eff.mk' { h with state := .held, lease := .none, cause := some .tareRange, settle := .stopped,
                                  sendFrame := none, refusedVoid := false, waitOwner := false, waitBlender := false,
                                  waitJoin := false }
      [.track false, .report (Report.of .headFault none none none (.code .tareRange))] := by
  simp [Head.tare, hw, Head.fault, Head.faultWith, Head.setChest, Head.giveUp, hc, hf, Head.chestInv, faultCode]

end

/-- The level of the presence input is kept by a station that does not work, and the same level is no event (log 3). -/
theorem presence_kept {s : State} (p : Bool) (hw : s.working = false) :
    exec (.chestPresenceChange p) s = .next { s with presence := p } := by
  show (if s.presence = p then (Host.Outcome.next s : Res) else .next (({ s with presence := p } : State).actAs .head _)) = _
  by_cases hp : s.presence = p
  · rw [if_pos hp, ← hp]
  · rw [if_neg hp]
    exact next_eq (if_neg (by rw [show ({ s with presence := p } : State).working = s.working from rfl, hw]; decide))

/-- The change of the presence input at a working head. -/
theorem presence_changes {s t : State} {x : Eff Head} {p : Bool} (h : Ready s) (hr : s.cfg.roles.head = true)
    (hp : s.presence ≠ p) (hb : s.head.takePresence { s with presence := p } = x)
    (ha : ({ s with presence := p, head := x.st } : State).perform x.acts = (t, []))
    (ho : x.st.owedDone = s.head.owedDone) : exec (.chestPresenceChange p) s = .next t.tryTransmit := by
  show (if s.presence = p then (Host.Outcome.next s : Res) else .next (({ s with presence := p } : State).actAs .head _)) = _
  rw [if_neg hp]
  refine next_eq ((act_working { s with presence := p } _ (canSend_working h.1)).trans ?_)
  refine (congrArg State.settle (if_pos (by exact hr))).trans ?_
  exact settle_head (s := { s with presence := p }) (canSend_working h.1) hr hb ha (ho.trans h.2)

/-- Settles O37. -/
theorem headInputsAndTimers : Obligations.HeadInputsAndTimers := by
  intro s
  refine ⟨if_pos rfl, fun p hw => presence_kept p hw, fun w h hr hp hs hw hl => ?_, fun h hr ht hs => ?_,
    fun c h hr ht hh hs hl hc hroom => ?_, fun word bits ms k f h hr hs hk hf => ?_,
    fun word bits ms t k w f z h hr hs hp hk hf hw hst hl ht hu => ?_, fun c h hr hs ht hl hc => ?_⟩
  · exact presence_changes h hr (by simp [hp])
      (takePresence_seen (s := { s with presence := true }) hs rfl hw hl) rfl rfl
  · exact head_done h hr (g := fun s => s.head.lapseExpired s) (lapseExpired_quiet ht hs) rfl rfl
  · exact head_done h hr (g := fun s => s.head.lapseExpired s) (lapseExpired_asks ht hh hs hl hc) rfl
      (by exact perform_open _ _ _ _ _ _ h.1 hroom)
  · obtain ⟨hw, hst, hov, hlo⟩ := accept_zero_taken hf
    rw [sample_head h hr hk hf (takeReading_empty (s := { s with fe := f }) hs hw ms) rfl rfl, ← readingOf_zero_taken hw hst hov hlo]
    rfl
  · have hread := takeReading_tares (s := { s with fe := f }) (r := readingOf s.fe f z) hs hp hw hst hl ms
    have htok : (s.head.noted (readingOf s.fe f z) w).newToken { s with fe := f } = t := newToken_eq (by exact ht) (by exact hu)
    refine ⟨fun hin hh hroom => ?_, fun hin hh => ?_, fun hin hc hfl => ?_⟩
    · exact sample_head h hr hk hf (hread.trans (tare_asks (by exact hin) htok (by exact hh)))
        (by exact perform_open _ _ _ _ _ _ h.1 hroom) rfl
    · exact sample_head h hr hk hf (hread.trans (tare_held (by exact hin) htok (by exact hh))) rfl rfl
    · exact sample_head h hr hk hf (hread.trans (tare_range (by exact hin) (by exact hc) (by exact hfl))) rfl rfl
  · exact head_done h hr (g := fun s => s.head.settleExpired s) (settleExpired_held hs ht hl hc) rfl rfl

end Sys2Proof.Machine

/-! ## The head's readings with a weight (O43) -/

namespace Sys2Proof.Machine

section
variable {s : State} {h : Head} {r : Reading} {c : ChestNow} {w : Int} {ms : Nat}

/-- A reading with a weight and without OVERLOAD or SCALE_LOST feeds on in FAST and DRIBBLE (R111). -/
theorem takeReading_feeds (hs : h.state = .fast ∨ h.state = .dribble) (ho : r.overload = false) (hl : r.lost = false)
    (hr : r.weight = some w) (ms : Nat) : h.takeReading s r ms = (h.noted r w).feed s w := by
  rcases hs with hs | hs <;> simp [Head.takeReading, hs, ho, hl, hr, Head.noted]

/-- A stable one weighs the chest in SETTLING (R112). -/
theorem takeReading_weighs (hs : h.state = .settling) (ho : r.overload = false) (hl : r.lost = false)
    (hr : r.weight = some w) (hst : r.stable = true) (ms : Nat) :
    h.takeReading s r ms = (h.noted r w).settled s w ms := by
  simp [Head.takeReading, hs, ho, hl, hr, hst, Head.noted]

/-! ### Feeding (R111) -/

section
variable (hc : h.chest = some c)
include hc

theorem feed_on (hcut : w - c.tare < cutoffPoint (h.grade s) h.allowance c.purpose)
    (hd : h.state ≠ .fast ∨ w - c.tare < dribblePoint (h.grade s) s.cfg.dribble) : h.feed s w = Eff.pure h := by
  have hopen : ¬ w - c.tare ≥ cutoffPoint (h.grade s) h.allowance c.purpose := by omega
  have hslow : (h.state == .fast && decide (w - c.tare ≥ dribblePoint (h.grade s) s.cfg.dribble)) = false := by
    rcases hd with hd | hd
    · simp [hd]
    · rw [decide_eq_false (by omega), Bool.and_false]
  simp [Head.feed, hc, hopen, hslow]

theorem feed_dribbles (hs : h.state = .fast) (hcut : w - c.tare < cutoffPoint (h.grade s) h.allowance c.purpose)
    (hd : dribblePoint (h.grade s) s.cfg.dribble ≤ w - c.tare) :
    h.feed s w = Eff.pure { h with state := .dribble } := by
  have hopen : ¬ w - c.tare ≥ cutoffPoint (h.grade s) h.allowance c.purpose := by omega
  simp [Head.feed, hc, hopen, hs, hd]

theorem feed_cuts (hcut : cutoffPoint (h.grade s) h.allowance c.purpose ≤ w - c.tare) :
    h.feed s w = Eff.mk' { h with state := .settling, lease := .none, flight := .running 0, settle := .running 4000,
                                  chest := some { c with flight := none, lease := none } }
      [openDone s (c.lease.getD 0)] := by
  simp [Head.feed, hc, hcut, Head.toSettling, Head.setChest, Config.headSettle]

end

/-! ### The weighing and its check (R112 to R118) -/

/-- The chest with its weights and the measured flight (R112). -/
def ChestNow.weighed (c : ChestNow) (w : Int) (ms : Nat) : ChestNow :=
  { c with flight := some ms, flightLong := c.flightLong || decide (1500 < ms), gross := some (chestWeight w),
           net := some (chestWeight (w - c.tare)) }

/-- The head with that chest, its timers stopped. -/
def Head.weighed (h : Head) (c : ChestNow) (w : Int) (ms : Nat) : Head :=
  { h with flight := .stopped, settle := .stopped, chest := some (c.weighed w ms) }

theorem settled_checks (hc : h.chest = some c) (hf : h.flight.on = true) :
    h.settled s w ms = (h.weighed c w ms).check s (c.weighed w ms) := by
  simp [Head.settled, hc, hf, Head.weighed, ChestNow.weighed, Config.flightLong]

/-- The grade of a chest is that of its invoice, which the weighing leaves. -/
theorem grade_weighed (hc : h.chest = some c) (s : State) : (h.weighed c w ms).grade s = h.grade s := by
  simp [Head.grade, Head.gradeIndex, Head.weighed, ChestNow.weighed, hc]

section
variable {m n : Nat} (hc : h.chest = some c) (hm : c.net = some m)
include hm

theorem check_over (hup : upperLimit (h.grade s) < m) : h.check s c = h.fault s .overLimit := by
  simp [Head.check, hm, hup]

theorem check_full (hlow : lowerLimit (h.grade s) ≤ m) (hup : (m : Int) ≤ upperLimit (h.grade s)) :
    h.check s c = (({ h with
      allowance :=
        if c.topups = 0 ∧ c.starved = false ∧ c.flightLong = false then
          learned h.allowance s.cfg.dribble m (h.grade s).target
        else h.allowance } : Head).setChest (fun c => { c with cls := some .full })).openReport s := by
  have hover : ¬ (m : Int) > upperLimit (h.grade s) := by omega
  simp only [Head.check, hm, Option.getD_some, hover, hlow, if_false, if_true]
  split <;> rfl

section
variable (hlow : (m : Int) < lowerLimit (h.grade s)) (hup : (m : Int) ≤ upperLimit (h.grade s))
include hlow hup

theorem check_short (hk : c.starved = true) (hs : ((h.grade s).shortMin : Int) ≤ m) :
    h.check s c = (h.setChest (fun c => { c with cls := some .short })).openReport s := by
  simp [Head.check, hm, Int.not_lt.2 hup, Int.not_le.2 hlow, hk, hs]

theorem check_voids (hk : c.starved = true) (hs : (m : Int) < (h.grade s).shortMin) :
    h.check s c = h.voidChest s := by
  simp [Head.check, hm, Int.not_lt.2 hup, Int.not_le.2 hlow, hk, Int.not_le.2 hs]

theorem check_tops (hk : c.starved = false) (ht : c.topups < c.limit) : h.check s c = h.askTopup s := by
  simp [Head.check, hm, Int.not_lt.2 hup, Int.not_le.2 hlow, hk, ht]

theorem check_under (hk : c.starved = false) (ht : c.limit ≤ c.topups) : h.check s c = h.fault s .underLimit := by
  simp [Head.check, hm, Int.not_lt.2 hup, Int.not_le.2 hlow, hk, Nat.not_lt.2 ht]

end

end

/-- Below the lower limit is not above the upper one. -/
theorem le_upper_of_lt_lower {g : Grade} {x : Int} (h : x < lowerLimit g) : x ≤ upperLimit g := by
  unfold lowerLimit at h
  unfold upperLimit
  omega

/-! ### What the checks lead to -/

/-- The fault of a weighed chest: its flight is measured, and no lease is held (R120). -/
theorem fault_weighed {k : HeadFault} (hs : h.state = .settling) (hl : h.lease = .none) :
    (h.weighed c w ms).fault s k = Eff.mk' { h with
        state := .held, cause := some k, flight := .stopped, settle := .stopped, sendFrame := none,
        refusedVoid := false, waitOwner := false, waitBlender := false, waitJoin := false,
        chest := some { c.weighed w ms with lease := none } }
      [.track false, .report (Report.of .headFault c.inv none none (.code (faultCode k)))] := by
  simp [Head.fault, Head.faultWith, Head.weighed, Head.setChest, Head.giveUp, hs, hl, Head.chestInv, ChestNow.weighed, Timer.on]

/-- The report of a weighed chest with its class (R117). -/
theorem openReport_classed {n : Nat} {b : Head} {k : ChestClass} (hc : b.chest = some c) (hn : c.inv = some n) :
    (b.setChest (fun c => { c with cls := some k })).openReport s =
      Eff.mk' { b with state := .reported, cause := none, sendFrame := none, waitOwner := false, waitJoin := false,
                       chest := some { c with cls := some k } }
        [.openEx (.chestDone n c.token)
          (.chestDone { inv := n, token := c.token, gross := c.gross.getD 0, tare := c.tare, net := c.net.getD 0,
                        topups := c.topups, cls := k, flightLong := c.flightLong })
          (s.reportTo n) (s.reportTo n) (k == .short)] := by
  simp [Head.setChest, Head.openReport, hc, hn]

theorem askTopup_asks {n : Nat} {b : Head} (hc : b.chest = some c) (hn : c.inv = some n) :
    b.askTopup s = Eff.mk' { b with state := .topupWait, lease := .topupAsked, cause := none, sendFrame := none }
      [.openEx (.leaseAsk c.token) (.leaseAsk { purpose := .topup, token := c.token, inv := n }) s.cfg.blender
        s.cfg.blender false] := by
  simp [Head.askTopup, hc, hn]

/-- What a clean chest teaches, in the terms of the chest before its weighing (R113). -/
theorem clean_weighed : (c.weighed w ms).flightLong = false ↔ c.flightLong = false ∧ ms ≤ 1500 := by
  simp [ChestNow.weighed]

end

/-- A sample that opens an exchange. -/
theorem sample_opens {s : State} {word : BitVec 32} {bits ms d p : Nat} {c : Int} {f : FrontEnd} {z l : Bool} {b : Head}
    {y : ExKey} {m : Msg} (h : Ready s) (hr : s.cfg.roles.head = true) (hc : sampleCount word bits = some c)
    (hf : s.fe.accept s.cfg true c = (f, z)) (hroom : ExRoom s y)
    (hb : s.head.takeReading { s with fe := f } (readingOf s.fe f z) ms = Eff.mk' b [.openEx y m d p l])
    (ho : b.owedDone = s.head.owedDone) :
    exec (.sample word bits ms) s = .next (State.tryTransmit { s.opens y m d p l with fe := f, head := b }) :=
  sample_head h hr hc hf hb (by exact perform_open _ _ _ _ _ _ h.1 hroom) ho

/-- Settles O43, by the head's state and the side of each limit that the net lies on. -/
theorem headWeighs : Obligations.HeadWeighs := by
  intro s word bits ms c w f z ch h hr hk hf hw ho hl hc
  have feeds (hs : s.head.state = .fast ∨ s.head.state = .dribble) :=
    takeReading_feeds (s := { s with fe := f }) (r := readingOf s.fe f z) hs ho hl hw ms
  have weighs (hs : s.head.state = .settling) (hst : f.stable = true) (hfl : s.head.flight.on = true) :
      s.head.takeReading { s with fe := f } (readingOf s.fe f z) ms =
        ((s.head.noted (readingOf s.fe f z) w).weighed ch w ms).check { s with fe := f } (ch.weighed w ms) :=
    (takeReading_weighs hs ho hl hw hst ms).trans (settled_checks (by exact hc) (by exact hfl))
  have hg : ((s.head.noted (readingOf s.fe f z) w).weighed ch w ms).grade { s with fe := f } = s.head.grade s :=
    grade_weighed (by exact hc) _
  refine ⟨fun hs hd hcut => ?_, fun hs hd hcut => ?_, fun hs hcut hroom => ?_, fun hs hst hfl hle hup => ?_,
    fun n hs hst hfl hn hlow hup hroom => ?_, fun n hs hst hfl hn hlow => ?_⟩
  · exact sample_head h hr hk hf ((feeds hs).trans (feed_on (by exact hc) (by exact hcut) (by exact hd))) rfl rfl
  · exact sample_head h hr hk hf ((feeds (.inl hs)).trans (feed_dribbles (by exact hc) (by exact hs) (by exact hcut) (by exact hd)))
      rfl rfl
  · exact sample_opens h hr hk hf hroom ((feeds hs).trans (feed_cuts (by exact hc) (by exact hcut))) rfl
  · exact sample_head h hr hk hf ((weighs hs hst hfl).trans ((check_over (c := ch.weighed w ms) rfl (by rw [hg]; exact hup)).trans
      (fault_weighed (by exact hs) (by exact hle)))) rfl rfl
  · have hcheck := (weighs hs hst hfl).trans ((check_full (c := ch.weighed w ms) rfl (by rw [hg]; exact hlow) (by rw [hg]; exact hup)).trans
      (openReport_classed (c := ch.weighed w ms) rfl hn))
    rw [hg] at hcheck
    refine (sample_opens h hr hk hf hroom hcheck rfl).trans ?_
    simp only [clean_weighed]
    rfl
  · have hup := le_upper_of_lt_lower hlow
    refine ⟨fun hv ht hroom => ?_, fun hv ht hle => ?_, fun hv hmin hroom => ?_, fun hv hmin hroom => ?_⟩
    · exact sample_opens h hr hk hf hroom ((weighs hs hst hfl).trans
        ((check_tops (c := ch.weighed w ms) rfl (by rw [hg]; exact hlow) (by rw [hg]; exact hup) hv ht).trans
          (askTopup_asks (c := ch.weighed w ms) rfl hn))) rfl
    · have hend := (weighs hs hst hfl).trans
        ((check_under (c := ch.weighed w ms) rfl (by rw [hg]; exact hlow) (by rw [hg]; exact hup) hv ht).trans (fault_weighed (by exact hs) (by exact hle)))
      rw [hn] at hend
      exact sample_head h hr hk hf hend rfl rfl
    · exact sample_opens h hr hk hf hroom ((weighs hs hst hfl).trans
        ((check_short (c := ch.weighed w ms) rfl (by rw [hg]; exact hlow) (by rw [hg]; exact hup) hv (by rw [hg]; exact hmin)).trans
          (openReport_classed (c := ch.weighed w ms) rfl hn))) rfl
    · exact sample_opens h hr hk hf hroom ((weighs hs hst hfl).trans
        ((check_voids (c := ch.weighed w ms) rfl (by rw [hg]; exact hlow) (by rw [hg]; exact hup) hv (by rw [hg]; exact hmin)).trans
          ((voidChest_booked (c := ch.weighed w ms) rfl hn).trans (openVoid_eq (c := ch.weighed w ms) rfl _ _)))) rfl

end Sys2Proof.Machine

/-! ## The port's tests, reading requests and memory transfers (O45 to O47) -/

namespace Sys2Proof.Machine

/-! ### The tests of a request (O45) -/

section
variable {s : State} {α : Type} {g : Group} {r : Req α} {k : Byte} {c : PortAnswer} {b : List Byte}
  {take : α → State → State × Jobs}

theorem portTest_check (h : Req.checked r = false) : s.portTest g r = .inl .check := by
  simp [State.portTest, State.portBusy, h]

theorem portTest_busy (h : Req.checked r = true) (hb : s.port.handling ≠ none ∨ s.start.state = .loading) :
    s.portTest g r = .inl .busy := by
  have hbusy : (s.port.handling.isSome || s.start.state == .loading) = true := by
    rcases hb with hb | hb
    · rw [Option.isSome_iff_ne_none.2 hb, Bool.true_or]
    · simp [hb]
  have htest : s.portBusy (Req.checked r) = some .busy := by rw [State.portBusy, h, hbusy]; rfl
  simp [State.portTest, htest]

section
variable (h1 : s.port.handling = none) (h2 : s.start.state ≠ .loading) (hc : Req.checked r = true)
include h1 h2 hc

theorem portBusy_free : s.portBusy (Req.checked r) = none := by
  simp [State.portBusy, hc, h1, h2]

theorem portTest_length (hl : Req.lengthy r = false) : s.portTest g r = .inl .range := by
  simp [State.portTest, portBusy_free h1 h2 hc, State.portRefuses, hl]

theorem portTest_role (hl : Req.lengthy r = true) (hr : g.allows s.cfg.roles = false) :
    s.portTest g r = .inl .role := by
  simp [State.portTest, portBusy_free h1 h2 hc, State.portRefuses, hl, hr]

theorem portTest_state (hl : Req.lengthy r = true) (hr : g.allows s.cfg.roles = true) (hg : g ≠ .all)
    (hs : s.start.state = .offlineConfig) : s.portTest g r = .inl .state := by
  simp [State.portTest, portBusy_free h1 h2 hc, State.portRefuses, hl, hr, hg, hs]

end

theorem portTest_value (h1 : s.port.handling = none) (h2 : s.start.state ≠ .loading) (hr : g.allows s.cfg.roles = true)
    (hg : g = .all ∨ s.start.state ≠ .offlineConfig) : s.portTest g (.badValue : Req α) = .inr none := by
  have hstate : (g != .all && s.start.state == .offlineConfig) = false := by rcases hg with h | h <;> simp [h]
  simp [State.portTest, State.portBusy, Req.checked, h1, h2, State.portRefuses, Req.lengthy, hr, hstate]

/-- A request that fails a test is answered, and nothing else (R174). -/
theorem portTake_fails (hl : s.start.resetLow = false) (ht : s.portTest g r = .inl c) :
    s.portTake k g r b take = (s.answer k c (if c == .range then b else []), []) := by
  simp [State.portTake, hl, ht]

theorem portTake_value (hl : s.start.resetLow = false) (ht : s.portTest g r = .inr none) :
    s.portTake k g r b take = (s.answer k .range b, []) := by
  simp [State.portTake, hl, ht]

theorem settle_answer (ho : s.head.owedDone = []) (k : Byte) (c : PortAnswer) (b : List Byte) :
    State.settle (s.answer k c b, []) = (s.answer k c b).tryTransmit := settle_nil _ ho

theorem request_fails (hl : s.start.resetLow = false) (ho : s.head.owedDone = []) (ht : s.portTest g r = .inl c) :
    s.request k g r take = (s.answer k c []).tryTransmit := by
  rw [State.request, portTake_fails hl ht, ite_self]
  exact settle_answer ho k c []

theorem request_value (hl : s.start.resetLow = false) (ho : s.head.owedDone = []) (ht : s.portTest g r = .inr none) :
    s.request k g r take = (s.answer k .range []).tryTransmit := by
  rw [State.request, portTake_value hl ht]
  exact settle_answer ho k .range []

end

theorem checked_iff {α : Type} (r : Req α) : Req.checked r = true ↔ r ≠ .badCheck := by cases r <;> simp [Req.checked]

theorem fill_checked {α : Type} (a : α) (r : Req Unit) : Req.checked (Req.fill a r) = Req.checked r := by cases r <;> rfl

/-- A row of the table of requests names a request of its kind and its group. -/
def PortRow.Runs (x : PortRow) : Prop :=
  ∃ (α : Type) (a : α) (take : α → State → State × Jobs),
    ∀ (r : Req Unit) (s : State), exec (x.cmd r) s = .next (s.request x.kind x.group (Req.fill a r) take)

theorem runs_fill {α : Type} {k : Byte} {g : Group} {cmd : Req Unit → Instr} (a : α) (take : α → State → State × Jobs)
    (h : ∀ (r : Req Unit) (s : State), exec (cmd r) s = .next (s.request k g (Req.fill a r) take)) :
    PortRow.Runs ⟨k, g, cmd⟩ := ⟨α, a, take, h⟩

theorem runs_plain {k : Byte} {g : Group} {cmd : Req Unit → Instr} (take : Unit → State → State × Jobs)
    (h : ∀ (r : Req Unit) (s : State), exec (cmd r) s = .next (s.request k g r take)) : PortRow.Runs ⟨k, g, cmd⟩ := by
  refine ⟨Unit, (), take, fun r s => (h r s).trans ?_⟩
  cases r <;> rfl

/-- Every row of the table is a request of its kind and group (R174, R189). -/
theorem portRows_run (a : InvoiceRead) (b : MemoryRead) (c : MemoryWrite) (n : Nat) (d : CarrySet) (f : ChestName)
    (g : Option Nat) : ∀ x ∈ portRows a b c n d f g, x.Runs := by
  simp only [portRows, List.cons_append, List.nil_append, List.forall_mem_cons, List.not_mem_nil, false_implies,
    implies_true, and_true]
  exact ⟨runs_plain _ fun _ _ => rfl, runs_plain _ fun _ _ => rfl, runs_fill a _ fun _ _ => rfl,
    runs_plain _ fun _ _ => rfl, runs_plain _ fun _ _ => rfl, runs_plain _ fun _ _ => rfl,
    runs_fill b _ fun _ _ => rfl, runs_fill c _ fun _ _ => rfl, runs_fill n _ fun _ _ => rfl,
    runs_plain _ fun _ _ => rfl, runs_plain _ fun _ _ => rfl, runs_fill n _ fun _ _ => rfl,
    runs_plain _ fun _ _ => rfl, runs_plain _ fun _ _ => rfl, runs_fill d _ fun _ _ => rfl,
    runs_plain _ fun _ _ => rfl, runs_plain _ fun _ _ => rfl, runs_plain _ fun _ _ => rfl,
    runs_plain _ fun _ _ => rfl, runs_plain _ fun _ _ => rfl, runs_plain _ fun _ _ => rfl,
    runs_fill n _ fun _ _ => rfl, runs_fill n _ fun _ _ => rfl, runs_fill n _ fun _ _ => rfl,
    runs_fill f _ fun _ _ => rfl, runs_fill n _ fun _ _ => rfl, runs_fill g _ fun _ _ => rfl,
    runs_fill n _ fun _ _ => rfl, runs_plain _ fun _ _ => rfl⟩

/-- The tests of one row of the table (R174). -/
theorem row_tests {s : State} {x : PortRow} (hl : s.start.resetLow = false) (ho : s.head.owedDone = []) (hx : x.Runs) :
    exec (x.cmd .badCheck) s = .next (State.tryTransmit (s.answer x.kind .check [])) ∧
    (∀ r : Req Unit, r ≠ .badCheck → (s.port.handling ≠ none ∨ s.start.state = .loading) →
      exec (x.cmd r) s = .next (State.tryTransmit (s.answer x.kind .busy []))) ∧
    (s.port.handling = none → s.start.state ≠ .loading →
      exec (x.cmd .badLength) s = .next (State.tryTransmit (s.answer x.kind .range [])) ∧
      (x.group.allows s.cfg.roles = false →
        exec (x.cmd (.good ())) s = .next (State.tryTransmit (s.answer x.kind .role []))) ∧
      (x.group.allows s.cfg.roles = true → x.group ≠ .all → s.start.state = .offlineConfig →
        exec (x.cmd (.good ())) s = .next (State.tryTransmit (s.answer x.kind .state []))) ∧
      (x.group.allows s.cfg.roles = true → (x.group = .all ∨ s.start.state ≠ .offlineConfig) →
        exec (x.cmd .badValue) s = .next (State.tryTransmit (s.answer x.kind .range [])))) := by
  obtain ⟨α, a, take, hrun⟩ := hx
  have fails {r : Req Unit} {c : PortAnswer} (ht : s.portTest x.group (Req.fill a r) = .inl c) :
      exec (x.cmd r) s = .next (State.tryTransmit (s.answer x.kind c [])) :=
    (hrun r s).trans (next_eq (request_fails hl ho ht))
  refine ⟨fails (portTest_check rfl), fun r hr hb => fails (portTest_busy ?_ hb), fun h1 h2 =>
    ⟨fails (portTest_length h1 h2 rfl rfl), fun hr => fails (portTest_role h1 h2 rfl rfl hr),
      fun hr hg hs => fails (portTest_state h1 h2 rfl rfl hr hg hs), fun hr hg => ?_⟩⟩
  · rw [fill_checked]
    exact (checked_iff r).2 hr
  · exact (hrun .badValue s).trans (next_eq (request_value hl ho (portTest_value h1 h2 hr hg)))

/-- The tests of PLACE ORDER, whose RANGE answers have a body (R174, R189). -/
theorem placeOrder_fails {s : State} {r : Req OrderBody} {c : PortAnswer} (hl : s.start.resetLow = false)
    (ho : s.head.owedDone = []) (ht : s.portTest .blend r = .inl c) :
    exec (.placeOrder r) s = .next (State.tryTransmit (s.answer 0x10#8 c (if c == .range then [0#8] else []))) := by
  refine next_eq ?_
  rw [portTake_fails hl ht]
  exact settle_answer ho _ _ _

/-- Settles O45, by the test that fails first. -/
theorem portTests : Obligations.PortTests := by
  intro s hl
  refine ⟨fun k l => ?_, ⟨Config.abortedKind s.draws, ?_⟩, fun k => ?_, fun k hb => ?_, fun k h1 h2 => ?_, fun ho => ?_,
    fun a b c n d f g x ho hx => row_tests hl ho (portRows_run a b c n d f g x hx)⟩
  · exact next_eq (if_neg (by simp [hl]))
  · exact next_eq (if_neg (by simp [hl]))
  · refine next_eq ((if_neg (by simp [hl])).trans ?_)
    rfl
  · have hbusy : s.portBusy true = some .busy := by rcases hb with hb | hb <;> simp [State.portBusy, hb]
    refine next_eq ((if_neg (by simp [hl])).trans ?_)
    rw [hbusy]
    rfl
  · have hfree : s.portBusy true = none := by simp [State.portBusy, h1, h2]
    refine next_eq ((if_neg (by simp [hl])).trans ?_)
    rw [hfree]
    rfl
  · refine ⟨placeOrder_fails hl ho (portTest_check rfl),
      fun r hr hb => placeOrder_fails hl ho (portTest_busy ((checked_iff r).2 hr) hb), fun h1 h2 =>
      ⟨placeOrder_fails hl ho (portTest_length h1 h2 rfl rfl), fun b hr => placeOrder_fails hl ho (portTest_role h1 h2 rfl rfl hr),
        fun b hr hs => placeOrder_fails hl ho (portTest_state h1 h2 rfl rfl hr (by decide) hs), fun hr hs => next_eq ?_⟩⟩
    rw [portTake_value hl (portTest_value (g := .blend) h1 h2 hr (.inr hs))]
    exact settle_answer ho _ _ _

/-! ### The reading requests (O46) -/

theorem PortTakes.group {s : State} {g : Group} (h : PortTakes s .all) (hg : g.allows s.cfg.roles = true)
    (hs : s.start.state ≠ .offlineConfig) : PortTakes s g := by
  obtain ⟨h1, h2, h3, -, -, h6⟩ := h
  exact ⟨h1, h2, h3, hg, .inr hs, h6⟩

section
variable {s : State} {p : PlateName} {n : Nat}

theorem readInvoice_range {b : InvoiceRead} {x : Entry} (hx : s.inv.find b.inv = some x)
    (h : b.first = 0 ∨ 120 < b.first ∨ 8 < b.count) : s.readInvoice b = (s.answer 0x03#8 .range [], []) := by
  simp only [State.readInvoice, hx]
  exact if_pos h

theorem readInvoice_body {b : InvoiceRead} {x : Entry} (hx : s.inv.find b.inv = some x)
    (h : ¬ (b.first = 0 ∨ 120 < b.first ∨ 8 < b.count)) :
    s.readInvoice b = (s.answer 0x03#8 .ok (x.readBody b.first b.count), []) := by
  simp only [State.readInvoice, hx]
  exact if_neg h

/-- READ PLATE of a plate that is not being composed (R156). -/
theorem readPlate_shown (hn : (n = 1 ∧ p = .a) ∨ (n = 2 ∧ p = .b)) (hc : (s.mark.plate p).cond ≠ .composing) :
    s.readPlate n = (s.answer 0x33#8 .ok (s.mark.plateBody p (s.mark.plate p).lines), []) := by
  rcases hn with ⟨rfl, rfl⟩ | ⟨rfl, rfl⟩ <;> simp [State.readPlate, hc, State.answer]

/-- READ PLATE of a plate being composed shows lines that are a free value (R156, log 37). -/
theorem readPlate_composing (hn : (n = 1 ∧ p = .a) ∨ (n = 2 ∧ p = .b)) (hc : (s.mark.plate p).cond = .composing) :
    s.readPlate n = ({ s.answer 0x33#8 .ok (s.mark.plateBody p
      ((Config.composingLines s.draws).take 4 |>.map (fun t => t.take 20))) with draws := s.draws + 1 }, []) := by
  rcases hn with ⟨rfl, rfl⟩ | ⟨rfl, rfl⟩ <;> simp [State.readPlate, hc]

end

/-- Settles O46. -/
theorem portReads : Obligations.PortReads := by
  intro s h
  refine ⟨?_, fun hr => ?_, fun r l hr => ?_, fun b hb => ?_, fun b x hx hb => ?_, fun b x hx h1 h2 h3 => ?_, ?_,
    fun hm hs => ⟨fun n h1 h2 => ?_, fun n p hn => ⟨fun hc => ?_, fun hc => ?_⟩⟩⟩
  · exact next_eq (request_answer s _ _ _ _ _ _ h rfl)
  · exact next_eq (request_answer s _ _ _ _ _ _ h (by simp [State.readReport, hr]))
  · exact next_eq (request_done s _ _ _ _ _ h (by simp only [State.readReport, hr]) h.2.2.2.2.2)
  · exact next_eq (request_answer s _ _ _ _ _ _ h (by simp [State.readInvoice, hb]))
  · exact next_eq (request_answer s _ _ _ _ _ _ h (readInvoice_range hx hb))
  · exact next_eq (request_answer s _ _ _ _ _ _ h (readInvoice_body hx (by omega)))
  · exact next_eq (request_answer s _ _ _ _ _ _ h rfl)
  · exact next_eq (request_answer s _ _ _ _ _ _ (h.group hm hs) (by simp [State.readPlate, h1, h2]))
  · exact next_eq (request_answer s _ _ _ _ _ _ (h.group hm hs) (readPlate_shown hn hc))
  · refine ⟨_, ?_, fun t ht => ?_, next_eq (request_done s _ _ _ _ _ (h.group hm hs) (readPlate_composing hn hc) h.2.2.2.2.2)⟩
    · rw [List.length_map, List.length_take]
      exact Nat.min_le_left 4 _
    · obtain ⟨u, -, rfl⟩ := List.mem_map.1 ht
      rw [List.length_take]
      exact Nat.min_le_left 20 _

/-! ### The memory transfers and the answer place (O47) -/

theorem length_readMany (m : List Host.Cell) (n : Nat) : ∀ a, (Memory.readMany m a n).length = n := by
  induction n with
  | zero => intro a; rfl
  | succ n ih => intro a; rw [Memory.readMany, List.length_cons, ih]

theorem getElem?_readMany (m : List Host.Cell) (n : Nat) :
    ∀ a k, k < n → (Memory.readMany m a n)[k]? = some (Memory.read m (a + k)) := by
  induction n with
  | zero => intro a k hk; omega
  | succ n ih =>
    intro a k hk
    cases k with
    | zero => rfl
    | succ k =>
      rw [Memory.readMany, List.getElem?_cons_succ, ih (a + 1) k (by omega)]
      exact congrArg (fun j => some (Memory.read m j)) (by omega)

/-- What a byte reads as after a write transfer (R183). -/
theorem read_transfer (m : List Host.Cell) (o : Nat) (d : List Byte) (hm : Memory.wf m = true) (a : Nat) :
    Memory.read (Memory.writeMany m o d) a =
      if o ≤ a ∧ a < o + d.length then (d[a - o]?).getD 0#8 else Memory.read m a := by
  rw [Memory.read_writeMany d m o a hm]
  by_cases h : o ≤ a ∧ a < o + d.length
  · rw [if_pos h, if_pos h, List.getD_eq_getElem?_getD, List.getElem?_eq_getElem (by omega)]
    rfl
  · rw [if_neg h, if_neg h]

/-- The check byte brings the sum of an answer's bytes to 0 (R189). -/
theorem sum_with_check (l : List Byte) :
    (l ++ [byte (256 - l.foldl (fun t b => t + b.toNat) 0 % 256)]).foldl (fun t y => t + y.toNat) 0 % 256 = 0 := by
  rw [List.foldl_append]
  simp only [List.foldl_cons, List.foldl_nil, byte, BitVec.toNat_ofNat]
  omega

theorem portReads_blank {s : State} (h : s.start.resetLow = true ∨ s.port.answer = none) (k : Nat) :
    s.portReads k = List.replicate k 0xFF#8 := by
  have hnone : s.portBytes = none := by rcases h with h | h <;> simp [State.portBytes, h]
  simp [State.portReads, hnone, notReady]

theorem portReads_answer {s : State} {a : Answer} (hl : s.start.resetLow = false) (ha : s.port.answer = some a) (k : Nat) :
    s.portReads k = (answerBytes a).take k := by
  simp [State.portReads, State.portBytes, hl, ha]

/-- No request kind is the not-ready byte (R189). -/
theorem portRows_kind (a : InvoiceRead) (b : MemoryRead) (c : MemoryWrite) (n : Nat) (d : CarrySet) (f : ChestName)
    (g : Option Nat) : ∀ x ∈ portRows a b c n d f g, x.kind ≠ 0xFF#8 := by
  simp [portRows]

section
variable {s : State}

theorem readMemory_range {b : MemoryRead} (h : b.count = 0 ∨ 32 < b.count ∨ 2048 < b.offset + b.count) :
    s.readMemory b = (s.answer 0x07#8 .range [], []) := if_pos h

theorem readMemory_begins {b : MemoryRead} (h : ¬ (b.count = 0 ∨ 32 < b.count ∨ 2048 < b.offset + b.count)) :
    s.readMemory b = (s.beginTransfer (.read b.offset b.count), []) := if_neg h

theorem writeMemory_range {b : MemoryWrite} (h : 2048 < b.offset + b.data.length) :
    s.writeMemory b = (s.answer 0x08#8 .range [], []) := if_pos h

theorem writeMemory_begins {b : MemoryWrite} (h : ¬ 2048 < b.offset + b.data.length) :
    s.writeMemory b = (s.beginTransfer (.write b.offset b.data), []) := if_neg h

end

/-- Settles O47. -/
theorem memoryTransfers : Obligations.MemoryTransfers := by
  refine ⟨fun a b c n d f g x hx => portRows_kind a b c n d f g x hx, fun s =>
    ⟨fun k h => portReads_blank h k, fun a hl ha => ?_, fun b h => ⟨fun hb => ?_, fun h1 h2 h3 => ?_⟩,
      fun b h => ⟨fun hb => ?_, fun hb => ?_⟩, fun o n hh => ?_, fun o d hh hm => ?_⟩⟩
  · exact ⟨_, fun k => portReads_answer hl ha k, sum_with_check _⟩
  · exact next_eq (request_answer s _ _ _ _ _ _ h (readMemory_range hb))
  · exact next_eq (request_done s _ _ _ _ _ h (readMemory_begins (by omega)) h.2.2.2.2.2)
  · exact next_eq (request_answer s _ _ _ _ _ _ h (writeMemory_range hb))
  · exact next_eq (request_done s _ _ _ _ _ h (writeMemory_begins (by omega)) h.2.2.2.2.2)
  · refine ⟨Memory.readMany s.cfgMem o n, length_readMany _ n o, getElem?_readMany _ n o, next_eq ?_⟩
    simp only [State.readEnds, hh]
    rfl
  · refine ⟨Memory.writeMany s.cfgMem o d, Memory.writeMany_wf d _ o hm, read_transfer _ o d hm, next_eq ?_⟩
    simp only [State.writeEnds, hh]
    rfl

end Sys2Proof.Machine

/-! ## Starts (O50, O51) -/

namespace Sys2Proof.Machine

section
variable {s : State} {k : StartKind}

theorem stopTransfer_idle (h : s.port.handling = none) : s.stopTransfer = s := by
  have hport : ({ s.port with handling := none } : Port) = s.port := by rw [← h]
  rw [State.stopTransfer, h]
  exact congrArg (fun p => ({ s with port := p } : State)) hport

theorem stopTransfer_write {o : Nat} {d : List Byte} (h : s.port.handling = some (.write o d)) :
    s.stopTransfer = { s with
      cfgMem := Memory.writeMany s.cfgMem o (d.take (Config.bytesWritten s.draws % (d.length + 1))), draws := s.draws + 1,
      port := { s.port with handling := none } } := by
  rw [State.stopTransfer, h]

/-- Every cold start leaves what the start and the transfer it stops leave (R179, R183). -/
theorem coldStart_started (s : State) (k : StartKind) : ColdStarted s.stopTransfer (s.coldStart k) k s.start.resetLow := rfl

/-- A warm start during a cold load leaves the start cold (log 33). -/
theorem warmStart_cold (hs : s.start.state = .loading) (hc : s.start.isCold = true) (hh : s.port.handling = none) :
    s.warmStart k = { s with start := Start.cold k s.start.resetLow } := by
  simp [State.warmStart, hs, hc, stopTransfer_idle hh]

theorem warmStart_warm (h : s.start.state ≠ .loading ∨ s.start.isCold = false) (hh : s.port.handling = none) :
    s.warmStart k = { s.warmBlocks with start := s.start.warm k } := by
  rw [State.warmStart, stopTransfer_idle hh]
  refine (if_neg ?_).trans rfl
  rcases h with h | h <;> simp [h]

/-- What a warm start makes of a station whose pin is high. -/
theorem warmStart_started (hl : s.start.resetLow = false) (h : s.start.state ≠ .loading ∨ s.start.isCold = false)
    (hh : s.port.handling = none) : WarmStarted s (s.warmStart k) k := by
  have hstart : s.start.warm k = { s.start with
      state := .loading, resetLow := false, kind := k, isCold := false, warmCount := min (s.start.warmCount + 1) 255,
      converted := false, memChanged := false, joinT := .stopped, retryT := .stopped } :=
    congrArg (fun b => ({ s.start.warm k with resetLow := b } : Start)) hl
  rw [warmStart_warm h hh]
  exact ⟨hstart, rfl, rfl, rfl, rfl, rfl, rfl, rfl, rfl, rfl, rfl, rfl, rfl, rfl, rfl, warmBlocks_invoicesKept s, rfl, rfl,
    rfl, rfl, warmBlocks_lanesKept s, warmBlocks_paperKept s, rfl⟩

theorem warmStart_answer (h : s.start.state ≠ .loading ∨ s.start.isCold = false) (hh : s.port.handling = none) :
    (s.warmStart k).port.answer = s.port.answer := by
  rw [warmStart_warm h hh]; rfl

/-- The pin let go. -/
def State.pinReleased (s : State) : State := { s with start := { s.start with resetLow := false } }

theorem pinHigh_cold {ms : Nat} (hl : s.start.resetLow = true) (h : 10 ≤ ms) :
    s.pinHigh ms = s.pinReleased.coldStart .coldPin := (if_pos hl).trans (if_pos h)

theorem pinHigh_warm {ms : Nat} (hl : s.start.resetLow = true) (h : ms < 10) :
    s.pinHigh ms = s.pinReleased.warmStart .warmPin := (if_pos hl).trans (if_neg (Nat.not_le.2 h))

end

/-- Settles O50. -/
theorem startEvents : Obligations.StartEvents := by
  intro s
  refine ⟨fun hh => ⟨_, rfl, ?_⟩, fun o d hh => ?_, fun hl => next_eq (if_pos hl), fun hl hh => ⟨next_eq ?_, rfl⟩,
    fun ms => ⟨fun hl => next_eq (if_neg (by simp [hl])), fun hl hh hms => ?_, fun hl hh hms => ⟨fun hs hc => ?_, fun h => ?_⟩⟩⟩
  · have hcold := coldStart_started s .coldPower
    rwa [stopTransfer_idle hh] at hcold
  · refine ⟨_, Config.bytesWritten s.draws % (d.length + 1), Nat.le_of_lt_succ (Nat.mod_lt _ (Nat.succ_pos _)), rfl, ?_⟩
    have hcold := coldStart_started s .coldPower
    rwa [stopTransfer_write hh] at hcold
  · refine (if_neg (by simp [hl])).trans ?_
    rw [stopTransfer_idle hh]
  · have hcold := coldStart_started s.pinReleased .coldPin
    rw [stopTransfer_idle (s := s.pinReleased) hh] at hcold
    exact ⟨_, next_eq (pinHigh_cold hl hms), hcold⟩
  · exact next_eq ((pinHigh_warm hl hms).trans (warmStart_cold (s := s.pinReleased) hs hc hh))
  · exact ⟨_, next_eq (pinHigh_warm hl hms), warmStart_started (s := s.pinReleased) rfl h hh,
      warmStart_answer (s := s.pinReleased) h hh⟩

/-! ### RESTART WARM (O51) -/

/-- A station that loads transmits nothing. -/
theorem tryTransmit_loading {s : State} (h : s.start.state = .loading) : s.tryTransmit = s :=
  if_neg (by simp [State.canSend, State.working, h])

/-- Settles O51. -/
theorem restartWarm : Obligations.RestartWarm := by
  intro s h
  have hload : s.start.state ≠ .loading := h.2.2.1
  refine ⟨⟨(s.answer 0x06#8 .ok []).warmStart .warmRequest, ?_, ?_, ?_, ?_⟩, fun u hs hl ho => ⟨?_, ?_, fun k => ?_⟩⟩
  · rw [warmStart_warm (s := s.answer 0x06#8 .ok []) (.inl hload) h.2.1]
    refine next_eq ((request_done s _ _ _ _ _ h
      (Prod.ext (warmStart_warm (s := s.answer 0x06#8 .ok []) (.inl hload) h.2.1) rfl) rfl).trans ?_)
    exact tryTransmit_loading rfl
  · exact warmStart_started (s := s.answer 0x06#8 .ok []) h.1 (.inl hload) h.2.1
  · exact warmStart_answer (s := s.answer 0x06#8 .ok []) (.inl hload) h.2.1
  · rw [warmStart_warm (s := s.answer 0x06#8 .ok []) (.inl hload) h.2.1]; rfl
  · intro a b c n d f g x r hx hr
    refine ((row_tests hl ho (portRows_run a b c n d f g x hx)).2.1 r hr (.inr hs)).trans (next_eq ?_)
    exact tryTransmit_loading (by exact hs)
  · intro r hr
    refine (placeOrder_fails hl ho (portTest_busy ((checked_iff r).2 hr) (.inr hs))).trans (next_eq ?_)
    exact tryTransmit_loading (by exact hs)
  · have hbusy : u.portBusy true = some .busy := by simp [State.portBusy, hs]
    refine next_eq ((if_neg (by simp [hl])).trans ?_)
    rw [hbusy]
    rfl

end Sys2Proof.Machine

/-! ## The requests of the paper unit, and FORCE ADOPT (O49) -/

namespace Sys2Proof.Machine

/-! ### OPEN SHEET (R165) -/

section
variable {p : Paper} {i : Inv} {n : Nat} {x : Entry}

theorem canShow_iff : p.canShow x = true ↔ x.data.hdr.state = .closed ∧ x.copy = .complete ∧ p.takes x.num = false := by
  simp [Paper.canShow, and_assoc]

theorem openSheet_none (hq : p.queue = []) : p.openSheet i none = (.state, none, p) := by
  simp [Paper.openSheet, Paper.choose, hq]

/-- The window opened on an entry; one that was open closes as REPLACED. -/
def Paper.opened (p : Paper) (x : Entry) : Paper :=
  { p with window :=
    { shown := some (x.num, x.data.hdr.version),
      cause := if p.window.shown.isSome then .replaced else p.window.cause } }

theorem openSheet_front {k : PaperEntry} {q : List PaperEntry} (hq : p.queue = k :: q) (hx : i.find k.inv = some x)
    (hs : p.canShow x = true) : p.openSheet i none = (.ok, some x, p.opened x) := by
  simp [Paper.openSheet, Paper.choose, hq, hx, hs, Paper.opened]

theorem openSheet_unknown (hx : i.find n = none) : p.openSheet i (some n) = (.unknown, none, p) := by
  simp [Paper.openSheet, Paper.choose, hx]

theorem openSheet_refused (hx : i.find n = some x) (hs : p.canShow x = false) :
    p.openSheet i (some n) = (.state, none, p) := by
  simp [Paper.openSheet, Paper.choose, hx, hs]

theorem openSheet_named (hx : i.find n = some x) (hs : p.canShow x = true) :
    p.openSheet i (some n) = (.ok, some x, p.opened x) := by
  simp [Paper.openSheet, Paper.choose, hx, hs, Paper.opened]

/-! ### READ SHEET PART and SHEET DONE (R166, R169) -/

theorem readPart_shut (hw : p.window.shown = none) (k : Nat) : p.readPart i k = (.state, none, p) := by
  simp [Paper.readPart, hw]

theorem sheetDone_shut (hw : p.window.shown = none) : p.sheetDone i = (.state, Eff.pure p) := by
  simp [Paper.sheetDone, hw]

section
variable {v k : Nat}

theorem wholeAt_whole (hx : i.find n = some x) (hc : x.copy = .complete) (hv : x.data.hdr.version = v) :
    wholeAt i n v = some x := by
  simp [wholeAt, hx, hc, hv]

theorem wholeAt_changed (hx : i.find n = some x) (h : x.copy ≠ .complete ∨ x.data.hdr.version ≠ v) :
    wholeAt i n v = none := by
  rcases h with h | h <;> simp [wholeAt, hx, h]

variable (hw : p.window.shown = some (n, v)) (hx : i.find n = some x)
include hw hx

theorem readPart_range (hk : sheetParts x.data.hdr.entered ≤ k) : p.readPart i k = (.range, none, p) := by
  simp [Paper.readPart, hw, hx, hk]

theorem readPart_part (hk : k < sheetParts x.data.hdr.entered) (hc : x.copy = .complete) (hv : x.data.hdr.version = v) :
    p.readPart i k = (.ok, some x, p) := by
  simp [Paper.readPart, hw, hx, Nat.not_le.2 hk, wholeAt_whole hx hc hv]

theorem readPart_changed (hk : k < sheetParts x.data.hdr.entered) (h : x.copy ≠ .complete ∨ x.data.hdr.version ≠ v) :
    p.readPart i k = (.state, none, p.changed) := by
  simp [Paper.readPart, hw, hx, Nat.not_le.2 hk, wholeAt_changed hx h]

theorem sheetDone_changed (h : x.copy ≠ .complete ∨ x.data.hdr.version ≠ v) :
    p.sheetDone i = (.state, Eff.pure p.changed) := by
  simp [Paper.sheetDone, hw, wholeAt_changed hx h]

theorem sheetDone_orphan (hc : x.copy = .complete) (hv : x.data.hdr.version = v) (ho : x.orphan = true) :
    p.sheetDone i = (.state, Eff.pure p) := by
  simp [Paper.sheetDone, hw, wholeAt_whole hx hc hv, ho]

theorem sheetDone_taken (hc : x.copy = .complete) (hv : x.data.hdr.version = v) (ho : x.orphan = false) :
    p.sheetDone i = (.ok, Eff.mk' { p with
        window := { shown := none, cause := .done }, gapOver := false, gaps := p.gaps.filter (fun m => decide (n ≤ m)),
        taking := p.taking.filter (fun t => t.inv != n) ++ [{ inv := n, waits := .nothing }] }
      [.openEx (.sheetTaken n) (.sheetTaken n) 0 x.data.hdr.owner false]) := by
  simp [Paper.sheetDone, hw, wholeAt_whole hx hc hv, ho, openTaking]

end

end

/-! ### The requests of the paper unit -/

section
variable {s : State} {a : PortAnswer} {e : Option Entry} {p : Paper}

theorem request_openSheet {o : Option Nat} (h : PortTakes s .paper) (ho : s.paper.openSheet s.inv o = (a, e, p)) :
    exec (.openSheet (.good o)) s =
      .next (State.tryTransmit { s.answer 0x40#8 a (e.elim [] openBody) with paper := p }) :=
  next_eq (request_done s _ _ _ _ _ h (by simp only [State.openSheet, ho]) h.2.2.2.2.2)

theorem request_readPart {k : Nat} (h : PortTakes s .paper) (ho : s.paper.readPart s.inv k = (a, e, p)) :
    exec (.readSheetPart (.good k)) s =
      .next (State.tryTransmit { s.answer 0x41#8 a
        (e.elim [] (fun e => sheetBody s.cfg.season e.data s.paper.gaps s.paper.gapOver k)) with paper := p }) :=
  next_eq (request_done s _ _ _ _ _ h (by simp only [State.readSheetPart, ho]) h.2.2.2.2.2)

theorem request_sheetDone {t : State} {x : Eff Paper} (h : PortTakes s .paper) (ho : s.paper.sheetDone s.inv = (a, x))
    (hp : ({ s.answer 0x42#8 a [] with paper := x.st } : State).perform x.acts = (t, [])) :
    exec (.sheetDone (.good ())) s = .next t.tryTransmit := by
  have htake : s.portPaper 0x42#8 (s.paper.sheetDone s.inv) = (t, []) := by
    rw [ho, ← hp]
    rfl
  exact next_eq (request_done s t _ _ _ _ h htake (owed_of_perform hp h.2.2.2.2.2))

end

/-! ### FORCE ADOPT (R46) -/

section
variable {s : State} {n : Nat} {x : Entry}

theorem idle_paper {e : Ev} (h : takePaper s e = Eff.pure s.paper) : s.takeJob .paper e = (s, []) := by
  unfold State.takeJob
  split
  · simp only [State.runPaper, h]; rfl
  · rfl

theorem unlist_absent {p : Paper} (h : p.lists n = false) : p.unlist n = p := by
  simp only [Paper.lists, List.any_append, Bool.or_eq_false_iff, List.any_eq_false, beq_iff_eq] at h
  have keep (l : List PaperEntry) (hl : ∀ k ∈ l, ¬ k.inv = n) : l.filter (fun e => e.inv != n) = l :=
    List.filter_eq_self.2 fun k hk => bne_iff_ne.2 (hl k hk)
  simp only [Paper.unlist, keep _ h.1, keep _ h.2]

/-- A change of a copy is nothing to a paper unit with no waiting entry, of an invoice CLOSED or in no list of its (R162). -/
theorem paper_copyChanged (hw : s.paper.waiting = []) (hx : s.inv.find n = some x)
    (h : x.data.hdr.state = .closed ∨ s.paper.lists n = false) : takePaper s (.copyChanged n) = Eff.pure s.paper := by
  show s.paper.copied s n = _
  by_cases hc : x.data.hdr.state = .closed
  · simp [Paper.copied, hx, hc, hw]
  · simp [Paper.copied, hx, hc, unlist_absent (h.resolve_left hc)]

theorem forceAdopt_unknown (hx : s.inv.find n = none) : s.inv.forceAdopt s n = (.unknown, Eff.pure s.inv) := by
  simp [Inv.forceAdopt, hx]

theorem forceAdopt_refused (hx : s.inv.find n = some x)
    (h : s.isActive = false ∨ x.orphan = false ∨ s.adoptQueued n = true) :
    s.inv.forceAdopt s n = (.state, Eff.pure s.inv) := by
  rcases h with h | h | h <;> simp [Inv.forceAdopt, hx, h]

theorem forceAdopt_taken (hx : s.inv.find n = some x) (ha : s.isActive = true) (ho : x.orphan = true)
    (hq : s.adoptQueued n = false) (hv : x.data.hdr.version < Config.maxVersion) :
    s.inv.forceAdopt s n = (.ok, Eff.mk' (s.inv.upd n (fun y => { y with data := y.data.fillGaps }))
      (copyNotice n ++ [.send (jobFrame 0 (.adopt
        { inv := n, oldOwner := x.data.hdr.owner, version := x.data.hdr.version + 1, forced := true }) (.adopt n))])) := by
  simp [Inv.forceAdopt, hx, ha, ho, hq, Nat.not_le.2 hv]

theorem request_forceAdopt {t : State} {q : Jobs} {a : PortAnswer} {r : Eff Inv} (h : PortTakes s .blendPaper)
    (ha : s.inv.forceAdopt s n = (a, r))
    (hp : ({ s.answer 0x09#8 a [] with inv := r.st } : State).perform r.acts = (t, q))
    (hq : ∀ j ∈ q, t.takeJob j.1 j.2 = (t, [])) :
    exec (.forceAdopt (.good n)) s = .next t.tryTransmit := by
  refine next_eq ((request_good s _ _ _ _ h).trans ?_)
  have htake : s.portInv 0x09#8 (s.inv.forceAdopt s n) = (t, q) := by
    rw [ha, ← hp]
    rfl
  rw [htake]
  exact settle_idle hq (owed_of_perform hp h.2.2.2.2.2)

end

/-- Settles O49. -/
theorem paperRequests : Obligations.PaperRequests := by
  intro s n
  refine ⟨fun h => ⟨fun hq => ?_, fun k q x hq hx hst hc ht => ?_, fun hx => ?_,
      fun x hx => ⟨fun hn => ?_, fun hst hc ht => ?_⟩, fun hw => ⟨fun k => ?_, ?_⟩,
      fun v k x hw hx => ⟨fun hk => ?_, fun hk hc hv => ?_, fun hk hn => ?_, fun hn => ?_, fun hc hv ho => ?_,
        fun hc hv ho hs hroom => ?_⟩⟩,
    fun h => ⟨fun hx => ?_, fun x hx => ⟨fun hn => ?_, fun hs hroom hm hw ha hl ho hq hv => ?_⟩⟩⟩
  · exact request_openSheet h (openSheet_none hq)
  · have hnum := find_num hx
    rw [← hnum] at ht ⊢
    exact request_openSheet h (openSheet_front hq hx (canShow_iff.2 ⟨hst, hc, ht⟩))
  · exact request_openSheet h (openSheet_unknown hx)
  · refine request_openSheet h (openSheet_refused hx (Bool.eq_false_iff.2 fun hshow => ?_))
    obtain ⟨hst, hc, ht⟩ := canShow_iff.1 hshow
    rw [find_num hx] at ht
    simp [hst, hc, ht] at hn
  · have hnum := find_num hx
    subst hnum
    exact request_openSheet h (openSheet_named hx (canShow_iff.2 ⟨hst, hc, ht⟩))
  · exact request_readPart h (readPart_shut hw k)
  · exact request_sheetDone h (sheetDone_shut hw) rfl
  · exact request_readPart h (readPart_range hw hx hk)
  · exact request_readPart h (readPart_part hw hx hk hc hv)
  · exact request_readPart h (readPart_changed hw hx hk hn)
  · exact request_sheetDone h (sheetDone_changed hw hx hn) rfl
  · exact request_sheetDone h (sheetDone_orphan hw hx hc hv ho) rfl
  · exact request_sheetDone h (sheetDone_taken hw hx hc hv ho) (by exact perform_open _ _ _ _ _ _ hs hroom)
  · exact request_forceAdopt h (forceAdopt_unknown hx) rfl (by simp)
  · exact request_forceAdopt h (forceAdopt_refused hx hn) rfl (by simp)
  · refine request_forceAdopt h (forceAdopt_taken hx ha ho hq hv)
      (perform_append (perform_posts _ _ _) (by exact perform_job _ _ _ _ hs hroom)) ?_
    simp only [List.map_cons, List.map_nil, List.append_nil, List.forall_mem_cons]
    refine ⟨takeJob_no_mark _ _ (by exact hm), idle_paper ?_, by simp⟩
    exact paper_copyChanged (x := { x with data := x.data.fillGaps }) (by exact hw)
      ((find_upd_self s.inv n _ (by intro _ h; exact h)).trans (by rw [hx]; rfl)) (by exact hl)

end Sys2Proof.Machine

/-! ## Frames as bytes (O54, R3, R187, R188)

Each reader takes back what its writer wrote and leaves the bytes that follow; a body is a chain of such fields. -/

namespace Sys2Proof.Machine

/-! ### The fields -/

section
variable {α : Type} {n : Nat} (l : List Byte)

theorem toNat_byte (n : Nat) : (byte n).toNat = n % 256 := BitVec.toNat_ofNat n 8

theorem get1_put1 (h : n < 256) : get1 (put1 n ++ l) = some (n, l) := by
  simp [get1, put1, toNat_byte, Nat.mod_eq_of_lt h]

theorem get2_put2 (h : n < 65536) : get2 (put2 n ++ l) = some (n, l) := by
  simp only [get2, put2, toNat_byte, List.cons_append, List.nil_append, Option.some.injEq, Prod.mk.injEq, and_true]
  omega

theorem get3_put3 (h : n < 16777216) : get3 (put3 n ++ l) = some (n, l) := by
  simp only [get3, put3, toNat_byte, List.cons_append, List.nil_append, Option.some.injEq, Prod.mk.injEq, and_true]
  omega

theorem getStation_put1 (h : n ≤ 24) : getStation (put1 n ++ l) = some (n, l) := by
  simp [getStation, get1_put1 l (show n < 256 by omega), h]

/-- A station or none, as the line carries it. -/
theorem getD_le_of_stationOpt {o : Option Nat} (h : stationOpt o = true) : o.getD 0 ≤ 24 := by
  cases o with
  | none => simp
  | some n => simp [stationOpt] at h; simpa using h.2

theorem getStationOpt_putStation {o : Option Nat} (h : stationOpt o = true) :
    getStationOpt (putStation o ++ l) = some (o, l) := by
  rw [getStationOpt, putStation, getStation_put1 l (getD_le_of_stationOpt h)]
  cases o with
  | none => rfl
  | some n =>
    simp only [stationOpt, Bool.and_eq_true, decide_eq_true_eq] at h
    simp [Nat.pos_iff_ne_zero.1 h.1]

theorem getBatch_put3 (h : n ≤ 500000) : getBatch (put3 n ++ l) = some (n, l) := by
  simp [getBatch, get3_put3 l (show n < 16777216 by omega), h]

theorem getBatchOpt_putBatch {o : Option Nat} (h : o.all batchOk = true) :
    getBatchOpt (putBatch o ++ l) = some (o, l) := by
  cases o with
  | none => simp [getBatchOpt, putBatch, get3_put3 l (show 16777215 < 16777216 by omega)]
  | some n =>
    simp only [Option.all_some, batchOk, decide_eq_true_eq] at h
    simp [getBatchOpt, putBatch, get3_put3 l (show n < 16777216 by omega), h, show n ≠ 16777215 by omega]

theorem getFlag_putFlag (b : Bool) : getFlag (putFlag b ++ l) = some (b, l) := by
  cases b
  · simp [getFlag, putFlag, get1_put1 l (show 0 < 256 by omega)]
  · simp [getFlag, putFlag, get1_put1 l (show 1 < 256 by omega)]

section
variable [BEq α] [LawfulBEq α] {codes : List α} {a : α}

theorem getElem?_idxOf (h : a ∈ codes) : codes[codes.idxOf a]? = some a := by
  rw [List.getElem?_eq_getElem (List.idxOf_lt_length_iff.2 h), List.getElem_idxOf]

theorem getCode_putCode (h : a ∈ codes) (hl : codes.length < 256) : getCode codes (putCode codes a ++ l) = some (a, l) := by
  have hlt := List.idxOf_lt_length_iff.2 h
  simp [getCode, putCode, codeOf, get1_put1 l (show codes.idxOf a + 1 < 256 by omega), getElem?_idxOf h]

theorem getCodeOpt_putCodeOpt {o : Option α} (h : ∀ a : α, a ∈ codes) (hl : codes.length < 256) :
    getCodeOpt codes (putCodeOpt codes o ++ l) = some (o, l) := by
  cases o with
  | none => simp [getCodeOpt, putCodeOpt, get1_put1 l (show 0 < 256 by omega)]
  | some a =>
    have hlt := List.idxOf_lt_length_iff.2 (h a)
    simp [getCodeOpt, putCodeOpt, putCode, codeOf, get1_put1 l (show codes.idxOf a + 1 < 256 by omega),
      getElem?_idxOf (h a)]

end

/-- A character of the text set is no padding. -/
theorem ne_zero_of_textByte {b : Byte} (h : textByte b = true) : (b != 0#8) = true := by
  refine bne_iff_ne.2 fun h0 => ?_
  subst h0
  revert h
  decide

theorem getText_putText {w : Nat} {t : Text} (h : textOk w t = true) : getText w (putText w t ++ l) = some (t, l) := by
  simp only [textOk, Bool.and_eq_true, decide_eq_true_eq] at h
  obtain ⟨⟨h1, hw⟩, hall⟩ := h
  have hlen : (putText w t).length = w := by simp [putText]; omega
  have hne (b : Byte) (hb : b ∈ t) : (b != 0#8) = true := ne_zero_of_textByte (List.all_eq_true.1 hall b hb)
  have hpad : (List.replicate (w - t.length) (0#8 : Byte)).takeWhile (fun b => b != 0#8) = [] := by
    cases w - t.length <;> simp [List.replicate_succ]
  have hdrop : (List.replicate (w - t.length) (0#8 : Byte)).dropWhile (fun b => b != 0#8) =
      List.replicate (w - t.length) 0#8 := by
    cases w - t.length <;> simp [List.replicate_succ]
  have htext : textOf (putText w t) = t := by
    rw [textOf, putText, List.takeWhile_append_of_pos hne, hpad, List.append_nil]
  have hvalid : textValid (putText w t) = true := by
    rw [textValid, htext, hall, putText, List.dropWhile_append_of_pos hne, hdrop]
    simp
  have htake : (putText w t ++ l).take w = putText w t := by rw [List.take_append_of_le_length (by omega), List.take_of_length_le (by omega)]
  have hrest : (putText w t ++ l).drop w = l := by rw [List.drop_append_of_le_length (by omega), List.drop_of_length_le (by omega)]; rfl
  have hempty : t ≠ [] := fun h0 => by simp [h0] at h1
  simp [getText, htake, hrest, hlen, hvalid, htext, hempty]

end

/-! ### The code lists -/

theorem mem_joinKinds (a : JoinKind) : a ∈ joinKinds := by cases a <;> decide
theorem mem_presStates (a : PresState) : a ∈ presStates := by cases a <;> decide
theorem mem_objections (a : Objection) : a ∈ objections := by cases a <;> decide
theorem mem_invStates (a : InvState) : a ∈ invStates := by cases a <;> decide
theorem mem_endCauses (a : EndCause) : a ∈ endCauses := by cases a <;> decide
theorem mem_adoptions (a : Adoption) : a ∈ adoptions := by cases a <;> decide
theorem mem_chestClasses (a : ChestClass) : a ∈ chestClasses := by cases a <;> decide
theorem mem_refuseReasons (a : RefuseReason) : a ∈ refuseReasons := by cases a <;> decide
theorem mem_stencils (a : Stencil) : a ∈ stencils := by cases a <;> decide
theorem mem_hows (a : How) : a ∈ hows := by cases a <;> decide
theorem mem_purposes (a : Purpose) : a ∈ purposes := by cases a <;> decide
theorem mem_slots (a : Slot) : a ∈ slots := by cases a <;> decide
theorem mem_leaseEndReasons (a : LeaseEndReason) : a ∈ leaseEndReasons := by cases a <;> decide
theorem mem_notedResults (a : NotedResult) : a ∈ notedResults := by cases a <;> decide
theorem mem_frameKinds (a : FrameKind) : a ∈ frameKinds := by cases a <;> decide

/-! ### The flag bytes -/

theorem rolesByte_lt (r : Roles) : rolesByte r < 256 := by
  obtain ⟨b, h, m, p⟩ := r
  revert b h m p
  decide

theorem rolesOf_rolesByte (r : Roles) : rolesOf (rolesByte r) = r := by
  obtain ⟨b, h, m, p⟩ := r
  revert b h m p
  decide

section
variable (a b c : Bool) (t : Nat)

theorem chestFlags_lt : chestFlags a t b c < 32 := by
  unfold chestFlags
  cases a <;> cases b <;> cases c <;> simp <;> omega

theorem chestFlags_short : chestFlags a t b c % 2 = if a then 1 else 0 := by
  unfold chestFlags
  cases a <;> cases b <;> cases c <;> simp <;> omega

theorem chestFlags_topups (h : t < 4) : chestFlags a t b c / 2 % 4 = t := by
  unfold chestFlags
  cases a <;> cases b <;> cases c <;> simp <;> omega

theorem chestFlags_long : chestFlags a t b c / 8 % 2 = if b then 1 else 0 := by
  unfold chestFlags
  cases a <;> cases b <;> cases c <;> simp <;> omega

theorem chestFlags_placeholder : chestFlags a t b c / 16 % 2 = if c then 1 else 0 := by
  unfold chestFlags
  cases a <;> cases b <;> cases c <;> simp <;> omega

end

theorem headerFlags_lt (b : HeaderBody) : headerFlags b < 256 := by
  unfold headerFlags
  cases b.dump <;> cases b.resumed <;> cases b.newVoid.isSome <;> decide

theorem headerFlags_dump (b : HeaderBody) : headerFlags b % 2 = if b.dump then 1 else 0 := by
  unfold headerFlags
  cases b.dump <;> cases b.resumed <;> cases b.newVoid.isSome <;> rfl

theorem headerFlags_resumed (b : HeaderBody) : headerFlags b / 2 % 2 = if b.resumed then 1 else 0 := by
  unfold headerFlags
  cases b.dump <;> cases b.resumed <;> cases b.newVoid.isSome <;> rfl

theorem headerFlags_newVoid (b : HeaderBody) : headerFlags b / 4 % 2 = if b.newVoid.isSome then 1 else 0 := by
  unfold headerFlags
  cases b.dump <;> cases b.resumed <;> cases b.newVoid.isSome <;> rfl

/-- A flag read out of its bit. -/
theorem decide_bit (b : Bool) : decide ((if b then 1 else 0) = 1) = b := by cases b <;> rfl


/-! ### Items -/

theorem lt_of_u8 {n : Nat} (h : u8 n = true) : n < 256 := of_decide_eq_true h
theorem lt_of_u16 {n : Nat} (h : u16 n = true) : n < 65536 := of_decide_eq_true h

theorem putStation_some (n : Nat) : putStation (some n) = put1 n := rfl
theorem putStation_none : putStation none = put1 0 := rfl

section
variable (l : List Byte)

/-- The bytes of a void record come back as one (R188). -/
theorem getItem_putVoidItem {v : VoidRec} (h : v.wf = true) : getItem (putVoidItem v ++ l) = some (.void v, l) := by
  simp only [VoidRec.wf, u8, u16, stationOk, Bool.and_eq_true, decide_eq_true_eq] at h
  obtain ⟨⟨hh, ht⟩, hn⟩ := h
  have hflags (r : List Byte) : get1 (0#8 :: r) = some (0, r) := rfl
  simp [getItem, putVoidItem, List.append_assoc, get1_put1, get2_put2, getStation_put1, hh, ht, hn, hflags]

section
variable {c : Chest} (ho : 1 ≤ c.ordinal) (ho' : c.ordinal < 256) (htop : c.topups < 4) (hm : stationOpt c.marker = true)
include ho ho' htop hm

/-- A chest with its weights. -/
theorem getItem_putChest_whole {h t g r n : Nat} (hh : c.head = some h) (ht : c.token = some t) (hg : c.gross = some g)
    (hr : c.tare = some r) (hn : c.net = some n) (h1 : 1 ≤ h) (h2 : h ≤ 24) (h3 : t < 256) (h4 : g < 65536)
    (h5 : r < 65536) (h6 : n < 65536) : getItem (putChest c ++ l) = some (.chest c, l) := by
  obtain ⟨o, _, _, _, _, _, s, k, f, st, m⟩ := c
  subst hh ht hg hr hn
  have hfl := chestFlags_lt s f false k
  simp [getItem, putChest, putStation_some, List.append_assoc, get1_put1, get2_put2, getStation_put1, ho', h2, h3, h4, h5,
    h6, show chestFlags s k f false < 256 by omega, Nat.pos_iff_ne_zero.1 ho, Nat.pos_iff_ne_zero.1 h1,
    getCode_putCode _ (mem_stencils st) (show stencils.length < 256 by decide), getStationOpt_putStation _ hm,
    chestFlags_placeholder, chestFlags_short, chestFlags_topups _ _ _ _ htop, chestFlags_long]

/-- A placeholder: no head, token and weights (R187). -/
theorem getItem_putChest_placeholder (hh : c.head = none) (ht : c.token = none) (hg : c.gross = none) (hr : c.tare = none)
    (hn : c.net = none) : getItem (putChest c ++ l) = some (.chest c, l) := by
  obtain ⟨o, _, _, _, _, _, s, k, f, st, m⟩ := c
  subst hh ht hg hr hn
  have hfl := chestFlags_lt s f true k
  simp [getItem, putChest, putStation_none, List.append_assoc, get1_put1, get2_put2, getStation_put1, ho',
    show chestFlags s k f true < 256 by omega, Nat.pos_iff_ne_zero.1 ho,
    getCode_putCode _ (mem_stencils st) (show stencils.length < 256 by decide), getStationOpt_putStation _ hm,
    chestFlags_placeholder, chestFlags_short, chestFlags_topups _ _ _ _ htop, chestFlags_long]

end

theorem getItem_putChest {c : Chest} (h : c.wf = true) : getItem (putChest c ++ l) = some (.chest c, l) := by
  simp only [Chest.wf, u8, Bool.and_eq_true, decide_eq_true_eq] at h
  obtain ⟨⟨⟨⟨ho, ho'⟩, htop⟩, hm⟩, hrest⟩ := h
  split at hrest
  · next hh ht hg hr hn => exact getItem_putChest_placeholder l ho ho' htop hm hh ht hg hr hn
  · next hh ht hg hr hn =>
    simp only [stationOk, u16, Bool.and_eq_true, decide_eq_true_eq] at hrest
    obtain ⟨⟨⟨⟨⟨h1, h2⟩, h3⟩, h4⟩, h5⟩, h6⟩ := hrest
    exact getItem_putChest_whole l ho ho' htop hm hh ht hg hr hn h1 h2 h3 h4 h5 h6
  · cases hrest

theorem getItem_putItem {i : Item} (h : i.wf = true) : getItem (putItem i ++ l) = some (i, l) := by
  cases i with
  | chest c => exact getItem_putChest l h
  | void v => exact getItem_putVoidItem l h

theorem putItem_ne_nil (i : Item) : putItem i ≠ [] := by
  cases i <;> simp [putItem, putChest, putVoidItem, put1]

theorem getItems_flatMap (items : List Item) (h : ∀ i ∈ items, i.wf = true) :
    getItems items.length (items.flatMap putItem ++ l) = some items := by
  induction items with
  | nil => rfl
  | cons i items ih =>
    rw [List.forall_mem_cons] at h
    have hne : putItem i ++ (items.flatMap putItem ++ l) ≠ [] := by simp [putItem_ne_nil]
    rw [List.flatMap_cons, List.append_assoc, List.length_cons]
    rw [getItems.eq_3 _ _ hne, getItem_putItem _ h.1]
    simp [ih h.2]

end

/-! ### Bodies -/

theorem getBody_join {b : JoinBody} (h : (Msg.join b).wf = true) (l : List Byte) :
    getBody .join (putBody (.join b) ++ l) = some (.join b) := by
  obtain ⟨ro, st, bl, l1, l2⟩ := b
  simp only [Msg.wf, Bool.and_eq_true] at h
  obtain ⟨⟨hb, h1⟩, h2⟩ := h
  have hat (o : Option Nat) (ho : stationOpt o = true) : stationAt (o.getD 0 % 256) = some o := by
    have hle := getD_le_of_stationOpt ho
    rw [Nat.mod_eq_of_lt (by omega)]
    cases o with
    | none => rfl
    | some n =>
      simp only [stationOpt, Bool.and_eq_true, decide_eq_true_eq] at ho
      simp [stationAt, Nat.pos_iff_ne_zero.1 ho.1, ho.2]
  have hcode : codeAt joinKinds (codeOf joinKinds st % 256) = some st := by cases st <;> decide
  simp [getBody, putBody, put1, putCode, putStation, readJoin, toNat_byte, hat _ hb, hat _ h1, hat _ h2, hcode,
    Nat.mod_eq_of_lt (rolesByte_lt ro), rolesOf_rolesByte, JoinRead.body]

theorem getBody_presence {b : PresenceBody} (h : (Msg.presence b).wf = true) (l : List Byte) :
    getBody .presence (putBody (.presence b) ++ l) = some (.presence b) := by
  obtain ⟨ro, st, m⟩ := b
  have hm : m < 65536 := of_decide_eq_true h
  have hcode : codeAt presStates (codeOf presStates st % 256) = some st := by cases st <;> decide
  have hmark : m / 256 % 256 * 256 + m % 256 = m := by omega
  simp [getBody, putBody, put1, put2, putCode, readPresence, toNat_byte, hcode, hmark,
    Nat.mod_eq_of_lt (rolesByte_lt ro), rolesOf_rolesByte, PresenceRead.body]

/-- A field read, then what is read of the bytes behind it. -/
theorem read_then {α β : Type} {x : Option (α × List Byte)} {a : α} {r : List Byte} {f : α × List Byte → Option β}
    {y : Option β} (hx : x = some (a, r)) (hf : f (a, r) = y) : x.bind f = y := by
  rw [hx]; exact hf

/-- The opening fields of a HEADER. -/
theorem getHeadOpening_put {h : Header} (hi : h.inv < 65536) (ho : h.owner ≤ 24) (hv : h.version < 65536) (l : List Byte) :
    getHeadOpening (putHeadOpening h ++ l) = some ((h.inv, h.owner, h.version, h.state), l) := by
  simp [getHeadOpening, putHeadOpening, List.append_assoc, get2_put2, getStation_put1, hi, ho, hv,
    getCode_putCode _ (mem_invStates h.state) (show invStates.length < 256 by decide)]

/-- The void record of a HEADER as its fields, zeros where there is none. -/
theorem putNewVoid_eq (o : Option VoidRec) :
    putNewVoid o = put1 (o.elim 0 (fun v => v.head)) ++ (put1 (o.elim 0 (fun v => v.token)) ++ put2 (o.elim 0 (fun v => v.net))) := by
  cases o with
  | none => rfl
  | some v => simp [putNewVoid]

theorem getBody_header {b : HeaderBody} (hw : (Msg.header b).wf = true) (l : List Byte) :
    getBody .header (putBody (.header b) ++ l) = some (.header b) := by
  obtain ⟨h, d, re, nv, k⟩ := b
  simp only [Msg.wf, Header.wf, u8, u16, stationOk, batchOk, Bool.and_eq_true, decide_eq_true_eq] at hw
  obtain ⟨⟨⟨⟨⟨⟨⟨⟨⟨⟨⟨⟨⟨⟨⟨⟨⟨-, hi⟩, ho⟩, hv⟩, hb⟩, hor⟩, hga⟩, hgr⟩, hch⟩, hpl⟩, hen⟩, hnt⟩, hvt⟩, hvc⟩, hre⟩, hlf⟩, hnv⟩, hk⟩ := hw
  have hvoid : nv.elim 0 (fun v => v.head) ≤ 24 ∧ nv.elim 0 (fun v => v.token) < 256 ∧
      nv.elim 0 (fun v => v.net) < 65536 := by
    cases nv with
    | none => simp
    | some v =>
      simp only [Option.all_some, VoidRec.wf, stationOk, u8, u16, Bool.and_eq_true, decide_eq_true_eq] at hnv
      exact ⟨hnv.1.1, hnv.1.2, hnv.2⟩
  obtain ⟨hv1, hv2, hv3⟩ := hvoid
  simp only [getBody, putBody, putHeadFields, putNewVoid_eq, List.append_assoc]
  refine read_then (getHeadOpening_put hi ho hv _) (read_then (get1_put1 _ (headerFlags_lt _)) ?_)
  refine read_then (getStation_put1 _ hb) (read_then (get2_put2 _ hor) (read_then (getText_putText _ hga) ?_))
  refine read_then (get1_put1 _ hgr) (read_then (getBatch_put3 _ hch) (read_then (get1_put1 _ hpl) ?_))
  refine read_then (get1_put1 _ hen) (read_then (getBatch_put3 _ hnt) (read_then (getBatch_put3 _ hvt) ?_))
  refine read_then (get1_put1 _ hvc) (read_then (getBatchOpt_putBatch _ hre) ?_)
  refine read_then (getCodeOpt_putCodeOpt _ mem_endCauses (by decide)) ?_
  refine read_then (getCode_putCode _ (mem_adoptions h.adoption) (by decide)) ?_
  refine read_then (get1_put1 _ hlf) (read_then (get1_put1 _ hk) (read_then (getStation_put1 _ hv1) ?_))
  refine read_then (get1_put1 _ hv2) (read_then (get2_put2 _ hv3) ?_)
  simp only [headerFlags_dump, headerFlags_resumed, headerFlags_newVoid, decide_bit]
  cases nv <;> rfl

theorem getBody_recordBlock {b : BlockBody} (h : (Msg.recordBlock b).wf = true) (l : List Byte) :
    getBody .recordBlock (putBody (.recordBlock b) ++ l) = some (.recordBlock b) := by
  simp only [Msg.wf, u16, Bool.and_eq_true, decide_eq_true_eq, List.all_eq_true] at h
  obtain ⟨⟨⟨⟨hi, hv⟩, -⟩, hn⟩, hall⟩ := h
  simp [getBody, putBody, List.append_assoc, get1_put1, get2_put2, hi, hv, show b.items.length < 256 by omega,
    getItems_flatMap l b.items hall]

theorem getBody_chestEntered {b : ChestEnteredBody} (h : (Msg.chestEntered b).wf = true) (l : List Byte) :
    getBody .chestEntered (putBody (.chestEntered b) ++ l) = some (.chestEntered b) := by
  simp only [Msg.wf, u8, u16, stationOk, Bool.and_eq_true, decide_eq_true_eq] at h
  obtain ⟨⟨⟨⟨⟨⟨⟨⟨hi, hv⟩, ho⟩, hh⟩, ht⟩, hg⟩, hr⟩, hn⟩, htop⟩ := h
  have hfl := chestFlags_lt b.short b.flightLong false b.topups
  simp [getBody, getEntered, putBody, List.append_assoc, get1_put1, get2_put2, getStation_put1, hi, hv, ho, hh, ht, hg, hr,
    hn, show chestFlags b.short b.topups b.flightLong false < 256 by omega, chestFlags_short,
    chestFlags_topups _ _ _ _ htop, chestFlags_long]

theorem getBody_chestDone {b : ChestDoneBody} (h : (Msg.chestDone b).wf = true) (l : List Byte) :
    getBody .chestDone (putBody (.chestDone b) ++ l) = some (.chestDone b) := by
  simp only [Msg.wf, u8, u16, Bool.and_eq_true, decide_eq_true_eq] at h
  obtain ⟨⟨⟨⟨⟨hi, ht⟩, hg⟩, hr⟩, hn⟩, hk⟩ := h
  simp [getBody, getDone, putBody, List.append_assoc, get1_put1, get2_put2, hi, ht, hg, hr, hn, hk, getFlag_putFlag,
    getCode_putCode _ (mem_chestClasses b.cls) (show chestClasses.length < 256 by decide)]

/-- The body of every message in its ranges is read back, whatever follows it (R187, R188). -/
theorem getBody_putBody {m : Msg} (h : m.wf = true) (l : List Byte) : getBody (msgKind m) (putBody m ++ l) = some m := by
  cases m with
  | join b => exact getBody_join h l
  | presence b => exact getBody_presence h l
  | header b => exact getBody_header h l
  | recordBlock b => exact getBody_recordBlock h l
  | chestDone b => exact getBody_chestDone h l
  | chestEntered b => exact getBody_chestEntered h l
  | claim b =>
    simp only [Msg.wf, u8, u16, batchOk, Bool.and_eq_true, decide_eq_true_eq] at h
    obtain ⟨⟨⟨⟨⟨-, hi⟩, ho⟩, hg⟩, ht⟩, hn⟩ := h
    simp [msgKind, getBody, putBody, List.append_assoc, get1_put1, get2_put2, getText_putText, getBatch_put3, hi, ho, hg,
      ht, hn]
  | consent b =>
    simp only [Msg.wf, u16, stationOk, Bool.and_eq_true, decide_eq_true_eq] at h
    simp [msgKind, getBody, putBody, List.append_assoc, get2_put2, getStation_put1, h]
  | object b =>
    simp only [Msg.wf, u16, stationOk, Bool.and_eq_true, decide_eq_true_eq] at h
    simp [msgKind, getBody, putBody, List.append_assoc, get2_put2, getStation_put1, h,
      getCode_putCode _ (mem_objections b.reason) (show objections.length < 256 by decide)]
  | withdraw n => simp [msgKind, getBody, putBody, get2_put2, lt_of_u16 h]
  | recordAsk n => simp [msgKind, getBody, putBody, get2_put2, lt_of_u16 h]
  | sheetTaken n => simp [msgKind, getBody, putBody, get2_put2, lt_of_u16 h]
  | leaseDone n => simp [msgKind, getBody, putBody, get1_put1, lt_of_u8 h]
  | leaseCancel n => simp [msgKind, getBody, putBody, get1_put1, lt_of_u8 h]
  | hold n => simp [msgKind, getBody, putBody, List.append_assoc, get1_put1, lt_of_u8 h]
  | go n => simp [msgKind, getBody, putBody, List.append_assoc, get1_put1, lt_of_u8 h]
  | chestRefused b =>
    simp only [Msg.wf, u8, u16, Bool.and_eq_true, decide_eq_true_eq] at h
    simp [msgKind, getBody, putBody, List.append_assoc, get1_put1, get2_put2, h,
      getCode_putCode _ (mem_refuseReasons b.reason) (show refuseReasons.length < 256 by decide)]
  | fillVoid b =>
    simp only [Msg.wf, u8, u16, Bool.and_eq_true, decide_eq_true_eq] at h
    simp [msgKind, getBody, putBody, List.append_assoc, get1_put1, get2_put2, h]
  | markDone b =>
    simp only [Msg.wf, u8, u16, stationOk, Bool.and_eq_true, decide_eq_true_eq] at h
    simp [msgKind, getBody, putBody, List.append_assoc, get1_put1, get2_put2, getStation_put1, h,
      getCode_putCode _ (mem_hows b.how) (show hows.length < 256 by decide)]
  | markEntered b =>
    simp only [Msg.wf, u8, u16, stationOk, Bool.and_eq_true, decide_eq_true_eq] at h
    simp [msgKind, getBody, putBody, List.append_assoc, get1_put1, get2_put2, getStation_put1, h,
      getCode_putCode _ (mem_hows b.how) (show hows.length < 256 by decide)]
  | adopt b =>
    simp only [Msg.wf, u16, stationOk, Bool.and_eq_true, decide_eq_true_eq] at h
    simp [msgKind, getBody, putBody, List.append_assoc, get2_put2, getStation_put1, getFlag_putFlag, h]
  | leaseAsk b =>
    simp only [Msg.wf, u8, u16, Bool.and_eq_true, decide_eq_true_eq] at h
    simp [msgKind, getBody, putBody, List.append_assoc, get1_put1, get2_put2, h,
      getCode_putCode _ (mem_purposes b.purpose) (show purposes.length < 256 by decide)]
  | leaseGrant b =>
    simp only [Msg.wf, u8, u16, Bool.and_eq_true, decide_eq_true_eq] at h
    simp [msgKind, getBody, putBody, List.append_assoc, get1_put1, get2_put2, h,
      getCode_putCode _ (mem_slots b.slot) (show slots.length < 256 by decide)]
  | leaseEnd b =>
    simp [msgKind, getBody, putBody, List.append_assoc, get1_put1, lt_of_u8 h,
      getCode_putCode _ (mem_leaseEndReasons b.reason) (show leaseEndReasons.length < 256 by decide)]
  | noted b =>
    simp [msgKind, getBody, putBody, List.append_assoc, get2_put2, lt_of_u16 h,
      getCode_putCode _ (mem_frameKinds b.kind) (show frameKinds.length < 256 by decide),
      getCode_putCode _ (mem_notedResults b.result) (show notedResults.length < 256 by decide)]

/-! ### Lengths -/

@[simp] theorem length_put1 (n : Nat) : (put1 n).length = 1 := rfl
@[simp] theorem length_put2 (n : Nat) : (put2 n).length = 2 := rfl
@[simp] theorem length_put3 (n : Nat) : (put3 n).length = 3 := rfl
@[simp] theorem length_putStation (o : Option Nat) : (putStation o).length = 1 := rfl
@[simp] theorem length_putBatch (o : Option Nat) : (putBatch o).length = 3 := rfl
@[simp] theorem length_putFlag (b : Bool) : (putFlag b).length = 1 := rfl
@[simp] theorem length_putCode {α : Type} [BEq α] (codes : List α) (a : α) : (putCode codes a).length = 1 := rfl

@[simp] theorem length_putCodeOpt {α : Type} [BEq α] (codes : List α) (o : Option α) : (putCodeOpt codes o).length = 1 := by
  cases o <;> rfl

@[simp] theorem length_putNewVoid (o : Option VoidRec) : (putNewVoid o).length = 4 := by cases o <;> rfl

theorem length_putText {w : Nat} {t : Text} (h : textOk w t = true) : (putText w t).length = w := by
  simp only [textOk, Bool.and_eq_true, decide_eq_true_eq] at h
  simp only [putText, List.length_append, List.length_replicate]
  omega

@[simp] theorem length_putItem (i : Item) : (putItem i).length = 12 := by
  cases i <;> simp [putItem, putChest, putVoidItem]

/-- The body of a message in its ranges has a length that R188 allows its kind. -/
theorem length_putBody {m : Msg} (h : m.wf = true) : (putBody m).length ∈ bodyLengths (msgKind m) := by
  cases m with
  | claim b =>
    simp only [Msg.wf, Bool.and_eq_true] at h
    simp [putBody, msgKind, bodyLengths, length_putText h.1.2]
  | header b =>
    simp only [Msg.wf, Header.wf, Bool.and_eq_true] at h
    obtain ⟨⟨⟨⟨⟨⟨⟨⟨⟨⟨⟨⟨-, hga⟩, -⟩, -⟩, -⟩, -⟩, -⟩, -⟩, -⟩, -⟩, -⟩, -⟩, -⟩ := h
    simp [putBody, putHeadOpening, putHeadFields, msgKind, bodyLengths, length_putText hga]
  | recordBlock b =>
    simp only [Msg.wf, Bool.and_eq_true, decide_eq_true_eq] at h
    obtain ⟨⟨⟨-, h1⟩, h3⟩, -⟩ := h
    have hcount : b.items.length = 1 ∨ b.items.length = 2 ∨ b.items.length = 3 := by omega
    rcases hcount with hc | hc | hc <;> simp [putBody, msgKind, bodyLengths, hc]
  | _ => simp [putBody, msgKind, bodyLengths]

theorem le_of_mem_bodyLengths {k : FrameKind} {n : Nat} (h : n ∈ bodyLengths k) : n ≤ 43 := by
  cases k <;> simp [bodyLengths] at h <;> omega

/-! ### The whole frame -/

/-- A frame whose check is right and whose bytes lie in their ranges is classed by its kind (R3). -/
theorem classify_valid {d sr k n : Byte} {body : List Byte} {kind : FrameKind} {crc : List Byte}
    (hcrc : crc = put2 (crc16 (d :: sr :: k :: n :: body))) (hk : getCode frameKinds [k] = some (kind, []))
    (hn : n.toNat = body.length) (hb : body.length ∈ bodyLengths kind) (hd : d.toNat ≤ 24) (h1 : 1 ≤ sr.toNat)
    (hs : sr.toNat ≤ 24) :
    classify (d :: sr :: k :: n :: (body ++ crc)) = .valid kind { dst := d.toNat, src := sr.toNat } (getBody kind body) := by
  have hle := le_of_mem_bodyLengths hb
  have hlen : (d :: sr :: k :: n :: (body ++ crc)).length = body.length + 6 := by
    rw [hcrc]; simp
  have hcheck : checkGood (d :: sr :: k :: n :: (body ++ crc)) = true := by
    have htake : (d :: sr :: k :: n :: (body ++ crc)) = (d :: sr :: k :: n :: body) ++ crc := rfl
    have hplace : (d :: sr :: k :: n :: (body ++ crc)).length - 2 = (d :: sr :: k :: n :: body).length := by
      rw [hlen]; rfl
    rw [checkGood]
    simp only [hplace]
    rw [htake, List.take_left, List.drop_left, hcrc, beq_self_eq_true]
  have hbody : (body ++ crc).take ((body ++ crc).length - 2) = body := by
    rw [hcrc, List.length_append, length_put2, Nat.add_sub_cancel, List.take_left]
  have hform : ¬ (n.toNat ≠ body.length ∨ (!(bodyLengths kind).contains body.length) = true ∨ d.toNat > 24 ∨
      sr.toNat = 0 ∨ sr.toNat > 24) := by
    rw [List.contains_iff_mem.2 hb]
    simp only [Bool.not_true, Bool.false_eq_true, false_or]
    omega
  have h6 : ¬ body.length + 6 < 6 := by omega
  have h56 : ¬ body.length + 6 + 2 > 56 := by omega
  simp only [classify, hlen, hcheck, hbody, hk, h6, h56, if_false, Bool.not_true, Bool.false_eq_true, if_neg hform]

/-- Settles O54: the envelope, the length and the check are right, and the body is read back field by field. -/
theorem frameRoundTrip : Obligations.FrameRoundTrip := by
  intro e m he hm
  simp only [Env.wf, stationOk, Bool.and_eq_true, decide_eq_true_eq] at he
  obtain ⟨⟨hd, h1⟩, hs⟩ := he
  have hlen := length_putBody hm
  have hle := le_of_mem_bodyLengths hlen
  have hdst : (byte e.dst).toNat = e.dst := by rw [toNat_byte]; omega
  have hsrc : (byte e.src).toNat = e.src := by rw [toNat_byte]; omega
  have hcount : (byte (putBody m).length).toNat = (putBody m).length := by rw [toNat_byte]; omega
  have hkind : getCode frameKinds [byte (codeOf frameKinds (msgKind m))] = some (msgKind m, []) :=
    getCode_putCode [] (mem_frameKinds (msgKind m)) (by decide)
  have hbody : getBody (msgKind m) (putBody m) = some m := by
    have h := getBody_putBody hm []
    rwa [List.append_nil] at h
  have hvalid := classify_valid (d := byte e.dst) (sr := byte e.src) (body := putBody m) (crc := put2 (crc16 (frameContent e m))) rfl hkind hcount
    hlen (hdst.trans_le hd) (h1.trans_eq hsrc.symm) (hsrc.trans_le hs)
  rw [hdst, hsrc, hbody] at hvalid
  exact hvalid

end Sys2Proof.Machine

/-! ## The marker's strokes and requests (O41, O42) -/

namespace Sys2Proof.Machine

/-! ### Lanes and plates -/

section
variable {m : Marker} {k : Nat} {p : PlateName}

/-- The change of a lane as a change of the record. -/
theorem setLane_eq (m : Marker) (k : Nat) (f : Lane → Lane) :
    m.setLane k f = { m with lane1 := if k = 1 then f m.lane1 else m.lane1,
                             lane2 := if k = 1 then m.lane2 else f m.lane2 } := by
  unfold Marker.setLane
  split <;> rfl

theorem setPlate_eq (m : Marker) (p : PlateName) (f : Plate → Plate) :
    m.setPlate p f = { m with plateA := if p = .a then f m.plateA else m.plateA,
                              plateB := if p = .a then m.plateB else f m.plateB } := by
  cases p <;> rfl

@[simp] theorem lane_setLane (m : Marker) (k : Nat) (f : Lane → Lane) : (m.setLane k f).lane k = f (m.lane k) := by
  unfold Marker.setLane Marker.lane
  split <;> rfl

theorem setLane_setLane (m : Marker) (k : Nat) (f g : Lane → Lane) :
    (m.setLane k f).setLane k g = m.setLane k (fun l => g (f l)) := by
  simp only [setLane_eq]
  split <;> rfl

@[simp] theorem setLane_head (m : Marker) (k : Nat) (f : Lane → Lane) : (m.setLane k f).head = m.head := by
  rw [setLane_eq]
@[simp] theorem setLane_compose (m : Marker) (k : Nat) (f : Lane → Lane) : (m.setLane k f).compose = m.compose := by
  rw [setLane_eq]
@[simp] theorem setLane_arrivals (m : Marker) (k : Nat) (f : Lane → Lane) : (m.setLane k f).arrivals = m.arrivals := by
  rw [setLane_eq]
@[simp] theorem setLane_plate (m : Marker) (k : Nat) (f : Lane → Lane) (p : PlateName) :
    (m.setLane k f).plate p = m.plate p := by
  rw [setLane_eq]; cases p <;> rfl

@[simp] theorem looseReplaced_plate (m : Marker) (i o : Nat) (p : PlateName) : (m.looseReplaced i o).plate p = m.plate p := by
  cases p <;> rfl

@[simp] theorem setPlate_head (m : Marker) (p : PlateName) (f : Plate → Plate) : (m.setPlate p f).head = m.head := by
  cases p <;> rfl
@[simp] theorem setPlate_compose (m : Marker) (p : PlateName) (f : Plate → Plate) :
    (m.setPlate p f).compose = m.compose := by cases p <;> rfl
@[simp] theorem setPlate_arrivals (m : Marker) (p : PlateName) (f : Plate → Plate) :
    (m.setPlate p f).arrivals = m.arrivals := by cases p <;> rfl
@[simp] theorem setPlate_lane (m : Marker) (p : PlateName) (f : Plate → Plate) (k : Nat) :
    (m.setPlate p f).lane k = m.lane k := by cases p <;> rfl
@[simp] theorem plate_setPlate (m : Marker) (p : PlateName) (f : Plate → Plate) :
    (m.setPlate p f).plate p = f (m.plate p) := by cases p <;> rfl

/-- The print plate and the compose plate are two (R148). -/
@[simp] theorem compose_setPlate_print (m : Marker) (f : Plate → Plate) :
    (m.setPlate m.print f).plate m.compose = m.plate m.compose := by
  cases hc : m.compose <;> simp [Marker.print, hc, PlateName.other, Marker.setPlate, Marker.plate]

end

/-! ### What an event leaves to begin (R148, R149) -/

/-- No composition can begin: no chest has arrived, or the compose plate is taken. -/
abbrev Marker.ComposeRests (m : Marker) : Prop :=
  m.arrivals = [] ∨ ((m.plate m.compose).cond ≠ .empty ∧ (m.plate m.compose).cond ≠ .spent)

/-- No stroke can begin: the head is not IDLE, or the compose plate not READY. -/
abbrev Marker.StrokeRests (m : Marker) : Prop := m.head ≠ .idle ∨ (m.plate m.compose).cond ≠ .ready

section
variable {s : State} {m : Marker} {x : Eff Marker}

theorem strokeRests_of_empty (h : (m.plate m.compose).cond = .empty) : m.StrokeRests := .inr (by rw [h]; decide)

theorem composeFront_rests (h : m.ComposeRests) (n : Nat) : Marker.composeFront s n m = Eff.pure m := by
  cases n with
  | zero => rfl
  | succ n => rcases h with h | ⟨h1, h2⟩ <;> simp [Marker.composeFront, *]

theorem strokeStart_rests (h : m.StrokeRests) : m.strokeStart = m := by
  unfold Marker.strokeStart
  dsimp only
  split
  · next hh hc _ => rcases h with h | h <;> contradiction
  · rfl

theorem advance_rests (h1 : m.ComposeRests) (h2 : m.StrokeRests) : m.advance s = Eff.pure m := by
  rw [Marker.advance, composeFront_rests h1]
  simp only [Eff.andThen, Eff.pure, strokeStart_rests h2]
  rw [composeFront_rests h1]
  rfl

theorem andThen_rests (h1 : x.st.ComposeRests) (h2 : x.st.StrokeRests) : x.andThen (fun m => m.advance s) = x := by
  simp [Eff.andThen, advance_rests h1 h2, Eff.pure]

end

/-! ### Commands of the marker -/

section
variable {s t : State} {x : Eff Marker} {α : Type} {a : α} {k : Byte} {c : PortAnswer}

/-- A timer or an input of the marker whose actions raise no job. -/
theorem mark_done {f : State → Marker → Eff Marker} (h : Ready s) (hr : s.cfg.roles.mark = true)
    (hx : markInput s (f s) = x) (hp : ({ s with mark := x.st } : State).perform x.acts = (t, [])) :
    (Host.Outcome.next (s.actMark f) : Res) = .next t.tryTransmit := by
  refine next_eq (actAs_done (canSend_working h.1) hr ?_ (owed_of_perform hp h.2))
  rw [hx, ← hp]
  rfl

/-- One after which nothing can begin. -/
theorem mark_rests {f : State → Marker → Eff Marker} (h : Ready s) (hr : s.cfg.roles.mark = true) (hx : f s s.mark = x)
    (h1 : x.st.ComposeRests) (h2 : x.st.StrokeRests)
    (hp : ({ s with mark := x.st } : State).perform x.acts = (t, [])) :
    (Host.Outcome.next (s.actMark f) : Res) = .next t.tryTransmit :=
  mark_done h hr ((congrArg (fun y => Eff.andThen y _) hx).trans (andThen_rests h1 h2)) hp

/-- A request of the marker whose actions raise no job. -/
theorem request_mark {y : Eff Marker} {g : α → State → PortAnswer × Eff Marker} (h : PortTakes s .mark)
    (hg : g a s = (c, y)) (hy : y.andThen (fun m => m.advance s) = x)
    (hp : ({ s.answer k c [] with mark := x.st } : State).perform x.acts = (t, [])) :
    (Host.Outcome.next (s.request k .mark (.good a) (fun a s => s.portMark k (g a s))) : Res) = .next t.tryTransmit := by
  have htake : (fun a s => State.portMark s k (g a s)) a s = (t, []) := by
    rw [← hp]
    show State.portMark s k (g a s) = _
    rw [State.portMark, hg, ← hy]
    rfl
  exact next_eq (request_done s t k .mark a _ h htake (owed_of_perform hp h.2.2.2.2.2))

/-- One after which nothing can begin. -/
theorem request_mark_rests {g : α → State → PortAnswer × Eff Marker} (h : PortTakes s .mark) (hg : g a s = (c, x))
    (h1 : x.st.ComposeRests) (h2 : x.st.StrokeRests)
    (hp : ({ s.answer k c [] with mark := x.st } : State).perform x.acts = (t, [])) :
    (Host.Outcome.next (s.request k .mark (.good a) (fun a s => s.portMark k (g a s))) : Res) = .next t.tryTransmit :=
  request_mark h hg (andThen_rests h1 h2) hp

end

/-! ### The end of a stroke (O41) -/

section
variable {s : State} {m : Marker} {j : Job} {x : LaneEntry} {k : Nat}

theorem is_of_find {l : Lane} {i o : Nat} (h : l.find i o = some x) : x.inv = i ∧ x.ordinal = o := by
  have hx := List.find?_some h
  simpa [LaneEntry.is] using hx

theorem upd_upd_lane (l : Lane) (i o : Nat) (f g : LaneEntry → LaneEntry)
    (hf : ∀ e, e.is i o = true → (f e).is i o = true) :
    (l.upd i o f).upd i o g = l.upd i o (fun e => g (f e)) := by
  simp only [Lane.upd, List.map_map]
  congr 1
  refine List.map_congr_left fun e _ => ?_
  by_cases he : e.is i o = true
  · simp [he, hf e he]
  · simp [he]

/-- An entry PRINTED, its report opened: one change of the entry (R149, R152, R153). -/
theorem printed_opens (m : Marker) (s : State) (k : Nat) (x : LaneEntry) (how : How) :
    m.printed s k x how = Eff.mk'
      ((m.setLane k (fun l => l.upd x.inv x.ordinal (fun _ =>
        { x with state := .printed, cause := none, how := some how, answer := .none, waits := .nothing }))).looseReplaced
          x.inv x.ordinal)
      [openMark s x.inv x.ordinal how (s.markTo x.inv x.source)] := by
  simp only [Marker.printed, Marker.openEntry, setLane_setLane]
  congr 2
  congr 1
  funext l
  exact upd_upd_lane l x.inv x.ordinal _ _ (fun _ _ => by simp [LaneEntry.is])

theorem strokeEnd_prints (hh : m.head = .stroking) (hj : (m.plate m.print).job = some j)
    (hx : (m.lane j.lane).find j.inv j.ordinal = some x) (he : x.elsewhere = false) :
    m.strokeEnd s =
      ({ m.setPlate m.print (fun p => { p with cond := .spent }) with head := .idle, stroke := .stopped } : Marker).printed
        s j.lane x .printed := by
  simp [Marker.strokeEnd, Marker.strokeOver, hh, hj, hx, he]

theorem strokeExpired_faults (hh : m.head = .stroking) (ht : m.stroke.on = true)
    (hj : (m.plate m.print).job = some j) (hx : (m.lane j.lane).find j.inv j.ordinal = some x)
    (he : x.elsewhere = false) :
    m.strokeExpired s = ({ m with head := .held, stroke := .stopped } : Marker).faultEntry s.cfg j.lane x.inv x.ordinal
      .jam := by
  simp [Marker.strokeExpired, Marker.strokeOver, hh, ht, hj, hx, he]

end

/-- Settles O41. -/
theorem strokeEnds : Obligations.StrokeEnds := by
  intro s j x head h hr hl hhead hh ha hc hj hx he
  refine ⟨fun hroom => ?_, fun ht => ?_⟩
  · have hend := (strokeEnd_prints (s := s) hh hj hx he).trans (printed_opens _ s j.lane x .printed)
    have hcond : ((s.mark.setPlate s.mark.print (fun p => { p with cond := .spent })).plate s.mark.compose).cond = .empty :=
      (congrArg Plate.cond (compose_setPlate_print _ _)).trans hc
    refine (mark_rests h hr hend (.inl ?_) (strokeRests_of_empty ?_) (by exact perform_open _ _ _ _ _ _ h.1 hroom)).trans ?_
    · simp only [Eff.mk', looseReplaced_arrivals, setLane_arrivals, setPlate_arrivals, ha]
    · simp only [Eff.mk', looseReplaced_compose, looseReplaced_plate, setLane_compose, setLane_plate, setPlate_compose]
      exact hcond
    · simp only [setLane_eq, setPlate_eq]
      rfl
  · have hend := strokeExpired_faults (s := s) hh ht hj hx he
    refine (mark_rests h hr hend (.inl ?_) (.inl ?_) rfl).trans ?_
    · simp only [Marker.faultEntry, Eff.mk', setLane_arrivals, ha]
    · simp only [Marker.faultEntry, Eff.mk', setLane_head]
      decide
    · simp only [setLane_eq, jamReport, Marker.faultEntry, hhead]
      rfl


/-! ### CLEAR LANE (O42, R145) -/

section
variable {s : State} {m : Marker} {k head : Nat} {o : Overflow} {x : LaneEntry}

theorem clearLane_range (h : s.cfg.laneHead k = none) : m.clearLane s k = (.range, Eff.pure m) := by
  simp [Marker.clearLane, h]

theorem clearLane_state (h : (s.cfg.laneHead k).isSome = true) (h1 : (m.lane k).stray = false)
    (h2 : (m.lane k).laneOver = false) (h3 : (m.lane k).unconfirmed = false) :
    m.clearLane s k = (.state, Eff.pure m) := by
  simp [Marker.clearLane, Option.isSome_iff_ne_none.1 h, h1, h2, h3]

/-- A lane with its three flags cleared. -/
def Lane.cleared (l : Lane) : Lane := { l with stray := false, laneOver := false, unconfirmed := false }

theorem clearLane_stray (h : (s.cfg.laneHead k).isSome = true) (h1 : (m.lane k).stray = true)
    (h2 : (m.lane k).laneOver = false) (h3 : (m.lane k).unconfirmed = false) :
    m.clearLane s k = (.ok, Eff.pure (m.setLane k Lane.cleared)) := by
  simp only [Marker.clearLane, Option.isNone_eq_false_iff.2 h, h1, h2, h3]
  rfl

/-- No kept chest, or no room for it: none joins (R141). -/
theorem joinKept_none (h : (m.lane k).overflow = none ∨ 6 ≤ (m.lane k).queue.length) : m.joinKept k = (m, false) := by
  unfold Marker.joinKept
  dsimp only
  rcases h with h | h
  · simp [h]
  · split
    · rfl
    · have hfull : ((m.lane k).laneOver || decide ((m.lane k).count ≥ Config.lanePlaces)) = true := by
        rw [decide_eq_true (show (m.lane k).count ≥ Config.lanePlaces from h), Bool.or_true]
      simp [hfull]

/-- The kept chest joins the tail (R141). -/
theorem joinKept_joins (ho : (m.lane k).overflow = some o) (hf : (m.lane k).laneOver = false)
    (hl : (m.lane k).queue.length < 6) :
    m.joinKept k = (m.setLane k (fun l =>
      { l with queue := l.queue ++ [newEntry o.inv o.ordinal o.source], overflow := none }), true) := by
  have hroom : ¬ (m.lane k).count ≥ Config.lanePlaces := Nat.not_le.2 hl
  simp [Marker.joinKept, ho, hf, hroom]

theorem clearLane_full (h : (s.cfg.laneHead k).isSome = true) (h2 : (m.lane k).laneOver = true)
    (h3 : (m.lane k).unconfirmed = false) (hj : (m.lane k).overflow = none ∨ 6 ≤ (m.lane k).queue.length) :
    m.clearLane s k = (.ok, Eff.pure (m.setLane k Lane.cleared)) := by
  have hnone : (m.setLane k Lane.cleared).joinKept k = (m.setLane k Lane.cleared, false) :=
    joinKept_none (by rw [lane_setLane]; exact hj)
  simp only [Marker.clearLane, Option.isNone_eq_false_iff.2 h, h2, h3]
  simp [← Lane.cleared.eq_def, hnone]

/-- The lane that CLEAR LANE leaves where its kept chest joins. -/
def Lane.keptJoined (l : Lane) (o : Overflow) : Lane :=
  { l with stray := false, laneOver := false, unconfirmed := false, overflow := none,
           queue := l.queue ++ [newEntry o.inv o.ordinal o.source] }

theorem clearLane_joins (h : (s.cfg.laneHead k).isSome = true) (h2 : (m.lane k).laneOver = true)
    (h3 : (m.lane k).unconfirmed = false) (ho : (m.lane k).overflow = some o) (hl : (m.lane k).queue.length < 6) :
    m.clearLane s k = (.ok, (m.setLane k (fun l => l.keptJoined o)).holdTest s.cfg k true false) := by
  have hjoin : (m.setLane k Lane.cleared).joinKept k = (m.setLane k (fun l => l.keptJoined o), true) := by
    rw [joinKept_joins (o := o) (by rw [lane_setLane]; exact ho) (by rw [lane_setLane]; rfl)
      (by rw [lane_setLane]; exact hl), setLane_setLane]
    rfl
  simp only [Marker.clearLane, Option.isNone_eq_false_iff.2 h, h2, h3]
  simp [← Lane.cleared.eq_def, hjoin]

theorem clearLane_reopens (h : (s.cfg.laneHead k).isSome = true) (h2 : (m.lane k).laneOver = false)
    (h3 : (m.lane k).unconfirmed = true) :
    m.clearLane s k = (.ok, Eff.each (fun e (m : Marker) => m.openEntry s k e)
      ((m.lane k).queue.filter (fun e => e.state == .printed && !s.markInFlight e.inv e.ordinal))
      (m.setLane k Lane.cleared)) := by
  have hq : ((m.setLane k Lane.cleared).lane k).queue = (m.lane k).queue := by rw [lane_setLane]; rfl
  rw [← hq]
  simp only [Marker.clearLane, Option.isNone_eq_false_iff.2 h, h2, h3]
  simp [Eff.andThen, Eff.pure]
  rfl

/-- A joined entry leaves the lane below five: nothing is sent (R143). -/
theorem holdTest_few (h : (m.lane k).queue.length < 5) (cfg : Cfg) : m.holdTest cfg k true false = Eff.pure m := by
  unfold Marker.holdTest
  split
  · rfl
  · have hfew : ¬ (m.lane k).count ≥ 5 := Nat.not_le.2 h
    simp [hfew]

theorem holdTest_many {cfg : Cfg} (hh : cfg.laneHead k = some head) (h : 5 ≤ (m.lane k).queue.length) :
    m.holdTest cfg k true false = m.sendHold k head := by
  have hmany : (m.lane k).count ≥ 5 := h
  simp [Marker.holdTest, hh, hmany]

end

/-! ### REPRINT and HAND (R151, R152) -/

section
variable {s : State} {m : Marker} {k : Nat} {x : LaneEntry} {e : Entry} {c : Chest}

theorem reprint_range (h : s.cfg.laneHead k = none) : m.reprint s k = (.range, Eff.pure m) := by
  simp [Marker.reprint, h]

theorem handLane_range (h : s.cfg.laneHead k = none) : m.handLane s k = (.range, Eff.pure m) := by
  simp [Marker.handLane, h]

theorem handLane_state (h : (s.cfg.laneHead k).isSome = true) (hf : (m.lane k).oldestFault = none) :
    m.handLane s k = (.state, Eff.pure m) := by
  simp [Marker.handLane, Option.isSome_iff_ne_none.1 h, hf]

theorem reprint_state (h : (s.cfg.laneHead k).isSome = true) (hf : (m.lane k).oldestFault = none) :
    m.reprint s k = (.state, Eff.pure m) := by
  simp [Marker.reprint, Option.isSome_iff_ne_none.1 h, hf]

theorem reprint_strikes (h : (s.cfg.laneHead k).isSome = true) (hf : (m.lane k).oldestFault = some x)
    (hb : m.heldBy k x.inv x.ordinal = true) :
    m.reprint s k = (.ok, Eff.pure { m.setLane k (fun l =>
        l.upd x.inv x.ordinal (fun e => { e with state := .printing, cause := none })) with
      head := .stroking, stroke := .running 3000, link := (m.plate m.print).lines }) := by
  have hhead : m.head ≠ .stroking := by
    intro hs
    simp [Marker.heldBy, hs] at hb
  simp [Marker.reprint, Option.isSome_iff_ne_none.1 h, hf, hb, hhead, Config.strokeTime]

theorem reprint_queues (h : (s.cfg.laneHead k).isSome = true) (hf : (m.lane k).oldestFault = some x)
    (hb : m.heldBy k x.inv x.ordinal = false) (hs : m.head ≠ .stroking) (ha : m.arrivals = []) :
    m.reprint s k = (.ok, Eff.pure { m.setLane k (fun l =>
        l.upd x.inv x.ordinal (fun y => { y with state := .queued, cause := none })) with
      arrivals := [{ lane := k, inv := x.inv, ordinal := x.ordinal }] }) := by
  simp [Marker.reprint, Option.isSome_iff_ne_none.1 h, hf, hb, hs, ha]

/-- A head that is not HELD holds no plate (R150). -/
theorem releasePlate_unheld (hh : m.head ≠ .held) (k i o : Nat) : m.releasePlate k i o = m := by
  simp [Marker.releasePlate, Marker.heldBy, hh]

/-- With no chest arrived and the compose plate EMPTY there is no job to drop. -/
theorem dropJob_none (ha : m.arrivals = []) (hc : (m.plate m.compose).cond = .empty) (k i o : Nat) :
    m.dropJob k i o = m := by
  have hsame : ({ m with arrivals := m.arrivals.filter (fun j => !j.is k i o) } : Marker) = m := by
    rw [ha, List.filter_nil, ← ha]
  simp only [Marker.dropJob, hsame, hc]
  rfl

theorem handLane_prints (h : (s.cfg.laneHead k).isSome = true) (hf : (m.lane k).oldestFault = some x)
    (hh : m.head ≠ .held) (ha : m.arrivals = []) (hc : (m.plate m.compose).cond = .empty) :
    m.handLane s k = (.ok, m.printed s k x .hand) := by
  simp [Marker.handLane, Option.isSome_iff_ne_none.1 h, hf, Marker.handEntry, releasePlate_unheld hh, dropJob_none ha hc]

section
variable {i o : Nat} (hl : m.laneOf s.cfg i o = none) (h1 : m.lane1.overflow = none) (h2 : m.lane2.overflow = none)
  (hx : s.inv.find i = some e) (hc : e.data.chests.find? (fun y => y.ordinal == o) = some c)
include hl h1 h2 hx hc

/-- HAND of a chest outside every lane goes by the copy's record of it (R152). -/
theorem handChest_outside :
    m.handChest s i o = if c.stencil == .pending then (.ok, m.openLoose s i o none) else (.state, Eff.pure m) := by
  have hkeeps (k : Nat) : (m.lane k).keeps i o = false := by
    have hover : (m.lane k).overflow = none := by unfold Marker.lane; split <;> assumption
    simp [Lane.keeps, hover]
  simp [Marker.handChest, hl, hkeeps, hx, hc]

end

theorem printedOf_none {cfg : Cfg} {i o : Nat} (hl : m.laneOf cfg i o = none) : m.printedOf cfg i o = [] := by
  have hnone : ∀ k ∈ cfg.lanes, (m.lane k).find i o = none := by
    have := List.head?_eq_none_iff.1 hl
    rw [List.filterMap_eq_nil_iff] at this
    exact fun k hk => Option.map_eq_none_iff.1 (this k hk)
  rw [Marker.printedOf, List.filterMap_eq_nil_iff]
  intro k hk
  simp [hnone k hk]

theorem openLoose_first {i o : Nat} (hl : m.laneOf s.cfg i o = none) (hx : s.inv.find i = some e) (hm : m.loose = []) :
    m.openLoose s i o none = Eff.mk' { m with loose := [{ inv := i, ordinal := o, source := none, waits := .nothing }] }
      [openMark s i o .hand e.data.hdr.owner] := by
  simp [Marker.openLoose, hx, printedOf_none hl, hm, State.markTo]

end

/-! ### The job that a REPRINT queues, looked at at once (R148) -/

section
variable {s : State} {m : Marker} {j : Job} {e : Entry} {c : Chest} {n : Nat}

/-- The front job goes to FAULT, and none is left. -/
theorem composeFront_faults {f : LaneFault} (hf : Marker.composeFront s (n + 1) m =
      (({ m with arrivals := [] } : Marker).faultEntry s.cfg j.lane j.inv j.ordinal f).andThen (Marker.composeFront s n)) :
    Marker.composeFront s (n + 1) m =
      ({ m with arrivals := [] } : Marker).faultEntry s.cfg j.lane j.inv j.ordinal f := by
  rw [hf]
  have hnone : (({ m with arrivals := [] } : Marker).faultEntry s.cfg j.lane j.inv j.ordinal f).st.arrivals = [] := by
    simp only [Marker.faultEntry, Eff.mk', setLane_arrivals]
  rw [Eff.andThen, composeFront_rests (.inl hnone)]
  simp [Eff.pure]

variable (ha : m.arrivals = [j]) (hc : (m.plate m.compose).cond = .empty)
include ha hc

theorem composeFront_unknown (hx : s.inv.find j.inv = none) :
    Marker.composeFront s (n + 1) m =
      ({ m with arrivals := [] } : Marker).faultEntry s.cfg j.lane j.inv j.ordinal .noRecord :=
  composeFront_faults (by simp [Marker.composeFront, ha, hc, hx])

variable (hx : s.inv.find j.inv = some e)
include hx

theorem composeFront_missing (hn : e.data.chests.find? (fun c => c.ordinal == j.ordinal && c.net.isSome) = none)
    (hk : e.copy = .complete) :
    Marker.composeFront s (n + 1) m =
      ({ m with arrivals := [] } : Marker).faultEntry s.cfg j.lane j.inv j.ordinal .noRecord :=
  composeFront_faults (by simp [Marker.composeFront, ha, hc, hx, hn, hk])

theorem composeFront_waits (hn : e.data.chests.find? (fun c => c.ordinal == j.ordinal && c.net.isSome) = none)
    (hk : e.copy ≠ .complete) : Marker.composeFront s (n + 1) m = Eff.pure m := by
  simp [Marker.composeFront, ha, hc, hx, hn, hk]

variable (hn : e.data.chests.find? (fun c => c.ordinal == j.ordinal && c.net.isSome) = some c)
include hn

theorem composeFront_rejected (hg : e.data.hdr.grade ∈ s.start.rejected) :
    Marker.composeFront s (n + 1) m =
      ({ m with arrivals := [] } : Marker).faultEntry s.cfg j.lane j.inv j.ordinal .layout := by
  exact composeFront_faults (by simp [Marker.composeFront, ha, hc, hx, hn, hg])

end

section
variable {s : State} {m : Marker} {x : Eff Marker}

theorem advance_eq (h : Marker.composeFront s 3 m = x) (h1 : x.st.ComposeRests) (h2 : x.st.StrokeRests) :
    m.advance s = x := by
  rw [Marker.advance, h, Eff.andThen, strokeStart_rests h2, composeFront_rests h1]
  simp [Eff.pure]

theorem advance_waits (h : Marker.composeFront s 3 m = Eff.pure m) (h2 : m.StrokeRests) : m.advance s = Eff.pure m := by
  rw [Marker.advance, h]
  simp only [Eff.andThen, Eff.pure, strokeStart_rests h2]
  rw [h]
  rfl

end

section
variable {s t : State} {m : Marker} {k : Nat} {x : LaneEntry} {j : Job}

/-- The front job is composed where the compose plate is free and the copy holds its record (R148). -/
theorem composeFront_composes {e : Entry} {c : Chest} {n : Nat} (ha : m.arrivals = [j])
    (hp : (m.plate m.compose).cond = .empty ∨ (m.plate m.compose).cond = .spent) (hx : s.inv.find j.inv = some e)
    (hn : e.data.chests.find? (fun c => c.ordinal == j.ordinal && c.net.isSome) = some c)
    (hg : e.data.hdr.grade ∉ s.start.rejected) :
    Marker.composeFront s (n + 1) m = Eff.pure (m.startCompose s j e.data.hdr c) := by
  rcases hp with hp | hp <;> simp [Marker.composeFront, ha, hp, hx, hn, hg]

/-- The marker after REPRINT has queued the job of a FAULT entry (R151). -/
def Marker.requeued (m : Marker) (k : Nat) (x : LaneEntry) : Marker :=
  { m.setLane k (fun l => l.upd x.inv x.ordinal (fun y => { y with state := .queued, cause := none })) with
    arrivals := [{ lane := k, inv := x.inv, ordinal := x.ordinal }] }

theorem requeued_compose (m : Marker) (k : Nat) (x : LaneEntry) :
    ((m.requeued k x).plate (m.requeued k x).compose).cond = (m.plate m.compose).cond := by
  unfold Marker.requeued
  rw [setLane_eq]
  cases m.compose <;> rfl

/-- The code of a lane fault as a report's cause. -/
def LaneFault.code : LaneFault → CauseCode
  | .jam => .jam
  | .noRecord => .noRecord
  | .layout => .layout
  | .restart => .restart

theorem requeued_faults (ha : m.arrivals = []) (cfg : Cfg) (f : LaneFault) :
    ({ m.requeued k x with arrivals := [] } : Marker).faultEntry cfg k x.inv x.ordinal f =
      Eff.mk' (m.setLane k (fun l => l.upd x.inv x.ordinal (fun y => { y with state := .fault, cause := some f })))
        [jamReport cfg k x.inv x.ordinal f.code] := by
  have htwice (l : Lane) := upd_upd_lane l x.inv x.ordinal (fun y => { y with state := .queued, cause := none })
    (fun y => { y with state := .fault, cause := some f }) (fun _ h => h)
  have hrec (g : Lane → Lane) : ({ m.requeued k x with arrivals := [] } : Marker).setLane k g =
      m.setLane k (fun l => g (l.upd x.inv x.ordinal (fun y => { y with state := .queued, cause := none }))) := by
    by_cases hk : k = 1 <;> simp [Marker.requeued, Marker.setLane, hk, ha]
  simp only [Marker.faultEntry, hrec, htwice]
  cases f <;> rfl

theorem requeued_composes (m : Marker) (s : State) (k : Nat) (x : LaneEntry) (j : Job) (h : Header) (c : Chest) :
    (m.requeued k x).startCompose s j h c =
      { (m.setLane k (fun l => l.upd x.inv x.ordinal (fun y => { y with state := .queued, cause := none }))).setPlate
          m.compose (fun p => { p with job := some j, cond := .composing,
                                       building := renderPlate s h c (s.layoutOf h.grade) }) with
        arrivals := [{ lane := k, inv := x.inv, ordinal := x.ordinal }] } := by
  simp only [Marker.startCompose, Marker.requeued, setLane_eq, setPlate_eq]

end

theorem startCompose_cond (m : Marker) (s : State) (j : Job) (h : Header) (c : Chest) :
    ((m.startCompose s j h c).plate (m.startCompose s j h c).compose).cond = .composing := by
  simp only [Marker.startCompose, setPlate_compose, plate_setPlate]

theorem no_chest {l : List Chest} {o : Nat} (h : l.all (fun c => c.ordinal != o) = true) :
    l.find? (fun c => c.ordinal == o && c.net.isSome) = none := by
  refine List.find?_eq_none.2 fun c hc => ?_
  have hne := List.all_eq_true.1 h c hc
  simp only [bne_iff_ne] at hne
  simp [hne]

/-- The requests of a marker with no chest arrived and its compose plate EMPTY: nothing can begin. -/
structure PlateIdle (s : State) : Prop where
  takes : PortTakes s .mark
  arrivals : s.mark.arrivals = []
  cond : (s.mark.plate s.mark.compose).cond = .empty

section
variable {s t : State} {k : Nat} {x : LaneEntry} {y : Eff Marker} {a : PortAnswer} (h : PlateIdle s)
include h

theorem PlateIdle.composeRests : s.mark.ComposeRests := .inl h.arrivals
theorem PlateIdle.strokeRests : s.mark.StrokeRests := strokeRests_of_empty h.cond

theorem PlateIdle.lane (f : Lane → Lane) : (s.mark.setLane k f).ComposeRests ∧ (s.mark.setLane k f).StrokeRests := by
  refine ⟨.inl ?_, strokeRests_of_empty ?_⟩
  · rw [setLane_arrivals, h.arrivals]
  · rw [setLane_compose, setLane_plate, h.cond]

theorem PlateIdle.looseLane (f : Lane → Lane) (i o : Nat) : ((s.mark.setLane k f).looseReplaced i o).ComposeRests ∧
    ((s.mark.setLane k f).looseReplaced i o).StrokeRests := by
  refine ⟨.inl ?_, strokeRests_of_empty ?_⟩
  · rw [looseReplaced_arrivals, setLane_arrivals, h.arrivals]
  · rw [looseReplaced_compose, looseReplaced_plate, setLane_compose, setLane_plate, h.cond]

/-- A request that the marker answers without a change. -/
theorem PlateIdle.same {α : Type} {b : α} {c : Byte} {g : α → State → PortAnswer × Eff Marker}
    (hg : g b s = (a, Eff.pure s.mark)) :
    (Host.Outcome.next (s.request c .mark (.good b) (fun b s => s.portMark c (g b s))) : Res) =
      .next (State.tryTransmit (s.answer c a [])) :=
  request_mark_rests h.takes hg h.composeRests h.strokeRests rfl

/-- REPRINT of an entry without a plate: its job is looked at once (R148, R151). -/
theorem PlateIdle.reprints (hk : (s.cfg.laneHead k).isSome = true) (hf : (s.mark.lane k).oldestFault = some x)
    (hb : s.mark.heldBy k x.inv x.ordinal = false) (hs : s.mark.head ≠ .stroking)
    (hy : (s.mark.requeued k x).advance s = y)
    (hp : ({ s.answer 0x31#8 .ok [] with mark := y.st } : State).perform y.acts = (t, [])) :
    exec (.reprint (.good k)) s = .next t.tryTransmit := by
  refine request_mark h.takes (reprint_queues hk hf hb hs h.arrivals) ?_ hp
  rw [← hy]
  simp only [Eff.andThen, Eff.pure, List.nil_append]
  rfl

/-- The job goes to FAULT. -/
theorem PlateIdle.reprintFaults {f : LaneFault} (hk : (s.cfg.laneHead k).isSome = true)
    (hf : (s.mark.lane k).oldestFault = some x) (hb : s.mark.heldBy k x.inv x.ordinal = false)
    (hs : s.mark.head ≠ .stroking)
    (hc : Marker.composeFront s 3 (s.mark.requeued k x) =
      ({ s.mark.requeued k x with arrivals := [] } : Marker).faultEntry s.cfg k x.inv x.ordinal f) :
    exec (.reprint (.good k)) s =
      .next (State.tryTransmit { (s.answer 0x31#8 .ok []).report
          (Report.of .laneJam (some x.inv) (some x.ordinal) (s.cfg.laneHead k) (.code f.code)) with
        mark := s.mark.setLane k (fun l =>
          l.upd x.inv x.ordinal (fun y => { y with state := .fault, cause := some f })) }) := by
  have hadv := advance_eq (hc.trans (requeued_faults h.arrivals s.cfg f)) (h.lane _).1 (h.lane _).2
  exact h.reprints hk hf hb hs hadv rfl

/-- CLEAR LANE that clears the flags and no more. -/
theorem PlateIdle.clears {f : Lane → Lane} (hg : s.mark.clearLane s k = (.ok, Eff.pure (s.mark.setLane k f))) :
    exec (.clearLane (.good k)) s =
      .next (State.tryTransmit { s.answer 0x30#8 .ok [] with mark := s.mark.setLane k f }) :=
  request_mark_rests (g := fun k s => s.mark.clearLane s k) h.takes hg (h.lane f).1 (h.lane f).2 rfl

end

/-- Settles O42. -/
theorem laneRequests : Obligations.LaneRequests := by
  intro s k hp hw ha hc
  have h : PlateIdle s := ⟨hp, ha, hc⟩
  refine ⟨fun hn => ⟨?_, ?_, ?_⟩, fun hk h1 h2 h3 => ?_, fun hk h1 h2 h3 => ?_, fun hk hf hs => ⟨?_, ?_⟩,
    fun x hk hf hb => ?_, fun x hk hf hh hroom => ?_, fun b x c hl h1 h2 hx hch => ⟨fun hst => ?_, fun hst hlo hroom => ?_⟩,
    fun head hhead h2 h3 => ⟨fun hj => ?_, fun o ho => ⟨fun hlen => ?_, fun hlen hroom => ?_⟩⟩,
    fun hk h2 h3 => ⟨fun hq => ?_, fun x hq hroom => ?_⟩,
    fun x j hk hf hb hs hj => ⟨fun hx => ?_, fun e hx hall => ⟨fun hcopy => ?_, fun hcopy => ?_⟩,
      fun e c hx hch => ⟨fun hg => ?_, fun hg => ?_⟩⟩⟩
  · exact h.same (g := fun k s => s.mark.clearLane s k) (clearLane_range hn)
  · exact h.same (g := fun k s => s.mark.reprint s k) (reprint_range hn)
  · exact h.same (g := fun k s => s.mark.handLane s k) (handLane_range hn)
  · exact h.same (g := fun k s => s.mark.clearLane s k) (clearLane_state hk h1 h2 h3)
  · exact h.clears (clearLane_stray hk h1 h2 h3)
  · exact h.same (g := fun k s => s.mark.reprint s k) (reprint_state hk hf)
  · exact h.same (g := fun k s => s.mark.handLane s k) (handLane_state hk hf)
  · refine request_mark_rests (g := fun k s => s.mark.reprint s k) hp (reprint_strikes hk hf hb) (.inl ?_) (.inl ?_) rfl
    · exact (setLane_arrivals _ _ _).trans ha
    · simp [Eff.pure]
  · have hg := (handLane_prints (s := s) hk hf (by rw [hh]; decide) ha hc).trans (by rw [printed_opens])
    exact request_mark_rests (g := fun k s => s.mark.handLane s k) hp hg (h.looseLane _ _ _).1 (h.looseLane _ _ _).2
      (by exact perform_open _ _ _ _ _ _ hw hroom)
  · have hg := (handChest_outside (s := s) (m := s.mark) hl h1 h2 hx hch).trans (if_neg (by simpa using hst))
    exact h.same (b := b) (g := fun b s => s.mark.handChest s b.inv b.ordinal) hg
  · have hg := (handChest_outside (s := s) (m := s.mark) hl h1 h2 hx hch).trans
      ((if_pos (by simpa using hst)).trans (by rw [openLoose_first hl hx hlo]))
    exact request_mark_rests (a := b) (g := fun b s => s.mark.handChest s b.inv b.ordinal) hp hg h.composeRests
      (strokeRests_of_empty (by exact hc)) (by exact perform_open _ _ _ _ _ _ hw hroom)
  · exact h.clears (clearLane_full (by rw [hhead]; rfl) h2 h3 hj)
  · refine h.clears ((clearLane_joins (by rw [hhead]; rfl) h2 h3 ho (by omega)).trans (congrArg (Prod.mk _) (holdTest_few ?_ _)))
    rw [lane_setLane]
    simp only [Lane.keptJoined, List.length_append, List.length_cons, List.length_nil]
    omega
  · have hmany : 5 ≤ ((s.mark.setLane k (fun l => l.keptJoined o)).lane k).queue.length := by
      rw [lane_setLane]
      simp only [Lane.keptJoined, List.length_append, List.length_cons, List.length_nil]
      omega
    have hg := (clearLane_joins (s := s) (by rw [hhead]; rfl) h2 h3 ho (by omega)).trans
      (congrArg (Prod.mk _) ((holdTest_many hhead hmany).trans (by rw [Marker.sendHold, setLane_setLane])))
    exact request_mark_rests (g := fun k s => s.mark.clearLane s k) hp hg (h.lane _).1 (h.lane _).2
      (by exact perform_job _ _ _ _ hw hroom)
  · exact h.clears ((clearLane_reopens hk h2 h3).trans (by rw [hq]; rfl))
  · have hg := (clearLane_reopens (s := s) hk h2 h3).trans (by rw [hq, Eff.each, Marker.openEntry, setLane_setLane])
    exact request_mark_rests (g := fun k s => s.mark.clearLane s k) hp hg (h.looseLane _ _ _).1 (h.looseLane _ _ _).2
      (by exact perform_open _ _ _ _ _ _ hw hroom)
  all_goals subst hj
  all_goals have hplate := (requeued_compose s.mark k x).trans hc
  · exact h.reprintFaults hk hf hb hs (composeFront_unknown rfl hplate hx)
  · exact h.reprintFaults hk hf hb hs (composeFront_missing rfl hplate hx (no_chest hall) hcopy)
  · exact h.reprints hk hf hb hs (advance_waits (composeFront_waits rfl hplate hx (no_chest hall) hcopy) (strokeRests_of_empty hplate)) rfl
  · exact h.reprintFaults hk hf hb hs (composeFront_rejected rfl hplate hx hch hg)
  · have hcond := startCompose_cond (s.mark.requeued k x) s { lane := k, inv := x.inv, ordinal := x.ordinal } e.data.hdr c
    have hadv := advance_eq (composeFront_composes (n := 2) (s := s) rfl (.inl hplate) hx hch hg)
      (.inr (by simp only [Eff.pure, hcond]; decide)) (.inr (by simp only [Eff.pure, hcond]; decide))
    refine (h.reprints hk hf hb hs hadv rfl).trans ?_
    simp only [Eff.pure, requeued_composes]

end Sys2Proof.Machine

/-! ## The marker's inputs and its hold timer (O40) -/

namespace Sys2Proof.Machine

/-! ### The eye, a composition and the hold timer (R143, R144, R148, R149) -/

section
variable {s : State} {m : Marker} {k head : Nat} {x : LaneEntry} {j : Job}

section
variable (hh : s.cfg.laneHead k = some head)
include hh

theorem eye_stray (hs : (m.lane k).stray = true) : m.eye s k = Eff.pure m := by
  simp [Marker.eye, hh, hs]

theorem eye_early (hs : (m.lane k).stray = false) (ha : m.arrivals.any (fun j => j.lane == k) = true) :
    m.eye s k = Eff.mk' (m.setLane k (fun l => { l with stray := true }))
      [.report (Report.of .laneStray none none (some head) (.code .early))] := by
  simp only [Marker.eye, hh, hs, ha]
  rfl

theorem eye_unexpected (hs : (m.lane k).stray = false) (ha : m.arrivals.any (fun j => j.lane == k) = false)
    (hx : (m.lane k).queue.find? (fun e => e.state == .queued) = none) :
    m.eye s k = Eff.mk' (m.setLane k (fun l => { l with stray := true }))
      [.report (Report.of .laneStray none none (some head) (.code .unexpected))] := by
  simp only [Marker.eye, hh, hs, ha, hx]
  rfl

theorem eye_arrives (hs : (m.lane k).stray = false) (ha : m.arrivals.any (fun j => j.lane == k) = false)
    (hx : (m.lane k).queue.find? (fun e => e.state == .queued) = some x) :
    m.eye s k = Eff.pure { m with arrivals := m.arrivals ++ [{ lane := k, inv := x.inv, ordinal := x.ordinal }] } := by
  simp only [Marker.eye, hh, hs, ha, hx]
  rfl

theorem holdExpired_holds (ht : (m.lane k).holdT.on = true) (hn : 5 ≤ (m.lane k).queue.length) :
    m.holdExpired s k = m.sendHold k head := by
  have hcount : (m.lane k).count ≥ 5 := hn
  simp [Marker.holdExpired, hh, ht, hcount]

theorem holdExpired_stops (ht : (m.lane k).holdT.on = true) (hn : (m.lane k).queue.length < 5) :
    m.holdExpired s k = Eff.pure (m.setLane k (fun l => { l with holdT := .stopped })) := by
  have hcount : ¬ (m.lane k).count ≥ 5 := Nat.not_le.2 hn
  simp [Marker.holdExpired, hh, ht, hcount]

end

theorem composed_ready (hc : (m.plate m.compose).cond = .composing) :
    m.composed = m.setPlate m.compose (fun p => { p with lines := p.building, building := [], cond := .ready }) := by
  simp [Marker.composed, hc]

/-- An IDLE head strikes a READY plate (R149). -/
theorem strokeStart_strikes (hh : m.head = .idle) (hc : (m.plate m.compose).cond = .ready)
    (hj : (m.plate m.compose).job = some j) :
    m.strokeStart = { (m.setPlate m.compose (fun p => { p with cond := .inUse })).setLane j.lane (fun l =>
        l.upd j.inv j.ordinal (fun e => { e with state := .printing })) with
      compose := m.compose.other, arrivals := m.arrivals.filter (fun x => !x.is j.lane j.inv j.ordinal),
      head := .stroking, stroke := .running Config.strokeTime, link := (m.plate m.compose).lines } := by
  simp only [Marker.strokeStart, hh, hc, hj]

/-- A composition that ends on an IDLE head: the plate is struck at once (R148, R149). -/
theorem composed_strikes (s : State) (hh : m.head = .idle) (hc : (m.plate m.compose).cond = .composing)
    (hj : (m.plate m.compose).job = some j) (ha : m.arrivals = [j]) :
    m.composed.advance s = Eff.pure { (m.setPlate m.compose (fun p =>
        { p with lines := p.building, building := [], cond := .inUse })).setLane j.lane (fun l =>
          l.upd j.inv j.ordinal (fun e => { e with state := .printing })) with
      compose := m.compose.other, arrivals := [], head := .stroking, stroke := .running 3000,
      link := (m.plate m.compose).building } := by
  have hready : (m.composed.plate m.composed.compose) =
      { (m.plate m.compose) with lines := (m.plate m.compose).building, building := [], cond := .ready } := by
    rw [composed_ready hc, setPlate_compose, plate_setPlate]
  have hrests : m.composed.ComposeRests := .inr (by simp [hready])
  have hstrike := strokeStart_strikes (m := m.composed) (j := j) (by rw [composed_ready hc, setPlate_head, hh])
    (by rw [hready]) (by rw [hready]; exact hj)
  have hnone : m.composed.strokeStart.arrivals = [] := by
    rw [hstrike, composed_ready hc, setPlate_arrivals, ha]
    simp [Job.is]
  rw [Marker.advance, composeFront_rests hrests]
  simp only [Eff.andThen, Eff.pure]
  rw [composeFront_rests (.inl hnone)]
  simp only [Eff.pure, List.append_nil]
  congr 1
  rw [hstrike, hready, composed_ready hc, setPlate_arrivals, ha]
  have hself : [j].filter (fun x => !x.is j.lane j.inv j.ordinal) = [] := by simp [Job.is]
  rw [hself]
  simp only [setPlate_eq, setLane_eq]
  cases m.compose <;> rfl

end

theorem pure_andThen {σ : Type} (x : σ) (f : σ → Eff σ) : (Eff.pure x).andThen f = f x := by
  simp [Eff.andThen, Eff.pure]

/-! ### Entries that leave a lane (R141, R143) -/

/-- One block of a row acts, the others leave the state as it is. -/
theorem each_only {σ α : Type} {f : α → σ → Eff σ} {a : α} {x : σ} {y : Eff σ} {l : List α} (ha : a ∈ l) (hn : l.Nodup)
    (hy : f a x = y) (hrest : ∀ b ∈ l, b ≠ a → f b x = Eff.pure x ∧ f b y.st = Eff.pure y.st) : Eff.each f l x = y := by
  have still (z : σ) (r : List α) (hr : ∀ b ∈ r, f b z = Eff.pure z) : Eff.each f r z = Eff.pure z := by
    induction r with
    | nil => rfl
    | cons b r ih =>
      rw [List.forall_mem_cons] at hr
      rw [Eff.each, hr.1]
      simp [Eff.andThen, Eff.pure, ih hr.2]
  induction l with
  | nil => cases ha
  | cons b l ih =>
    rw [List.nodup_cons] at hn
    by_cases hb : b = a
    · subst hb
      have htail := still y.st l fun c hc => (hrest c (List.mem_cons_of_mem _ hc) fun he => hn.1 (he ▸ hc)).2
      rw [Eff.each, hy, Eff.andThen, htail]
      simp [Eff.pure]
    · have hl : a ∈ l := (List.mem_cons.1 ha).resolve_left (fun he => hb he.symm)
      have hfirst := (hrest b List.mem_cons_self hb).1
      rw [Eff.each, hfirst]
      simp [Eff.andThen, Eff.pure, ih hl hn.2 fun c hc => hrest c (List.mem_cons_of_mem _ hc)]

theorem nodup_lanes (cfg : Cfg) : cfg.lanes.Nodup := List.Nodup.filter _ (by decide)

theorem mem_lanes {cfg : Cfg} {k head : Nat} (h : cfg.laneHead k = some head) : k ∈ cfg.lanes := by
  refine List.mem_filter.2 ⟨?_, by rw [h]; rfl⟩
  unfold Cfg.laneHead at h
  split at h
  · next h1 => simp [h1]
  · split at h
    · next h2 => simp [h2]
    · cases h

theorem lane_one_or_two {cfg : Cfg} {k : Nat} (h : k ∈ cfg.lanes) : k = 1 ∨ k = 2 := by
  simpa using (List.mem_filter.1 h).1

/-- The other lane stays. -/
theorem lane_setLane_ne {m : Marker} {j k : Nat} (hj : j = 1 ∨ j = 2) (hk : k = 1 ∨ k = 2) (h : j ≠ k)
    (f : Lane → Lane) : (m.setLane k f).lane j = m.lane j := by
  rcases hj with rfl | rfl <;> rcases hk with rfl | rfl
  · exact absurd rfl h
  · rfl
  · rfl
  · exact absurd rfl h

/-- A lane without the entry and with its pair in the done list. -/
def Lane.marked (l : Lane) (i o : Nat) : Lane :=
  { l with queue := l.queue.filter (fun z => !z.is i o), done := l.done ++ [(i, o)] }

section
variable {m : Marker} {cfg : Cfg} {k head i o : Nat} {x : LaneEntry}

theorem removeWhere_none_lane (h : (m.lane k).find i o = none) :
    m.removeWhere cfg k true (fun e => e.is i o) = Eff.pure m := by
  have hnone : (m.lane k).queue.filter (fun e => e.is i o) = [] := by
    rw [List.filter_eq_nil_iff]
    exact fun e he => List.find?_eq_none.1 h e he
  simp [Marker.removeWhere, hnone]

/-- A PRINTED entry leaves, with its pair in the done list (R141). -/
theorem leave_marked (hh : m.head = .stroking) (ha : m.arrivals = []) (hc : (m.plate m.compose).cond = .empty)
    (hd : (m.lane k).done.length < 6) (hi : x.inv = i) (ho : x.ordinal = o) :
    m.leave k x true = m.setLane k (fun l => l.marked i o) := by
  subst hi ho
  have hlane : ({ m.lane k with queue := (m.lane k).queue.filter (fun z => !z.is x.inv x.ordinal) } : Lane).addDone
      (x.inv, x.ordinal) = (m.lane k).marked x.inv x.ordinal := by
    have hfit : ((m.lane k).done ++ [(x.inv, x.ordinal)]).length - 6 = 0 := by simp; omega
    simp only [Lane.addDone, hfit, List.drop_zero]
    rfl
  have hunheld : m.head ≠ .held := by rw [hh]; decide
  simp only [Marker.leave, releasePlate_unheld hunheld, dropJob_none ha hc, if_true]
  unfold Marker.setLane Marker.lane at *
  split <;> simp_all

/-- The hold test after entries left (R143). -/
theorem holdTest_left (hh : cfg.laneHead k = some head) :
    m.holdTest cfg k false true =
      if (m.lane k).queue.length = 4 then Eff.pure (m.setLane k (fun l => { l with holdT := .stopped }))
      else if (m.lane k).queue.length ≤ 3 ∧ (m.lane k).holdFlag = true then m.sendGo k head
      else Eff.pure m := by
  simp only [Marker.holdTest, hh, Lane.count, Bool.false_and, Bool.not_true, Bool.false_eq_true, if_false]
  rfl

/-- One PRINTED entry of the lane leaves: the hold test follows (R141). -/
theorem removeWhere_marked (hh : m.head = .stroking) (ha : m.arrivals = []) (hc : (m.plate m.compose).cond = .empty)
    (hover : (m.lane k).overflow = none) (hd : (m.lane k).done.length < 6)
    (hq : (m.lane k).queue.filter (fun z => z.is i o) = [x]) (hx : x.state = .printed) :
    m.removeWhere cfg k true (fun z => z.is i o) = (m.setLane k (fun l => l.marked i o)).holdTest cfg k false true := by
  have hmem : x ∈ (m.lane k).queue.filter (fun z => z.is i o) := by rw [hq]; exact List.mem_singleton_self x
  have his : x.inv = i ∧ x.ordinal = o := by simpa [LaneEntry.is] using (List.mem_filter.1 hmem).2
  have hleave := leave_marked hh ha hc hd his.1 his.2
  have hentry : m.removeEntry k true x = m.setLane k (fun l => l.marked i o) := by
    simp [Marker.removeEntry, hx, hleave]
  have hcount : ((m.setLane k (fun l => l.marked i o)).lane k).count + 1 = (m.lane k).count := by
    have hsplit := List.length_eq_length_filter_add (l := (m.lane k).queue) (fun z => z.is i o)
    rw [hq] at hsplit
    rw [lane_setLane]
    simp only [Lane.count, Lane.marked]
    simp only [List.length_singleton] at hsplit
    omega
  have hkept : (m.setLane k (fun l => l.marked i o)).joinKept k = (m.setLane k (fun l => l.marked i o), false) :=
    joinKept_none (.inl (by rw [lane_setLane]; exact hover))
  have hless : ((m.setLane k (fun l => l.marked i o)).lane k).count ≠ (m.lane k).count := by omega
  simp only [Marker.removeWhere, hq, List.foldl_cons, List.foldl_nil, hentry, if_neg hless, Marker.afterLeave, hkept]

end

/-- A lane of a marker at rest holds one PRINTED entry of a pair, and no other lane an entry of it (R141). -/
structure Printed (m : Marker) (cfg : Cfg) (k head i o : Nat) (x : LaneEntry) : Prop where
  lane : cfg.laneHead k = some head
  head : m.head = .stroking
  cond : (m.plate m.compose).cond = .empty
  arrivals : m.arrivals = []
  overflow : (m.lane k).overflow = none
  entry : (m.lane k).queue.filter (fun z => z.is i o) = [x]
  state : x.state = .printed
  done : (m.lane k).done.length < 6
  others : ∀ j ∈ cfg.lanes, j ≠ k → (m.lane j).find i o = none

section
variable {s s1 : State} {k head i o : Nat} {x : LaneEntry} {b : MarkEnteredBody} {f : Lane → Lane} {acts : List Act}

theorem Printed.rests {m : Marker} {cfg : Cfg} (h : Printed m cfg k head i o x) (f : Lane → Lane) :
    (m.setLane k f).ComposeRests ∧ (m.setLane k f).StrokeRests := by
  refine ⟨.inl ?_, .inl ?_⟩
  · rw [setLane_arrivals, h.arrivals]
  · rw [setLane_head, h.head]; decide

/-- What the marker makes of the MARK-ENTERED, for each outcome of the hold test (R141, R143). -/
theorem Printed.leaves (h : Printed s.mark s.cfg k head b.inv b.ordinal x)
    (ht : (s.mark.setLane k (fun l => l.marked b.inv b.ordinal)).holdTest s.cfg k false true =
      Eff.mk' (s.mark.setLane k f) acts) (src dst : Nat) :
    takeMark s (.frame src dst (.markEntered b) false) = Eff.mk' (s.mark.setLane k f) acts := by
  have hk := mem_lanes h.lane
  have hlane := (removeWhere_marked (cfg := s.cfg) h.head h.arrivals h.cond h.overflow h.done h.entry h.state).trans ht
  have hall : Eff.each (fun k (m : Marker) => m.removeWhere s.cfg k true (fun e => e.is b.inv b.ordinal)) s.cfg.lanes
      s.mark = Eff.mk' (s.mark.setLane k f) acts := by
    refine each_only hk (nodup_lanes _) hlane fun j hj hne => ⟨removeWhere_none_lane (h.others j hj hne), ?_⟩
    refine removeWhere_none_lane ?_
    rw [show (Eff.mk' (s.mark.setLane k f) acts).st = s.mark.setLane k f from rfl,
      lane_setLane_ne (lane_one_or_two hj) (lane_one_or_two hk) hne]
    exact h.others j hj hne
  exact (congrArg (fun y => Eff.andThen y _) hall).trans (andThen_rests (h.rests f).1 (h.rests f).2)

/-- The end of its own mark exchange is nothing to the marker (R153). -/
theorem Printed.confirmed (h : Printed s.mark s.cfg k head i o x) {z : Exchange} (hz : z.key = .markDone i o)
    (c : Option Msg) : takeMark s (.exEnded z .confirmed c false) = Eff.pure s.mark := by
  have hends : s.mark.takeExEnd s i o .confirmed = Eff.pure s.mark := by
    have still (l : List (Nat × LaneEntry)) :
        Eff.each (fun p (m : Marker) => m.entryReportEnds s.cfg .confirmed p.1 p.2) l s.mark = Eff.pure s.mark := by
      induction l with
      | nil => rfl
      | cons p l ih =>
        rw [Eff.each, show s.mark.entryReportEnds s.cfg .confirmed p.1 p.2 = Eff.pure s.mark from rfl]
        simp [Eff.andThen, Eff.pure, ih]
    by_cases hp : s.mark.printedOf s.cfg i o = []
    · exfalso
      have hfind : (s.mark.lane k).find i o = some x := by
        rw [Lane.find, ← List.head?_filter, h.entry]; rfl
      have hmem := (mem_printedOf s.mark s.cfg i o k x).2 ⟨mem_lanes h.lane, hfind, h.state⟩
      rw [hp] at hmem
      cases hmem
    · rw [takeExEnd_entries _ hp, still]
  have hev : s.mark.takeEv s (.exEnded z .confirmed c false) = Eff.pure s.mark := by
    show (match z.key with | .markDone inv ordinal => s.mark.takeExEnd s inv ordinal .confirmed | _ => Eff.pure s.mark) = _
    rw [hz]
    exact hends
  exact (congrArg (fun y => Eff.andThen y _) hev).trans (andThen_rests (.inl h.arrivals) (.inl (by simp [Eff.pure, h.head])))

end

/-! ### A frame that the invoice unit and the marker both take -/

section
variable {s t u : State} {b c : Block} {e : Ev} {q p : Jobs} {j : Nat}

/-- Two jobs in either order lead to the same state, and the notices that they raise find nothing to do. -/
theorem drain_either {l : List Block} (hl : l = [b, c] ∨ l = [c, b]) {t1 t2 : State} (n : Nat)
    (h1 : s.takeJob b e = (t1, q)) (h2 : t1.takeJob c e = (t, [])) (g1 : s.takeJob c e = (t2, []))
    (g2 : t2.takeJob b e = (t, q)) (hq : ∀ j ∈ q, t.takeJob j.1 j.2 = (t, [])) :
    drain (n + 2) s (l.map (fun b => (b, e))) = t := by
  rcases hl with rfl | rfl
  · refine drain_job (n := n + 1) h1 (drain_job (n := n) h2 (drain_idle t _ ?_ n))
    simpa using hq
  · refine drain_job (n := n + 1) g1 (drain_job (n := n) g2 (drain_idle t _ ?_ n))
    simpa using hq

/-- A list of two blocks in some order. -/
theorem perm_two {α : Type} {l : List α} {a b : α} (h : l.Perm [a, b]) : l = [a, b] ∨ l = [b, a] := by
  match l, h.length_eq, h with
  | [x, y], _, h =>
    rcases List.mem_cons.1 (h.subset List.mem_cons_self) with rfl | hb
    · exact .inl (congrArg _ (List.perm_singleton.1 h.cons_inv))
    · rw [List.mem_singleton.1 hb] at h ⊢
      exact .inr (congrArg _ (List.perm_singleton.1 (h.trans (.swap _ _ _)).cons_inv))

/-- The blocks that take a MARK-ENTERED, in the order of the event. -/
theorem markEntered_blocks (s : State) (b : MarkEnteredBody) :
    s.blockOrder.filter (fun c => (takers (.markEntered b)).contains c) = [.inv, .mark] ∨
      s.blockOrder.filter (fun c => (takers (.markEntered b)).contains c) = [.mark, .inv] := by
  exact perm_two ((blockOrder_perm s).filter _)

/-- A MARK-ENTERED heard, whether or not it ends the exchange of the own MARK-DONE: its jobs lead to `u`. -/
theorem hear_markEntered {d : Env} {b : MarkEnteredBody} (hs : s.canSend = true)
    (hin : (Hears s d (.markEntered b) ∧ t = s.heardFrom d.src) ∨
      ∃ z : Exchange, HearsEnd s d (.markEntered b) z ∧ z.key = .markDone b.inv b.ordinal ∧ t = s.heardEnding d.src z.id)
    (hend : ∀ z : Exchange, z.key = .markDone b.inv b.ordinal → ∀ m : Option Msg,
      t.usedChoice.takeJob .mark (.exEnded z .confirmed m false) = (t.usedChoice, []))
    (hd : ∀ l : List Block, l = [.inv, .mark] ∨ l = [.mark, .inv] → ∀ n : Nat,
      drain (n + 2) t.usedChoice (l.map (fun c => (c, .frame d.src d.dst (.markEntered b) false))) = u)
    (ho : u.head.owedDone = []) (hu : u.still) : exec (.markEntered d (some b)) s = .next u := by
  have hmore : ¬ (takers (.markEntered b)).length ≤ 1 := by simp [takers]
  refine next_eq (Eq.trans (b := s.act (fun s => s.receive .other d (some (.markEntered b)))) rfl ?_)
  rw [act_working _ _ (canSend_working hs), ← tryTransmit_quiet u hu]
  rcases hin with ⟨h, rfl⟩ | ⟨z, h, hz, rfl⟩
  · rw [receive_hears s d _ h, if_neg hmore]
    exact settle_drain (hd _ (markEntered_blocks _ b) 4094) ho
  · rw [receive_ends s d _ z h, if_neg hmore]
    have hblock : exBlock z.key = .mark := by rw [hz]; rfl
    have hjob := hend z hz (some (.markEntered b))
    rw [← hblock] at hjob
    refine settle_drain (drain_job (n := 4095) hjob ?_) ho
    rw [List.append_nil]
    exact hd _ (markEntered_blocks _ b) 4093

end

/-- The copy's part in a MARK-ENTERED: passed over below its version, taken at the next one (R36). -/
structure CopyTakes (i i' : Inv) (src : Nat) (b : MarkEnteredBody) (acts : List Act) : Prop where
  takes : ∀ s : State, i.takeFrame s src (.markEntered b) false = Eff.mk' i' acts
  acts : acts = [] ∨ acts = copyNotice b.inv
  phase : i'.phase ≠ .waitFree

section
variable {t : State} {d : Env} {b : MarkEnteredBody} {i' : Inv} {f : Lane → Lane} {acts l : List Act} {k head : Nat}
  {x : LaneEntry} {u : State}

/-- The two blocks in either order: the copy and the lane are changed, and what the hold test sends stands in the queue. -/
theorem markEntered_drains (hw : t.working = true) (hr : t.cfg.roles = { blend := false, head := false, mark := true, paper := false })
    (hi : CopyTakes t.inv i' d.src b l) (hm : Printed t.mark t.cfg k head b.inv b.ordinal x)
    (ht : (t.mark.setLane k (fun l => l.marked b.inv b.ordinal)).holdTest t.cfg k false true =
      Eff.mk' (t.mark.setLane k f) acts)
    (hp : ∀ i : Inv, ({ t with inv := i, mark := t.mark.setLane k f } : State).perform acts = ({ u with inv := i }, []))
    (hu : u.working = true ∧ u.inv = t.inv ∧ u.cfg = t.cfg ∧ u.mark = t.mark.setLane k f) (n : Nat) (o : List Block)
    (ho : o = [.inv, .mark] ∨ o = [.mark, .inv]) :
    drain (n + 2) t (o.map (fun c => (c, .frame d.src d.dst (.markEntered b) false))) = { u with inv := i' } := by
  obtain ⟨huw, hui, huc, hum⟩ := hu
  have hmark : t.cfg.roles.mark = true := by rw [hr]
  have hpaper : t.cfg.roles.paper = false := by rw [hr]
  obtain ⟨q, hq, hblocks⟩ : ∃ q : List Block, (∀ v : State, v.perform l = (v, q.map (fun c => (c, Ev.copyChanged b.inv)))) ∧
      ∀ c ∈ q, c = .mark ∨ c = .paper := by
    rcases hi.acts with h | h
    · exact ⟨[], fun v => by rw [h]; rfl, by simp⟩
    · exact ⟨[.mark, .paper], fun v => by rw [h]; exact perform_posts _ _ _, by simp⟩
  have inv (v : State) (hvw : v.working = true) (hvi : v.inv = t.inv) :
      v.takeJob .inv (.frame d.src d.dst (.markEntered b) false) =
        ({ v with inv := i' }, q.map (fun c => (c, Ev.copyChanged b.inv))) := by
    have htake : takeInv v (.frame d.src d.dst (.markEntered b) false) = Eff.mk' i' l :=
      takeInv_frame (by rw [hvi]; exact hi.takes v) hi.phase
    exact job_inv hvw htake (hq _)
  have mark (i : Inv) : ({ t with inv := i } : State).takeJob .mark (.frame d.src d.dst (.markEntered b) false) =
      ({ u with inv := i }, []) := by
    rw [takeJob_mark _ _ (by exact hw) (by exact hmark)]
    have hleaves := Printed.leaves (s := { t with inv := i }) hm ht d.src d.dst
    show State.runMark _ (takeMark _ _) = _
    rw [hleaves]
    exact hp i
  refine drain_either ho n (inv t hw rfl) (mark i') (mark t.inv) (t2 := { u with inv := t.inv })
    (inv { u with inv := t.inv } huw rfl) fun j hj => ?_
  obtain ⟨c, hc, rfl⟩ := List.mem_map.1 hj
  rcases hblocks c hc with rfl | rfl
  · rw [takeJob_mark _ _ (by exact huw) (by rw [show ({ u with inv := i' } : State).cfg = u.cfg from rfl, huc]; exact hmark)]
    have hrests := hm.rests f
    rw [← hum] at hrests
    have hidle : takeMark { u with inv := i' } (.copyChanged b.inv) = Eff.pure u.mark :=
      andThen_rests (x := Eff.pure u.mark) hrests.1 hrests.2
    exact congrArg (State.runMark _) hidle
  · exact takeJob_no_paper _ _ (by rw [show ({ u with inv := i' } : State).cfg = u.cfg from rfl, huc]; exact hpaper)

end

/-! ### The two entry points of a MARK-ENTERED heard -/

/-- A state that differs in the line only, which is short of its gap; its queue is the same. -/
structure HeardOnly (s t : State) : Prop where
  line : t = { s with line := t.line }
  still : t.still
  queue : t.line.txq = s.line.txq

section
variable {s t : State} {d : Env} {b : MarkEnteredBody} {i : Inv} {f : Lane → Lane} {l : List Act} {k head : Nat}
  {x : LaneEntry}

theorem HeardOnly.jobRoom (h : HeardOnly s t) (hroom : JobRoom s) : JobRoom t := by
  rw [JobRoom, h.queue]
  exact hroom

/-- The grounds of clause R26: a frame heard, or one that ends the exchange of the own MARK-DONE. -/
def EntersMark (s t : State) (d : Env) (b : MarkEnteredBody) : Prop :=
  (Hears s d (.markEntered b) ∧ t = s.heardFrom d.src) ∨
    ∃ z : Exchange, HearsEnd s d (.markEntered b) z ∧ z.key = .markDone b.inv b.ordinal ∧ t = s.heardEnding d.src z.id

theorem EntersMark.ready (h : EntersMark s t d b) : Ready s := by
  rcases h with ⟨h, _⟩ | ⟨z, h, _⟩ <;> exact h.1

theorem EntersMark.heardOnly (h : EntersMark s t d b) : HeardOnly s t := by
  rcases h with ⟨_, rfl⟩ | ⟨z, _, _, rfl⟩
  · exact ⟨rfl, heardFrom_still _ _, heardFrom_txq _ _⟩
  · exact ⟨rfl, heardEnding_still _ _ _, heardFrom_txq _ _⟩

/-- Copy and lane, whatever the hold test sends: `u` is the state that its actions leave. -/
theorem EntersMark.settles {acts : List Act} {u : State} (h : EntersMark s t d b)
    (hr : s.cfg.roles = { blend := false, head := false, mark := true, paper := false })
    (hi : CopyTakes s.inv i d.src b l) (hm : Printed s.mark s.cfg k head b.inv b.ordinal x)
    (ht : (s.mark.setLane k (fun l => l.marked b.inv b.ordinal)).holdTest s.cfg k false true =
      Eff.mk' (s.mark.setLane k f) acts)
    (hp : ∀ i : Inv, ({ t.usedChoice with inv := i, mark := s.mark.setLane k f } : State).perform acts =
      ({ u with inv := i }, []))
    (hu : u = { t.usedChoice with line := u.line, mark := s.mark.setLane k f }) (hs : u.still) :
    exec (.markEntered d (some b)) s = .next { u with inv := i } := by
  have hready := h.ready
  have hw := canSend_working hready.1
  have hheard := h.heardOnly.line
  obtain ⟨lt, rfl⟩ : ∃ lt : Line, t = { s with line := lt } := ⟨_, hheard⟩
  obtain ⟨lu, rfl⟩ : ∃ lu : Line, u = { s.usedChoice with line := lu, mark := s.mark.setLane k f } := ⟨_, hu⟩
  refine hear_markEntered hready.1 h (fun z hz m => ?_) (fun o ho n => ?_) (by exact hready.2) (by exact hs)
  · rw [takeJob_mark _ _ (by exact hw) (by exact congrArg Roles.mark hr)]
    exact congrArg (State.runMark _) (Printed.confirmed (s := ({ s with line := lt } : State).usedChoice) hm hz m)
  · exact markEntered_drains (t := ({ s with line := lt } : State).usedChoice) (by exact hw) hr hi hm ht hp
      ⟨hw, rfl, rfl, rfl⟩ n o ho

/-- A MARK-ENTERED not above the copy's version changes no copy (R36). -/
theorem copyTakes_old {y : Entry} (hph : s.inv.phase ≠ .waitFree) (hx : s.inv.find b.inv = some y) (ho : y.own = none)
    (hc : y.copy = .complete) (hsrc : y.data.hdr.owner = d.src) (hv : b.version ≤ y.data.hdr.version) :
    CopyTakes s.inv s.inv d.src b [] where
  takes _ := takeEntry_old hx ho hc hsrc hv
  acts := .inl rfl
  phase := hph

/-- One of the next version marks the chest of the copy (R26, R36). -/
theorem copyTakes_next {y : Entry} (hph : s.inv.phase ≠ .waitFree) (hx : s.inv.find b.inv = some y) (ho : y.own = none)
    (hc : y.copy = .complete) (hsrc : y.data.hdr.owner = d.src) (hv : b.version = y.data.hdr.version + 1)
    (hord : y.data.hasOrdinal b.ordinal = true) :
    CopyTakes s.inv (s.inv.upd b.inv (fun u =>
      { u with data := (y.data.setMark b.ordinal b.how b.marker).atVersion b.version })) d.src b (copyNotice b.inv) where
  takes _ := takeEntry_next hx ho hc hsrc hv (if_pos hord)
  acts := .inr rfl
  phase := hph

/-- Clause R26 of O40, for either version and either ground. -/
theorem EntersMark.outcomes (h : EntersMark s t d b)
    (hr : s.cfg.roles = { blend := false, head := false, mark := true, paper := false })
    (hi : CopyTakes s.inv i d.src b l) (hm : Printed s.mark s.cfg k head b.inv b.ordinal x) :
    ((s.mark.lane k).queue.length = 5 →
      exec (.markEntered d (some b)) s = .next { t with
        blockChoice := s.blockChoice / 720, inv := i,
        mark := s.mark.setLane k (fun l => { l.marked b.inv b.ordinal with holdT := .stopped }) }) ∧
    (((s.mark.lane k).queue.length = 6 ∨ (s.mark.lane k).queue.length ≤ 4 ∧ (s.mark.lane k).holdFlag = false) →
      exec (.markEntered d (some b)) s = .next { t with
        blockChoice := s.blockChoice / 720, inv := i,
        mark := s.mark.setLane k (fun l => l.marked b.inv b.ordinal) }) ∧
    ((s.mark.lane k).queue.length ≤ 4 → (s.mark.lane k).holdFlag = true → JobRoom s →
      exec (.markEntered d (some b)) s = .next { t.queues (jobFrame head (.go k) .plain) with
        blockChoice := s.blockChoice / 720, inv := i,
        mark := s.mark.setLane k (fun l => { l.marked b.inv b.ordinal with holdFlag := false, holdT := .stopped }) }) := by
  have htest := holdTest_left (m := s.mark.setLane k (fun l => l.marked b.inv b.ordinal)) hm.lane
  simp only [lane_setLane] at htest
  have hcount : ((s.mark.lane k).marked b.inv b.ordinal).queue.length + 1 = (s.mark.lane k).queue.length := by
    have hsplit := List.length_eq_length_filter_add (l := (s.mark.lane k).queue) (fun z => z.is b.inv b.ordinal)
    rw [hm.entry, List.length_singleton] at hsplit
    simp only [Lane.marked]
    omega
  have hflag : ((s.mark.lane k).marked b.inv b.ordinal).holdFlag = (s.mark.lane k).holdFlag := rfl
  have hblock : t.blockChoice = s.blockChoice := by rw [h.heardOnly.line]
  rw [hflag] at htest
  rw [← hblock]
  refine ⟨fun hn => ?_, fun hn => ?_, fun hn hf hroom => ?_⟩
  · rw [if_pos (by omega)] at htest
    rw [setLane_setLane] at htest
    exact h.settles hr hi hm htest (fun _ => rfl) (u := { t.usedChoice with mark := _ }) rfl h.heardOnly.still
  · have hkeeps : ¬ (((s.mark.lane k).marked b.inv b.ordinal).queue.length ≤ 3 ∧ (s.mark.lane k).holdFlag = true) := by
      rintro ⟨hle, hf⟩
      rcases hn with hn | ⟨_, hn⟩
      · omega
      · rw [hn] at hf
        cases hf
    rw [if_neg (by omega), if_neg hkeeps] at htest
    exact h.settles hr hi hm htest (fun _ => rfl) (u := { t.usedChoice with mark := _ }) rfl h.heardOnly.still
  · rw [if_neg (by omega), if_pos ⟨by omega, hf⟩, Marker.sendGo, setLane_setLane] at htest
    have hsend : t.canSend = true := by rw [h.heardOnly.line]; exact h.ready.1
    exact h.settles hr hi hm htest
      (fun _ => perform_job _ head (.go k) .plain (by exact hsend) (by exact h.heardOnly.jobRoom hroom))
      (u := { (t.usedChoice).queues (jobFrame head (.go k) .plain) with mark := _ }) rfl h.heardOnly.still

end

/-- Settles O40. -/
theorem laneInputs : Obligations.LaneInputs := by
  refine ⟨?_, ?_, ?_, ?_, ?_⟩
  · intro s k head x y c h hr hl hh hc ha hs hq hx hn hg
    have hrest := startCompose_cond { s.mark with arrivals := [{ lane := k, inv := x.inv, ordinal := x.ordinal }] } s
      { lane := k, inv := x.inv, ordinal := x.ordinal } y.data.hdr c
    have hcomp := advance_eq (s := s) (composeFront_composes (n := 2)
        (m := { s.mark with arrivals := [{ lane := k, inv := x.inv, ordinal := x.ordinal }] }) rfl hc hx hn (by simpa using hg))
      (.inr (by simp only [Eff.pure, hrest]; decide)) (.inr (by simp only [Eff.pure, hrest]; decide))
    have heye := eye_arrives (m := s.mark) hl hs (by rw [ha]; rfl) hq
    rw [ha, List.nil_append] at heye
    have hinput := (congrArg (fun z => Eff.andThen z (fun m => m.advance s)) heye).trans
      ((pure_andThen _ _).trans hcomp)
    refine (mark_done (f := fun s m => m.eye s k) h hr hinput rfl).trans ?_
    simp only [Eff.pure, Marker.startCompose, setPlate_eq]
  · intro s j h hr hh hc hj ha
    exact mark_done h hr (composed_strikes s hh hc hj ha) rfl
  · intro s d b y k head x h hr hph hx ho hcopy hsrc hv hl hh hc ha hover hq hp hd hothers
    have hm : Printed s.mark s.cfg k head b.inv b.ordinal x := ⟨hl, hh, hc, ha, hover, hq, hp, hd, hothers⟩
    obtain ⟨hfive, _, hfew⟩ := EntersMark.outcomes (.inl ⟨h, rfl⟩) hr (copyTakes_old hph hx ho hcopy hsrc hv) hm
    exact ⟨hfive, hfew⟩
  · intro s d b y k head x t i ht hi hr hph hx ho hcopy hsrc hl hh hc ha hover hq hp hd hothers
    have hm : Printed s.mark s.cfg k head b.inv b.ordinal x := ⟨hl, hh, hc, ha, hover, hq, hp, hd, hothers⟩
    rcases hi with ⟨hv, rfl⟩ | ⟨hv, hord, rfl⟩
    · exact EntersMark.outcomes ht hr (copyTakes_old hph hx ho hcopy hsrc hv) hm
    · exact EntersMark.outcomes ht hr (copyTakes_next hph hx ho hcopy hsrc hv hord) hm
  · intro s k head h hr hl hh hc
    have hstroke : ∀ m : Marker, m.head = s.mark.head → m.StrokeRests := fun m hm => .inl (by rw [hm, hh]; decide)
    have hcomposing : s.mark.ComposeRests := .inr (by rw [hc]; decide)
    have harrived : ∀ l, ({ s.mark with arrivals := l } : Marker).ComposeRests := fun l => .inr (by
      rw [show ({ s.mark with arrivals := l } : Marker).plate s.mark.compose = s.mark.plate s.mark.compose from rfl, hc]
      decide)
    have hlane : ∀ f, (s.mark.setLane k f).ComposeRests := fun f => .inr (by
      rw [setLane_compose, setLane_plate, hc]; decide)
    refine ⟨fun hn ht hroom => ?_, fun hn ht => ?_, fun hs => ?_, fun x hs ha hq => ?_, fun hs ha => ?_,
      fun hs ha hq => ?_, ?_⟩
    · exact mark_rests h hr (holdExpired_holds hl ht hn) (hlane _) (hstroke _ (setLane_head _ _ _))
        (by exact perform_job _ head (.hold k) .plain h.1 hroom)
    · exact mark_rests h hr (holdExpired_stops hl ht hn) (hlane _) (hstroke _ (setLane_head _ _ _)) rfl
    · exact mark_rests (f := fun s m => m.eye s k) h hr (eye_stray hl hs) hcomposing (hstroke _ rfl) rfl
    · exact mark_rests (f := fun s m => m.eye s k) h hr (eye_arrives hl hs ha hq) (harrived _) (hstroke _ rfl) rfl
    · exact mark_rests (f := fun s m => m.eye s k) h hr (eye_early hl hs ha) (hlane _)
        (hstroke _ (setLane_head _ _ _)) rfl
    · exact mark_rests (f := fun s m => m.eye s k) h hr (eye_unexpected hl hs ha hq) (hlane _)
        (hstroke _ (setLane_head _ _ _)) rfl
    · have hready : ((s.mark.setPlate s.mark.compose (fun p =>
          { p with lines := p.building, building := [], cond := .ready })).plate s.mark.compose).cond = .ready := by
        rw [plate_setPlate]
      refine mark_rests (f := fun _ m => Eff.pure m.composed) h hr (congrArg Eff.pure (composed_ready hc)) (.inr ?_)
        (hstroke _ (setPlate_head _ _ _)) rfl
      simp only [Eff.pure, setPlate_compose, hready]
      decide

end Sys2Proof.Machine

/-! ## The confirm timers and the presence timer (O28) -/

namespace Sys2Proof.Machine

/-! ### The confirm timer (R14, R16) -/

section
variable {s t u : State} {k : ExKey} {x : Exchange}

/-- The exchange of the confirm timer leaves, with its report (R16). -/
def State.unconfirmed (s : State) (x : Exchange) : State :=
  { s.report (x.failReport .noConfirm) with
    line := { s.line with exchanges := s.line.exchanges.filter (fun (y : Exchange) => y.id != x.id) } }

section
variable (hx : s.line.exchanges.find? (fun y => y.key == k && y.timer.on) = some x)
include hx

theorem key_of_running : x.key = k := by
  have h := List.find?_some hx
  simp only [Bool.and_eq_true, beq_iff_eq] at h
  exact h.1

theorem confirmExpired_again (hc : s.canSend = true) (hr : x.resends < 3) (hroom : JobRoom s) :
    s.confirmExpired k = (({ s with line := s.line.restEx x.id 1 } : State).queues (jobFrame x.dst x.msg (.exch x.id)), []) := by
  simp only [State.confirmExpired, hx, hr, if_true]
  exact sendFrame_room _ _ hc hroom

theorem confirmExpired_waits (hr : 3 ≤ x.resends) (hp : x.patient = true) :
    s.confirmExpired k = ({ s with line := s.line.restEx x.id 0 }, []) := by
  simp [State.confirmExpired, hx, Nat.not_lt.2 hr, hp]

theorem confirmExpired_fails (hr : 3 ≤ x.resends) (hp : x.patient = false) :
    s.confirmExpired k = (s.unconfirmed x, [(exBlock x.key, .exEnded x .noConfirm none false)]) := by
  simp only [State.confirmExpired, hx, if_neg (Nat.not_lt.2 hr), hp]
  rfl

/-- A confirm timer that expires for the last time: the block of the exchange takes its end. -/
theorem confirm_fails (h : Ready s) (hr : 3 ≤ x.resends) (hp : x.patient = false)
    (hjob : (s.unconfirmed x).takeJob (exBlock k) (.exEnded x .noConfirm none false) = (t, []))
    (ho : t.head.owedDone = []) : exec (.confirmTimerExpiry k) s = .next t.tryTransmit := by
  refine next_eq ((act_working s _ (canSend_working h.1)).trans ?_)
  rw [confirmExpired_fails hx hr hp, key_of_running hx]
  exact settle_one _ _ _ _ hjob ho

end

end

/-! ### What the failed exchange was of -/

section
variable {s : State} {a : Arb} {x : Exchange} {l m : Lease} {n : Nat}

theorem slotNumbered_retired (h1 : a.current.all (fun l => l.number != n) = true)
    (h2 : a.next.all (fun l => l.number != n) = true) : a.slotNumbered n = none := by
  cases hc : a.current <;> cases hn : a.next <;> simp_all [Arb.slotNumbered, Option.filter]

/-- A failed grant: the lease it was of is freed (R97). -/
theorem takeArb_grantFailed (hk : x.key = .leaseGrant n) (c : Option Msg) (b : Bool) :
    takeArb s (.exEnded x .noConfirm c b) = s.arb.freeNumber s n (fun l =>
      [.report (Report.of .leaseLost (some l.inv) none (some l.head) .absent), endAct l.head l.number .headAbsent]) := by
  show s.arb.takeExEnd s x .noConfirm c = _
  simp [Arb.takeExEnd, hk]

theorem freeNumber_retired (h1 : a.current.all (fun l => l.number != n) = true)
    (h2 : a.next.all (fun l => l.number != n) = true) (f : Lease → List Act) : a.freeNumber s n f = Eff.pure a := by
  rw [Arb.freeNumber, slotNumbered_retired h1 h2]

/-- With no one queued behind it, a freed CURRENT leaves the gate closed. -/
theorem freeNumber_current (hq : a.queue = []) (hc : a.current = some l) (hl : l.number = n) (hn : a.next = none)
    (f : Lease → List Act) : a.freeNumber s n f = Eff.mk' { a with current := none, gate := false } (f l) := by
  have hslot : a.slotNumbered n = some (.current, l) := by simp [Arb.slotNumbered, Option.filter, hc, hl]
  have hfree : a.freeSlot s.cfg .current = Eff.pure { a with current := none, gate := false } := by
    simp [Arb.freeSlot, Arb.release, hn, Arb.fill, Arb.fillCurrent, Arb.fillNext, hq, Eff.andThen, Eff.pure]
  simp [Arb.freeNumber, hslot, Eff.andThen, Eff.mk', hfree, Eff.pure]

theorem freeNumber_next (hq : a.queue = []) (hc : a.current = some m) (hm : m.number ≠ n) (hn : a.next = some l)
    (hl : l.number = n) (f : Lease → List Act) : a.freeNumber s n f = Eff.mk' { a with next := none } (f l) := by
  have hslot : a.slotNumbered n = some (.next, l) := by simp [Arb.slotNumbered, Option.filter, hc, hm, hn, hl]
  have hfree : a.freeSlot s.cfg .next = Eff.pure { a with next := none } := by
    simp [Arb.freeSlot, Arb.freeNext, Arb.fill, Arb.fillCurrent, Arb.fillNext, hq, hc, Eff.andThen, Eff.pure]
  simp [Arb.freeNumber, hslot, Eff.andThen, Eff.mk', hfree, Eff.pure]

end

section
variable {s : State} {m : Marker} {cfg : Cfg} {x : Exchange} {n o j : Nat} {e d : LaneEntry}

/-- One element of a row has an image, the others have none. -/
theorem filterMap_only {α β : Type} {f : α → Option β} {a : α} {b : β} {l : List α} (ha : a ∈ l) (hn : l.Nodup)
    (hb : f a = some b) (hrest : ∀ c ∈ l, c ≠ a → f c = none) : l.filterMap f = [b] := by
  induction l with
  | nil => cases ha
  | cons c l ih =>
    rw [List.nodup_cons] at hn
    by_cases hc : c = a
    · subst hc
      have htail : l.filterMap f = [] := List.filterMap_eq_nil_iff.2 fun d hd =>
        hrest d (List.mem_cons_of_mem _ hd) fun he => hn.1 (he ▸ hd)
      rw [List.filterMap_cons_some hb, htail]
    · rw [List.filterMap_cons_none (hrest c List.mem_cons_self hc)]
      exact ih ((List.mem_cons.1 ha).resolve_left (Ne.symm hc)) hn.2 fun d hd => hrest d (List.mem_cons_of_mem _ hd)

theorem printedOf_one (hj : j ∈ cfg.lanes) (he : (m.lane j).find n o = some e) (hp : e.state = .printed)
    (hrest : ∀ i ∈ cfg.lanes, i ≠ j → ((m.lane i).find n o).all (fun d => d.state != .printed) = true) :
    m.printedOf cfg n o = [(j, e)] := by
  refine filterMap_only hj (nodup_lanes cfg) (by simp [he, hp]) fun i hi hne => ?_
  have := hrest i hi hne
  cases hf : (m.lane i).find n o <;> simp_all [Option.filter]

theorem printedOf_both (h1 : 1 ∈ cfg.lanes) (h2 : 2 ∈ cfg.lanes) (he : (m.lane 1).find n o = some e)
    (hp : e.state = .printed) (hd : (m.lane 2).find n o = some d) (hq : d.state = .printed) :
    m.printedOf cfg n o = [(1, e), (2, d)] := by
  have hlanes : cfg.lanes = [1, 2] := List.filter_eq_self.2 fun k hk => by
    rcases List.mem_pair.1 hk with rfl | rfl
    · exact (List.mem_filter.1 h1).2
    · exact (List.mem_filter.1 h2).2
  simp [Marker.printedOf, hlanes, he, hp, hd, hq]

/-- The report that an entry's unconfirmed mark report leaves; its lane is MARK_UNCONFIRMED (R153). -/
theorem entryReportEnds_noConfirm (hi : e.inv = n ∧ e.ordinal = o) :
    m.entryReportEnds s.cfg .noConfirm j e = Eff.mk' (m.setLane j (fun l => { l with unconfirmed := true }))
      [.report (s.unconfirmedReport n o j e)] := by
  obtain ⟨rfl, rfl⟩ := hi
  simp only [Marker.entryReportEnds, State.unconfirmedReport]
  cases e.answer <;> rfl

end

theorem each_one {σ α : Type} (f : α → σ → Eff σ) (a : α) (x : σ) : Eff.each f [a] x = f a x := by
  simp [Eff.each, Eff.andThen, Eff.pure]

theorem each_two {σ α : Type} {f : α → σ → Eff σ} {a b : α} {x y z : σ} {p q : List Act} (ha : f a x = Eff.mk' y p)
    (hb : f b y = Eff.mk' z q) : Eff.each f [a, b] x = Eff.mk' z (p ++ q) := by
  simp [Eff.each, Eff.andThen, Eff.pure, Eff.mk', ha, hb]

/-- A row of lane reports none of which lets the plates begin anything. -/
theorem takeMark_noConfirm {s : State} {x : Exchange} {n o : Nat} {y : Eff Marker} (hk : x.key = .markDone n o)
    (ha : y.st.arrivals = []) (hc : (y.st.plate y.st.compose).cond = .empty) {l : List (Nat × LaneEntry)}
    (hl : s.mark.printedOf s.cfg n o = l) (hne : l ≠ [])
    (hy : Eff.each (fun p (m : Marker) => m.entryReportEnds s.cfg .noConfirm p.1 p.2) l s.mark = y) :
    takeMark s (.exEnded x .noConfirm none false) = y := by
  have hev : s.mark.takeEv s (.exEnded x .noConfirm none false) = y := by
    subst hl
    rw [← hy, ← takeExEnd_entries _ hne]
    simp only [Marker.takeEv, hk]
  rw [takeMark, hev, andThen_rests (.inl ha) (strokeRests_of_empty hc)]

theorem takePaper_noConfirm {s : State} {x : Exchange} {n : Nat} (hk : x.key = .sheetTaken n) :
    takePaper s (.exEnded x .noConfirm none false) =
      Eff.pure { s.paper with taking := s.paper.taking.filter (fun y => y.inv != n) } := by
  simp [takePaper, hk, Paper.takeExEnd]

theorem job_mark {s t : State} {e : Ev} {q : Jobs} {r : Eff Marker} (hw : s.working = true)
    (hr : s.cfg.roles.mark = true) (hb : takeMark s e = r)
    (hp : ({ s with mark := r.st } : State).perform r.acts = (t, q)) : s.takeJob .mark e = (t, q) := by
  rw [takeJob_mark s e hw hr, hb]; exact hp

/-- Settles O28. -/
theorem confirmAndPresenceTimers : Obligations.ConfirmAndPresenceTimers := by
  refine ⟨fun s k x h hx => ⟨fun hr hroom => ?_, fun hr hp => ?_, fun t hr hp hk => ?_⟩,
    fun s t k x h hx hr hp ht => ?_, fun s h hon => ⟨fun hq => ?_, fun hq hroom => ?_⟩⟩
  · refine next_eq ((act_done (canSend_working h.1) (confirmExpired_again hx h.1 hr hroom) (by exact h.2)).trans ?_)
    simp [Line.restEx]
  · refine next_eq ((act_done (canSend_working h.1) (confirmExpired_waits hx hr hp) (by exact h.2)).trans ?_)
    simp [Line.restEx]
  · subst hk
    refine confirm_fails hx h hr hp (idle_head ?_) (by exact h.2)
    show Head.takeExEnd _ _ x .noConfirm none false = _
    simp [Head.takeExEnd, key_of_running hx]
  · replace ht : t = s.unconfirmed x := ht
    subst ht
    have hw : (s.unconfirmed x).working = true := canSend_working h.1
    refine ⟨fun n hk hb => ⟨fun h1 h2 => ?_, fun l hroom hq hc hl hn => ?_, fun m l hroom hq hc hm hn hl => ?_⟩,
      fun n o j e hk hm ha hc hj he hpr => ⟨fun hrest => ?_, fun d hj1 h2 hd hdp => ?_⟩, fun n hk hb => ?_⟩
    all_goals
      have hkey := key_of_running hx
      subst hk
    · exact confirm_fails hx h hr hp (job_arb hw hb ((takeArb_grantFailed hkey _ _).trans (freeNumber_retired h1 h2 _)) rfl)
        (by exact h.2)
    · refine confirm_fails hx h hr hp (job_arb hw hb ((takeArb_grantFailed hkey _ _).trans
        (freeNumber_current hq hc hl hn _)) (perform_then rfl ?_)) (by exact h.2)
      rw [← hl]
      exact perform_job _ _ _ _ h.1 hroom
    · refine confirm_fails hx h hr hp (job_arb hw hb ((takeArb_grantFailed hkey _ _).trans
        (freeNumber_next hq hc hm hn hl _)) (perform_then rfl ?_)) (by exact h.2)
      rw [← hl]
      exact perform_job _ _ _ _ h.1 hroom
    · have hone : (s.unconfirmed x).mark.printedOf (s.unconfirmed x).cfg n o = [(j, e)] := printedOf_one hj he hpr hrest
      have hends := entryReportEnds_noConfirm (s := s) (m := s.mark) (j := j) (is_of_find he)
      have htake := takeMark_noConfirm (s := s.unconfirmed x) hkey (by exact (setLane_arrivals _ _ _).trans ha)
        (by simp only [Eff.mk', setLane_compose, setLane_plate, hc]) hone (by simp) ((each_one _ _ _).trans hends)
      exact confirm_fails hx h hr hp (job_mark hw hm htake rfl) (by exact h.2)
    · subst hj1
      have hboth : (s.unconfirmed x).mark.printedOf (s.unconfirmed x).cfg n o = [(1, e), (2, d)] :=
        printedOf_both hj h2 he hpr hd hdp
      have hends1 := entryReportEnds_noConfirm (s := s) (m := s.mark) (j := 1) (is_of_find he)
      have hends2 := entryReportEnds_noConfirm (s := s) (m := s.mark.setLane 1 (fun l => { l with unconfirmed := true }))
        (j := 2) (is_of_find hd)
      have htake := takeMark_noConfirm (s := s.unconfirmed x) hkey
        (by simp only [Eff.mk', setLane_arrivals]; exact ha)
        (by simp only [Eff.mk', setLane_compose, setLane_plate]; exact hc) hboth (by simp) (each_two hends1 hends2)
      exact confirm_fails hx h hr hp (job_mark hw hm htake rfl) (by exact h.2)
    · exact confirm_fails hx h hr hp (job_paper hw hb (takePaper_noConfirm hkey) rfl) (by exact h.2)
  · refine next_eq (act_done (canSend_working h.1) ?_ (by exact h.2))
    simp only [State.presenceExpired, if_pos hon]
    exact if_pos hq
  · refine next_eq (act_done (canSend_working h.1) ?_ (by exact h.2))
    simp only [State.presenceExpired, if_pos hon]
    refine (if_neg (Bool.not_eq_true _ ▸ hq)).trans ?_
    exact sendFrame_room _ _ h.1 hroom

end Sys2Proof.Machine

/-! ## The timers of the invoice unit (O29, O30, O31) -/

namespace Sys2Proof.Machine

section
variable {s t : State} {q : Jobs} {r : Eff Inv}

/-- A timer of the invoice unit whose notices find nothing to do. -/
theorem invTimer_done {f : State → Inv → Eff Inv} (h : Ready s) (hx : f s s.inv = r) (hph : r.st.phase ≠ .waitFree)
    (hp : ({ s with inv := r.st } : State).perform r.acts = (t, q)) (hq : ∀ j ∈ q, t.takeJob j.1 j.2 = (t, [])) :
    (Host.Outcome.next (s.actInv f) : Res) = .next t.tryTransmit := by
  have hhead : t.head = s.head := head_of_perform hp
  have hrun : s.runInv (invTimer s (f s)) = (t, q) := by
    have hend : invTimer s (f s) = r := by
      subst hx
      exact andThen_claimIfFree hph s
    rw [hend]
    exact hp
  refine next_eq ((act_working s _ (canSend_working h.1)).trans ?_)
  rw [hrun]
  exact settle_drain (drain_idle _ _ hq _) (by rw [hhead]; exact h.2)

/-- One whose actions raise no notice. -/
theorem invTimer_alone {f : State → Inv → Eff Inv} (h : Ready s) (hx : f s s.inv = r) (hph : r.st.phase ≠ .waitFree)
    (hp : ({ s with inv := r.st } : State).perform r.acts = (t, [])) :
    (Host.Outcome.next (s.actInv f) : Res) = .next t.tryTransmit :=
  invTimer_done h hx hph hp (by simp)

end

/-- An entry freed with its number in the gap list is nothing to a blender of another batch. -/
theorem freed_elsewhere {s : State} {n : Nat} (hm : s.cfg.roles.mark = false) (hp : s.cfg.roles.paper = false)
    (hb : s.blend.batchInv ≠ some n) :
    ∀ j ∈ [(Block.blend, Ev.entryFreed n), (.paper, .entryFreed n), (.mark, .copyChanged n), (.paper, .gapNumber n)],
      s.takeJob j.1 j.2 = (s, []) := by
  have hblend : takeBlend s (.entryFreed n) = Eff.pure s.blend := by
    have hother : (s.blend.batchInv == some n) = false := by simpa using hb
    simp [takeBlend, Blend.freed, Blend.lost, hother]
  simp only [List.forall_mem_cons]
  exact ⟨idle_blend hblend, takeJob_no_paper s _ hp, takeJob_no_mark s _ hm, takeJob_no_paper s _ hp, by simp⟩

/-! ### The claim window and the retry (O29, R33) -/

section
variable {i : Inv} {s : State} {n : Nat} {l : List Nat} {x : Entry} {q : ClaimReq}

theorem windowExpired_first (hp : i.phase = .window n false l) (ht : i.claimWindow.on = true) (hx : i.find n = some x) :
    i.windowExpired = Eff.mk' { i with phase := .queued n true l, claimWindow := .stopped }
      [.send (jobFrame 0 (.claim
        { inv := n, order := x.data.hdr.order, grade := x.data.hdr.grade, garden := x.data.hdr.garden,
          net := x.data.hdr.charged }) (.claim n))] := by
  simp only [Inv.windowExpired, hp, ht, hx]
  rfl

theorem windowExpired_second (hp : i.phase = .window n true l) (ht : i.claimWindow.on = true) :
    i.windowExpired = Eff.mk' { i with
        table := i.table.filter (fun y => y.num != n), claimWindow := .stopped, phase := .retry,
        claimRetry := .running 2000 }
      (posts [.blend, .paper] (.entryFreed n) ++ [.post .mark (.copyChanged n), .post .paper (.gapNumber n)] ++
        [.unsend (.claim n), .send (jobFrame 0 (.withdraw n) .withdraw),
         .report (Report.of .claimStalled (some n) none none (.code .noConsent))]) := by
  simp only [Inv.windowExpired, hp, ht]
  rfl

theorem retryExpired_claims (hp : i.phase = .retry) (ht : i.claimRetry.on = true) (hq : i.req = some q)
    (ha : s.isActive = true) (hroom : i.table.length < Config.tableEntries) (hl : i.mark < s.cfg.last) :
    i.retryExpired s = ({ i with phase := .idle, claimRetry := .stopped } : Inv).claim s q := by
  have hfull : ¬ Config.tableEntries ≤ i.table.length := Nat.not_le.2 hroom
  have hlast : ¬ s.cfg.last ≤ i.mark := Nat.not_le.2 hl
  simp [Inv.retryExpired, Inv.tryClaim, Inv.full, hp, ht, hq, ha, hfull, hlast]

end

/-- Settles O29. -/
theorem claimTimers : Obligations.ClaimTimers := by
  intro s h hroom
  have hjob : JobRoom s := Nat.lt_of_succ_lt hroom
  refine ⟨fun n l x hp ht hx => ?_, fun n l hm hpaper hb htx hp ht => ?_, fun q hp ht hq ha hfree hl => ?_⟩
  · exact invTimer_alone h (windowExpired_first hp ht hx) ClaimPhase.noConfusion
      (by exact perform_job _ _ _ _ h.1 hjob)
  · have hun : s.line.txq.all (fun f => !(Unsend.claim n).hits f) = true := by
      simp only [claim_hits]
      exact htx
    exact invTimer_done h (windowExpired_second hp ht) ClaimPhase.noConfusion
      (perform_append (perform_freed _ _) (perform_then (perform1_unsend_none (by exact hun))
        (perform_then (by exact sendFrame_room _ _ h.1 hjob) rfl)))
      (freed_elsewhere (by exact hm) (by exact hpaper) (by exact hb))
  · exact invTimer_alone h (retryExpired_claims hp ht hq ha hfree hl) ClaimPhase.noConfusion
      (by exact perform_job _ _ _ _ h.1 hjob)

/-! ### The timers of a copy (O30, R36, R37, R39, R40) -/

section
variable {i : Inv} {s : State} {n : Nat} {x : Entry}

theorem askExpired_asks (hx : i.find n = some x) (ht : x.askT.on = true) (hc : x.copy = .stale) (ho : x.own = none)
    (hp : s.present x.data.hdr.owner = true) :
    i.askExpired s n = Eff.mk'
      { i.upd n (fun y => { y with askT := .running 500 }) with askOther := i.askOther.filter (fun m => m != n) }
      [.send (jobFrame x.data.hdr.owner (.recordAsk n) (.ask n))] := by
  have hup := upd_upd { i with askOther := i.askOther.filter (fun m => m != n) } n (fun y => { y with askT := .stopped })
    (fun y => { y with askT := .running 500 }) (fun _ h => h)
  simp only [Inv.askExpired, hx, ht, hc, ho, hp]
  exact congrArg (fun j => Eff.mk' j _) hup

theorem askExpired_whole (hx : i.find n = some x) (ht : x.askT.on = true) (hc : x.copy = .complete) :
    i.askExpired s n = Eff.pure
      { i.upd n (fun y => { y with askT := .stopped }) with askOther := i.askOther.filter (fun m => m != n) } := by
  simp only [Inv.askExpired, hx, ht, hc]
  rfl

theorem rebuildExpired_asks (hx : i.find n = some x) (hc : x.copy = .rebuilding) (ht : x.rebuildT.on = true)
    (ha : x.askT = .stopped) (ho : x.orphan = false) :
    i.rebuildExpired s n = Eff.mk'
      (i.upd n (fun y => { y with copy := .stale, rebuildT := .stopped, askT := .running 500 }))
      (.send (jobFrame x.data.hdr.owner (.recordAsk n) (.ask n)) :: copyNotice n) := by
  have hfind : (i.upd n (fun y => { y with copy := .stale, rebuildT := .stopped })).find n =
      some { x with copy := .stale, rebuildT := .stopped } := by
    refine (find_upd_self i n _ ?_).trans ?_
    · exact fun _ h => h
    · rw [hx]
      rfl
  have hup := upd_upd i n (fun y => { y with copy := .stale, rebuildT := .stopped })
    (fun y => { y with askT := .running 500 }) (fun _ h => h)
  simp only [Inv.rebuildExpired, hx, hc, ht, Inv.askOwner, hfind, Inv.ask, ha, ho]
  exact congrArg (fun j => Eff.mk' j _) hup

theorem closedExpired_asks (hx : i.find n = some x) (ht : x.closedT.on = true) (hc : x.data.hdr.state = .closed)
    (ho : x.own = none) (hp : s.cfg.roles.paper = false) (ha : s.absent x.data.hdr.owner = false) :
    i.closedExpired s n = Eff.mk' (i.upd n (fun y => { y with closedT := .running 10000, askT := .running 500 }))
      [.send (jobFrame x.data.hdr.owner (.recordAsk n) (.ask n))] := by
  have hup := upd_upd i n (fun y => { y with closedT := .running 10000 })
    (fun y => { y with askT := .running 500 }) (fun _ h => h)
  simp only [Inv.closedExpired, hx, ht, hc, ho, hp, ha]
  exact congrArg (fun j => Eff.mk' j _) hup

end

/-- Settles O30. -/
theorem copyTimers : Obligations.CopyTimers := by
  intro s n x h hroom hph hx ho
  refine ⟨fun ht hc hp => ?_, fun ht hc => ?_, fun hm hpaper hc ht ha horphan => ?_, fun ht hc hpaper ha => ?_⟩
  · exact invTimer_alone h (askExpired_asks hx ht hc ho hp) hph (by exact perform_job _ _ _ _ h.1 hroom)
  · exact invTimer_alone h (askExpired_whole hx ht hc) hph (perform_nil _)
  · exact invTimer_done (f := fun s i => i.rebuildExpired s n) h (rebuildExpired_asks hx hc ht ha horphan) hph
      (perform_then (by exact sendFrame_room _ _ h.1 hroom) (perform_posts _ _ _)) (copyNotice_idle n (by exact hm) (by exact hpaper))
  · exact invTimer_alone h (closedExpired_asks hx ht hc ho hpaper ha) hph (by exact perform_job _ _ _ _ h.1 hroom)

/-! ### The settle timer (O31, R135)

The statement changes the settle timer of the owner's records alone; the model looks for OUTSTANDING fills in the records of every
entry of the number. In a table with two entries of one number, the second with an OUTSTANDING fill, they differ. -/

/-- Invoice 4 stands twice in the table, the second time with an OUTSTANDING fill; its settle timer runs. -/
def twiceSettling : State :=
  { plainStation with inv := { plainStation.inv with
    table := [{ openEntry [] with own := some { openRecords [] with settle := .running 500 } },
              openEntry [{ head := 5, token := 9, leases := 1, lost := false }]] } }

/-- Which fills of the owner's records are LOST after a command. -/
def lostFills : Res → List (List Bool)
  | .next t => t.inv.table.map (fun x => (x.own.map (fun o => o.fills.map (fun f => f.lost))).getD [])
  | _ => []

/-- Refutes O31: the OUTSTANDING fill of the second entry is lost too. -/
theorem not_ownerTimers : ¬ Obligations.OwnerTimers := by
  intro h
  have hsettled := (h.1 twiceSettling 4 (by decide) (by decide) (by decide)).2.1
    { openRecords [] with settle := .running 500 } rfl rfl rfl rfl (by decide)
  have hmodel : lostFills (exec (.settleTimerExpiry 4) twiceSettling) = [[], [true]] := by decide
  rw [hsettled] at hmodel
  exact absurd hmodel (by decide)

end Sys2Proof.Machine

/-! ## CHEST-ENTERED at the head and at the marker (O9) -/

namespace Sys2Proof.Machine

/-! ### An event that two blocks of a row take -/

section
variable {s t t1 t2 u : State} {b c : Block} {e : Ev} {q1 q2 : Jobs}

/-- Two blocks of a row act, one after the other; the others, and the notices raised, find nothing to do. -/
theorem drain_inOrder {l1 l2 l3 : Jobs} (h1 : s.takeJob b e = (t1, q1)) (h2 : t1.takeJob c e = (t, q2))
    (i1 : ∀ j ∈ l1, s.takeJob j.1 j.2 = (s, [])) (i2 : ∀ j ∈ l2, t1.takeJob j.1 j.2 = (t1, []))
    (i3 : ∀ j ∈ l3 ++ q1 ++ q2, t.takeJob j.1 j.2 = (t, [])) (n : Nat) :
    drain (n + 1 + l2.length + 1 + l1.length) s (l1 ++ (b, e) :: (l2 ++ (c, e) :: l3)) = t := by
  rw [drain_idle_first _ _ _ i1]
  refine drain_job h1 ?_
  rw [List.append_assoc, List.cons_append, drain_idle_first _ _ _ i2]
  exact drain_job h2 (drain_idle t _ i3 n)

/-- The same in either order, for a row in which each block stands once. -/
theorem drain_row {l : List Block} (hl : l.Nodup) (hb : b ∈ l) (hc : c ∈ l) (hne : b ≠ c)
    (idle : ∀ d ∈ l, d ≠ b → d ≠ c → ∀ v : State, v.cfg = s.cfg → v.takeJob d e = (v, []))
    (h1 : s.takeJob b e = (t1, q1)) (h2 : t1.takeJob c e = (t, q2))
    (g1 : s.takeJob c e = (t2, q2)) (g2 : t2.takeJob b e = (t, q1))
    (hq : ∀ j ∈ q1 ++ q2, t.takeJob j.1 j.2 = (t, [])) (n : Nat) :
    drain (n + l.length) s (l.map (fun d => (d, e))) = t := by
  have ht1 : t1.cfg = s.cfg := by have := takeJob_cfg s b e; rwa [h1] at this
  have ht2 : t2.cfg = s.cfg := by have := takeJob_cfg s c e; rwa [g1] at this
  have ht : t.cfg = s.cfg := by have := takeJob_cfg t1 c e; rw [h2, ht1] at this; exact this
  have rest (r : List Block) (hr : ∀ d ∈ r, d ∈ l ∧ d ≠ b ∧ d ≠ c) (v : State) (hv : v.cfg = s.cfg) :
      ∀ j ∈ r.map (fun d => (d, e)), v.takeJob j.1 j.2 = (v, []) := by
    intro j hj
    obtain ⟨d, hd, rfl⟩ := List.mem_map.1 hj
    obtain ⟨hin, hdb, hdc⟩ := hr d hd
    exact idle d hin hdb hdc v hv
  have ends (r : Jobs) (p1 p2 : Jobs) (hr : ∀ j ∈ r, t.takeJob j.1 j.2 = (t, [])) (hp : ∀ j ∈ p1 ++ p2, j ∈ q1 ++ q2) :
      ∀ j ∈ r ++ p1 ++ p2, t.takeJob j.1 j.2 = (t, []) := by
    intro j hj
    rw [List.append_assoc, List.mem_append] at hj
    exact hj.elim (hr j) fun h => hq j (hp j h)
  obtain ⟨l1, r, rfl⟩ := List.append_of_mem hb
  rcases List.mem_append.1 hc with hc | hc
  · obtain ⟨l0, l2, rfl⟩ := List.append_of_mem hc
    have hother : ∀ d, d ∈ l0 ∨ d ∈ l2 ∨ d ∈ r → d ≠ b ∧ d ≠ c := by
      simp only [List.nodup_append, List.nodup_cons, List.mem_append, List.mem_cons] at hl
      grind
    have hrun := drain_inOrder (l1 := l0.map (fun d => (d, e))) (l2 := l2.map (fun d => (d, e)))
      (l3 := r.map (fun d => (d, e))) g1 g2 (rest l0 (fun d hd => ⟨by simp [hd], hother d (.inl hd)⟩) s rfl)
      (rest l2 (fun d hd => ⟨by simp [hd], hother d (.inr (.inl hd))⟩) t2 ht2)
      (ends _ q2 q1 (rest r (fun d hd => ⟨by simp [hd], hother d (.inr (.inr hd))⟩) t ht) (by simp [or_comm])) (n + r.length)
    refine (congrArg₂ (fun k r => drain k s r) ?_ ?_).trans hrun
    · simp only [List.length_append, List.length_cons, List.length_map]
      omega
    · simp
  · have hc' : c ∈ r := (List.mem_cons.1 hc).resolve_left (Ne.symm hne)
    obtain ⟨l2, l3, rfl⟩ := List.append_of_mem hc'
    have hother : ∀ d, d ∈ l1 ∨ d ∈ l2 ∨ d ∈ l3 → d ≠ b ∧ d ≠ c := by
      simp only [List.nodup_append, List.nodup_cons, List.mem_append, List.mem_cons] at hl
      grind
    have hrun := drain_inOrder (l1 := l1.map (fun d => (d, e))) (l2 := l2.map (fun d => (d, e)))
      (l3 := l3.map (fun d => (d, e))) h1 h2 (rest l1 (fun d hd => ⟨by simp [hd], hother d (.inl hd)⟩) s rfl)
      (rest l2 (fun d hd => ⟨by simp [hd], hother d (.inr (.inl hd))⟩) t1 ht1)
      (ends _ q1 q2 (rest l3 (fun d hd => ⟨by simp [hd], hother d (.inr (.inr hd))⟩) t ht) (fun _ h => h)) (n + l3.length)
    refine (congrArg₂ (fun k r => drain k s r) ?_ ?_).trans hrun
    · simp only [List.length_append, List.length_cons, List.length_map]
      omega
    · simp

end

/-! ### A frame heard that two blocks take -/

/-- The state in which the blocks take a frame heard, which may end one exchange whose block has nothing to do then. -/
inductive HeardAs (s : State) (d : Env) (m : Msg) : State → Prop
  | alone (h : Hears s d m) : HeardAs s d m (s.heardFrom d.src).usedChoice
  | ending (z : Exchange) (h : HearsEnd s d m z)
      (idle : (s.heardEnding d.src z.id).usedChoice.takeJob (exBlock z.key) (.exEnded z .confirmed (some m) false) =
        ((s.heardEnding d.src z.id).usedChoice, [])) : HeardAs s d m (s.heardEnding d.src z.id).usedChoice

section
variable {s t u : State} {d : Env} {m : Msg} {b c : Block} {i : Inv} {n : Nat}

theorem HeardAs.ready (h : HeardAs s d m t) : Ready s := by
  cases h with
  | alone h => exact h.1
  | ending z h => exact h.1

/-- Hearing changes the line and uses up one block order. -/
theorem HeardAs.line (h : HeardAs s d m t) : t = { s.usedChoice with line := t.line } := by
  cases h <;> rfl

theorem HeardAs.still (h : HeardAs s d m t) : t.still := by
  cases h with
  | alone h => exact heardFrom_still _ _
  | ending z h => exact heardEnding_still _ _ _

theorem HeardAs.queue (h : HeardAs s d m t) : t.line.txq = s.line.txq := by
  cases h <;> exact heardFrom_txq _ _

/-- Whatever the order of the blocks, the jobs of the frame lead to `u`. -/
theorem HeardAs.settles (h : HeardAs s d m t) (hmore : ¬ (takers m).length ≤ 1)
    (hd : ∀ l : List Block, l.Nodup → (∀ x, x ∈ l ↔ x ∈ takers m) → ∀ k,
      drain (k + l.length) t (l.map (fun x => (x, .frame d.src d.dst m false))) = u)
    (ho : u.head.owedDone = []) (hu : u.still) : s.hear .other d (some m) = u := by
  have row (v : State) : (v.blockOrder.filter (fun x => (takers m).contains x)).Nodup ∧
      (∀ x, x ∈ v.blockOrder.filter (fun x => (takers m).contains x) ↔ x ∈ takers m) ∧
      (v.blockOrder.filter (fun x => (takers m).contains x)).length ≤ 6 := by
    refine ⟨(blockOrder_nodup v).filter _, fun x => ?_, ?_⟩
    · rw [List.mem_filter, mem_blockOrder, List.contains_iff_mem, and_iff_right_iff_imp]
      exact fun hx he => takers_no_start m (he ▸ hx)
    · exact (List.length_filter_le _ _).trans (blockOrder_perm v).length_eq.le
  have run (v : State) (k : Nat) (hk : 6 ≤ k) (hv : ∀ l : List Block, l.Nodup → (∀ x, x ∈ l ↔ x ∈ takers m) → ∀ k,
      drain (k + l.length) v.usedChoice (l.map (fun x => (x, .frame d.src d.dst m false))) = u) :
      drain k v.usedChoice (frameJobs (v.blockOrder.filter (fun x => (takers m).contains x)) d m) = u := by
    obtain ⟨hnodup, hmem, hlen⟩ := row v
    have := hv _ hnodup hmem (k - (v.blockOrder.filter (fun x => (takers m).contains x)).length)
    rwa [Nat.sub_add_cancel (hlen.trans hk)] at this
  show s.act (fun s => s.receive .other d (some m)) = u
  rw [act_working _ _ (canSend_working h.ready.1), ← tryTransmit_quiet u hu]
  cases h with
  | alone h =>
    rw [receive_hears s d m h, if_neg hmore]
    exact settle_drain (run _ 4096 (by decide) hd) ho
  | ending z h idle =>
    rw [receive_ends s d m z h, if_neg hmore]
    refine settle_drain (drain_job (n := 4095) idle ?_) ho
    rw [List.append_nil]
    exact run _ 4095 (by decide) hd

/-- A copy changes and one other block acts, in either order; the notices of the copy find nothing to do. -/
theorem drain_copyAnd {l : List Block} {e : Ev} (hl : l.Nodup) (hi : .inv ∈ l) (hc : c ∈ l) (hne : c ≠ .inv)
    (idle : ∀ x ∈ l, x ≠ .inv → x ≠ c → ∀ v : State, v.cfg = t.cfg → v.takeJob x e = (v, []))
    (hw : t.working = true) (htake : ∀ v : State, v.inv = t.inv → takeInv v e = Eff.mk' i (copyNotice n))
    (hjob : ∀ j : Inv, j = t.inv ∨ j = i → ({ t with inv := j } : State).takeJob c e = ({ u with inv := j }, []))
    (huw : u.working = true) (hui : u.inv = t.inv)
    (hq : ∀ j ∈ [Block.mark, .paper].map (fun b => (b, Ev.copyChanged n)),
      ({ u with inv := i } : State).takeJob j.1 j.2 = ({ u with inv := i }, [])) (k : Nat) :
    drain (k + l.length) t (l.map (fun x => (x, e))) = { u with inv := i } := by
  have inv (v : State) (hv : v.working = true) (hvi : v.inv = t.inv) :
      v.takeJob .inv e = ({ v with inv := i }, [Block.mark, .paper].map (fun b => (b, Ev.copyChanged n))) :=
    job_inv hv (htake v hvi) (perform_posts _ _ _)
  have hu : u = { u with inv := t.inv } := by rw [← hui]
  refine drain_row hl hi hc (Ne.symm hne) idle (inv t hw rfl) (hjob i (.inr rfl)) (hjob t.inv (.inl rfl)) ?_
    (by simpa using hq) k
  rw [← hu]
  exact inv u huw hui

end

/-! ### The head's part (R117) -/

section
variable {s t : State} {d : Env} {b : ChestEnteredBody} {c : ChestNow} {x : Entry}

/-- The copy of the invoice with the entered chest (R26). -/
def entersCopy (i : Inv) (x : Entry) (b : ChestEnteredBody) : Inv :=
  i.upd b.inv (fun z => { z with data := (x.data.addChest (enteredChest b)).atVersion b.version })

theorem takeInv_enters (hph : s.inv.phase ≠ .waitFree) (hx : s.inv.find b.inv = some x) (ho : x.own = none)
    (hc : x.copy = .complete) (hsrc : x.data.hdr.owner = d.src) (hv : b.version = x.data.hdr.version + 1)
    (hord : b.ordinal = x.data.hdr.entered + 1) {v : State} (hvi : v.inv = s.inv) :
    takeInv v (.frame d.src d.dst (.chestEntered b) false) = Eff.mk' (entersCopy s.inv x b) (copyNotice b.inv) := by
  refine takeInv_frame ?_ hph
  rw [hvi]
  exact takeEntry_next hx ho hc hsrc hv (if_pos hord)

theorem takeEntered_releases (hs : s.head.state = .reported) (hc : s.head.chest = some c) (hi : c.inv = some b.inv)
    (ht : c.token = b.token) (hh : b.head = s.self) :
    s.head.takeEntered s b = Eff.mk'
      { s.head with state := .releasing, cause := none, sendFrame := none, waitOwner := false, waitJoin := false }
      [.report (Report.of .chestEntered (some b.inv) (some b.ordinal) none .absent)] := by
  simp [Head.takeEntered, Head.awaitsEntry, Head.isChest, hs, hc, hi, ht, hh]

/-- The end of its own CHEST-DONE exchange leaves a REPORTED head waiting for the CHEST-ENTERED itself (R117). -/
theorem takeExEnd_chestDone {z : Exchange} {n k : Nat} (hz : z.key = .chestDone n k) (m : Msg) :
    takeHead s (.exEnded z .confirmed (some m) false) = Eff.pure s.head := by
  show s.head.takeExEnd s z .confirmed (some m) false = _
  simp [Head.takeExEnd, hz]

/-- The head that has reported the chest releases it, and its copy enters the chest, whichever comes first. -/
theorem HeardAs.entersAtHead (h : HeardAs s d (.chestEntered b) t)
    (hr : s.cfg.roles = { blend := false, head := true, mark := false, paper := false })
    (htake : ∀ v : State, v.inv = s.inv →
      takeInv v (.frame d.src d.dst (.chestEntered b) false) = Eff.mk' (entersCopy s.inv x b) (copyNotice b.inv))
    (hs : s.head.state = .reported) (hc : s.head.chest = some c) (hi : c.inv = some b.inv) (ht : c.token = b.token)
    (hh : b.head = s.self) :
    exec (.chestEntered d (some b)) s =
      .next { t.report (Report.of .chestEntered (some b.inv) (some b.ordinal) none .absent) with
        inv := entersCopy s.inv x b,
        head := { s.head with state := .releasing, cause := none, sendFrame := none, waitOwner := false,
                              waitJoin := false } } := by
  have hready := h.ready
  have hw := canSend_working hready.1
  have hstill := h.still
  have hline := h.line
  obtain ⟨l, rfl⟩ : ∃ l : Line, t = { s.usedChoice with line := l } := ⟨_, hline⟩
  have hmark : s.cfg.roles.mark = false := by rw [hr]
  have hpaper : s.cfg.roles.paper = false := by rw [hr]
  refine next_eq (h.settles (by simp [takers]) (fun row hl hmem k => ?_) (by exact hready.2) (by exact hstill))
  refine drain_copyAnd (t := { s.usedChoice with line := l }) (i := entersCopy s.inv x b) (c := .head)
    (u := { ({ s.usedChoice with line := l } : State).report
      (Report.of .chestEntered (some b.inv) (some b.ordinal) none .absent) with head := { s.head with
        state := .releasing, cause := none, sendFrame := none, waitOwner := false, waitJoin := false } }) hl
    ((hmem _).2 (by simp [takers])) ((hmem _).2 (by simp [takers])) (by decide) (fun y hy hyi hyh v hv => ?_)
    (by exact hw) htake (fun j hj => ?_) (by exact hw) rfl (copyNotice_idle _ (by exact hmark) (by exact hpaper)) k
  · have : y = .mark := by simpa [takers, hyi, hyh] using (hmem y).1 hy
    subst this
    exact takeJob_no_mark _ _ (by rw [hv]; exact hmark)
  · exact job_head (by exact hw) (by exact congrArg Roles.head hr)
      (takeEntered_releases (s := { ({ s.usedChoice with line := l } : State) with inv := j }) hs hc hi ht hh) rfl

end

/-! ### The marker's part (R140, R142, R143) -/

section
variable {s : State} {m : Marker} {src k head : Nat} {b : ChestEnteredBody} {x : Entry} {o : Overflow}

/-- The chest enters the lane anew: the lane neither holds nor held it, and the copy does not have it marked (R140). -/
structure EntersLane (s : State) (m : Marker) (k : Nat) (b : ChestEnteredBody) : Prop where
  queue : (m.lane k).find b.inv b.ordinal = none
  kept : (m.lane k).keeps b.inv b.ordinal = false
  done : (m.lane k).done.contains (b.inv, b.ordinal) = false
  copy : ∃ y : Entry, s.inv.find b.inv = some y ∧
    y.data.chests.any (fun c => c.ordinal == b.ordinal && c.stencil != .pending) = false

theorem takeEntered_joins (h : EntersLane s m k b) (ho : (m.lane k).overflow = none) (hl : (m.lane k).queue.length < 6) :
    m.takeEntered s src k head b =
      (m.setLane k (fun l => { l with queue := l.queue ++ [newEntry b.inv b.ordinal src] })).holdTest s.cfg k true
        false := by
  obtain ⟨y, hy, hmarked⟩ := h.copy
  have hroom : ¬ (m.lane k).count ≥ Config.lanePlaces := Nat.not_le.2 hl
  have hdone := h.done
  simp only [Marker.takeEntered, h.queue, h.kept, hdone, hy, hmarked, hroom, ho]
  rfl

theorem takeEntered_kept (h : EntersLane s m k b) (ho : (m.lane k).overflow = none)
    (hl : 6 ≤ (m.lane k).queue.length) :
    m.takeEntered s src k head b = Eff.mk' (m.setLane k (fun l =>
        { l with laneOver := true, overflow := some { inv := b.inv, ordinal := b.ordinal, source := src } }))
      [.report (Report.of .laneOverflow (some b.inv) (some b.ordinal) (some head) (.code .kept))] := by
  obtain ⟨y, hy, hmarked⟩ := h.copy
  have hfull : (m.lane k).count ≥ Config.lanePlaces := hl
  have hdone := h.done
  simp only [Marker.takeEntered, h.queue, h.kept, hdone, hy, hmarked, hfull, ho]
  rfl

theorem takeEntered_lost (h : EntersLane s m k b) (ho : (m.lane k).overflow = some o) :
    m.takeEntered s src k head b = Eff.mk' (m.setLane k (fun l => { l with laneOver := true }))
      [.report (Report.of .laneOverflow (some b.inv) (some b.ordinal) (some head) (.code .lost))] := by
  obtain ⟨y, hy, hmarked⟩ := h.copy
  have hdone := h.done
  simp only [Marker.takeEntered, h.queue, h.kept, hdone, hy, hmarked, ho]
  simp

variable {t : State} {d : Env}

theorem takeMark_entered {v : State} {f : Lane → Lane} {acts : List Act} (ha : v.mark.arrivals = [])
    (hc : (v.mark.plate v.mark.compose).cond = .empty)
    (hl : v.cfg.lanes.filter (fun j => v.cfg.laneHead j == some b.head) = [k])
    (he : v.mark.takeEntered v d.src k b.head b = Eff.mk' (v.mark.setLane k f) acts) :
    takeMark v (.frame d.src d.dst (.chestEntered b) false) = Eff.mk' (v.mark.setLane k f) acts := by
  have hev : v.mark.takeEv v (.frame d.src d.dst (.chestEntered b) false) = Eff.mk' (v.mark.setLane k f) acts := by
    show Eff.each _ _ _ = _
    rw [hl]
    exact (each_one _ _ _).trans he
  rw [takeMark, hev]
  refine andThen_rests (.inl ?_) (strokeRests_of_empty ?_)
  · exact (setLane_arrivals _ _ _).trans ha
  · simp only [Eff.mk', setLane_compose, setLane_plate]
    exact hc

/-- A changed copy is nothing to a marker that can begin nothing. -/
theorem copyNotice_marker {v : State} (hw : v.working = true) (hm : v.cfg.roles.mark = true)
    (hp : v.cfg.roles.paper = false) (h1 : v.mark.ComposeRests) (h2 : v.mark.StrokeRests) (n : Nat) :
    ∀ j ∈ [Block.mark, .paper].map (fun b => (b, Ev.copyChanged n)), v.takeJob j.1 j.2 = (v, []) := by
  have hidle : takeMark v (.copyChanged n) = Eff.pure v.mark := andThen_rests (x := Eff.pure v.mark) h1 h2
  simp only [List.map_cons, List.map_nil, List.forall_mem_cons]
  refine ⟨?_, takeJob_no_paper v _ hp, by simp⟩
  rw [takeJob_mark v _ hw hm, hidle]
  rfl

/-- The lane takes the chest and the copy enters it, whichever comes first. -/
theorem HeardAs.entersAtMarker {f : Lane → Lane} {acts : List Act} {u : State} (h : HeardAs s d (.chestEntered b) t)
    (hr : s.cfg.roles = { blend := false, head := false, mark := true, paper := false })
    (htake : ∀ v : State, v.inv = s.inv →
      takeInv v (.frame d.src d.dst (.chestEntered b) false) = Eff.mk' (entersCopy s.inv x b) (copyNotice b.inv))
    (ha : s.mark.arrivals = []) (hc : (s.mark.plate s.mark.compose).cond = .empty)
    (hl : s.cfg.lanes.filter (fun j => s.cfg.laneHead j == some b.head) = [k])
    (he : ∀ v : State, v.cfg = s.cfg → v.inv = s.inv ∨ v.inv = entersCopy s.inv x b →
      s.mark.takeEntered v d.src k b.head b = Eff.mk' (s.mark.setLane k f) acts)
    (hp : ∀ i : Inv, ({ t with inv := i, mark := s.mark.setLane k f } : State).perform acts = ({ u with inv := i }, []))
    (hu : u = { t with line := u.line, port := u.port, mark := s.mark.setLane k f }) (hs : u.still) :
    exec (.chestEntered d (some b)) s = .next { u with inv := entersCopy s.inv x b } := by
  have hready := h.ready
  have hw := canSend_working hready.1
  have hline := h.line
  obtain ⟨l, rfl⟩ : ∃ l : Line, t = { s.usedChoice with line := l } := ⟨_, hline⟩
  obtain ⟨lu, pu, rfl⟩ : ∃ (lu : Line) (pu : Port), u = { s.usedChoice with
    line := lu, port := pu, mark := s.mark.setLane k f } := ⟨_, _, hu⟩
  have hhead : s.cfg.roles.head = false := by rw [hr]
  have hpaper : s.cfg.roles.paper = false := by rw [hr]
  have hmark : s.cfg.roles.mark = true := by rw [hr]
  refine next_eq (h.settles (by simp [takers]) (fun row hl hmem n => ?_) (by exact hready.2) (by exact hs))
  refine drain_copyAnd (t := { s.usedChoice with line := l }) (i := entersCopy s.inv x b) (c := .mark)
    (u := { s.usedChoice with line := lu, port := pu, mark := s.mark.setLane k f }) hl
    ((hmem _).2 (by simp [takers])) ((hmem _).2 (by simp [takers])) (by decide) (fun y hy hyi hyh v hv => ?_)
    (by exact hw) htake (fun j hj => ?_) (by exact hw) rfl
    (copyNotice_marker (by exact hw) (by exact hmark) (by exact hpaper) (.inl ?_) (strokeRests_of_empty ?_) b.inv) n
  · have : y = .head := by simpa [takers, hyi, hyh] using (hmem y).1 hy
    subst this
    exact takeJob_no_head _ _ (by rw [hv]; exact hhead)
  · refine job_mark (by exact hw) (by exact hmark) (takeMark_entered (by exact ha) (by exact hc) (by assumption) ?_) (hp j)
    exact he { ({ s.usedChoice with line := l } : State) with inv := j } rfl hj
  · exact (setLane_arrivals _ _ _).trans ha
  · show ((s.mark.setLane k f).plate (s.mark.setLane k f).compose).cond = .empty
    rw [setLane_compose, setLane_plate]
    exact hc

/-- The entered chest stands in the copy as PENDING, so that the order of copy and marker does not matter. -/
theorem entersLane_either (hx : s.inv.find b.inv = some x) (hnew : x.data.chests.all (fun c => c.ordinal != b.ordinal) = true)
    (hq : (m.lane k).find b.inv b.ordinal = none) (hk : (m.lane k).keeps b.inv b.ordinal = false)
    (hd : (m.lane k).done.contains (b.inv, b.ordinal) = false) (v : State)
    (hv : v.inv = s.inv ∨ v.inv = entersCopy s.inv x b) : EntersLane v m k b := by
  have hold : x.data.chests.any (fun c => c.ordinal == b.ordinal && c.stencil != .pending) = false := by
    rw [List.any_eq_false]
    intro c hc
    have := List.all_eq_true.1 hnew c hc
    simp_all
  rcases hv with hv | hv
  · exact ⟨hq, hk, hd, x, by rw [hv, hx], hold⟩
  · refine ⟨hq, hk, hd, { x with data := (x.data.addChest (enteredChest b)).atVersion b.version }, ?_, ?_⟩
    · rw [hv]
      refine (find_upd_self s.inv b.inv _ ?_).trans ?_
      · exact fun _ _ => (find_num hx : x.data.hdr.inv = b.inv)
      · rw [hx]
        rfl
    · simp [Rec.atVersion, Rec.addChest, List.any_append, hold, enteredChest]

end

/-- Settles O9. -/
theorem chestEnteredReleases : Obligations.ChestEnteredReleases := by
  refine ⟨fun s d b c x z h hr hph hx ho hc hsrc hv hord hz hs hch hci hct hh => ?_,
    fun s d b x k h hr hph hx ho hc hsrc hv hord hnew hl hq hk hd ha hcond => ?_,
    fun s d b c x h hr hph hx ho hc hsrc hv hord hs hch hci hct hh => ?_⟩
  · have hblock : exBlock z.key = .head := by rw [hz]; rfl
    exact (HeardAs.ending z h (by rw [hblock]; exact idle_head (takeExEnd_chestDone hz _))).entersAtHead hr
      (fun _ => takeInv_enters hph hx ho hc hsrc hv hord) hs hch hci hct hh
  · have htake : ∀ v : State, v.inv = s.inv → takeInv v (.frame d.src d.dst (.chestEntered b) false) =
        Eff.mk' (entersCopy s.inv x b) (copyNotice b.inv) := fun _ => takeInv_enters hph hx ho hc hsrc hv hord
    have hlane := entersLane_either (m := s.mark) (k := k) hx hnew hq hk hd
    have hhead : s.cfg.laneHead k = some b.head := by
      have hmem : k ∈ s.cfg.lanes.filter (fun j => s.cfg.laneHead j == some b.head) := by
        rw [hl]
        exact List.mem_singleton_self k
      simpa using (List.mem_filter.1 hmem).2
    have hheard := HeardAs.alone h
    refine ⟨fun hover hlen => ?_, fun hover h4 h6 hroom => ?_, fun hover h6 => ?_, fun o hover => ?_⟩
    · exact hheard.entersAtMarker hr htake ha hcond hl (acts := []) (u := { (s.heardFrom d.src).usedChoice with mark := _ })
        (fun v hcfg hv => (takeEntered_joins (hlane v hv) hover (by omega)).trans
          (holdTest_few (by rw [lane_setLane]; simp; omega) _)) (fun _ => rfl) rfl (heardFrom_still _ _)
    · exact hheard.entersAtMarker hr htake ha hcond hl
        (u := { (s.heardFrom d.src).usedChoice.queues (jobFrame b.head (.hold k) .plain) with mark := _ })
        (fun v hcfg hv => (takeEntered_joins (hlane v hv) hover h6).trans
          ((holdTest_many (by rw [hcfg]; exact hhead) (by rw [lane_setLane]; simp; omega)).trans
            (congrArg (fun m => Eff.mk' m _) (setLane_setLane _ _ _ _))))
        (fun _ => perform_job _ b.head (.hold k) .plain (by exact h.1.1) (by exact JobRoom.heard _ hroom)) rfl
        (heardFrom_still _ _)
    · exact hheard.entersAtMarker hr htake ha hcond hl
        (u := { (s.heardFrom d.src).usedChoice.report _ with mark := _ })
        (fun v hcfg hv => takeEntered_kept (hlane v hv) hover h6) (fun _ => rfl) rfl (heardFrom_still _ _)
    · exact hheard.entersAtMarker hr htake ha hcond hl
        (u := { (s.heardFrom d.src).usedChoice.report _ with mark := _ })
        (fun v hcfg hv => takeEntered_lost (hlane v hv) hover) (fun _ => rfl) rfl (heardFrom_still _ _)
  · exact (HeardAs.alone h).entersAtHead hr (fun _ => takeInv_enters hph hx ho hc hsrc hv hord) hs hch hci hct hh

end Sys2Proof.Machine

/-! ## HEADER at a copy and at a second owner (O11) -/

namespace Sys2Proof.Machine

/-! ### HEADER at a copy (R26, R28, R37, R49) -/

section
variable {i : Inv} {s : State} {b : HeaderBody} {x : Entry} {src : Nat}

/-- The copy that a HEADER of the next version leaves, its closed timer set to `t`. -/
def Entry.withHeader (x : Entry) (b : HeaderBody) (t : Timer) : Entry :=
  { x with data := { x.data with hdr := b.hdr }, orphan := false, adoptT := .stopped, staleT := .stopped, closedT := t,
           rebuild := none }

/-- What a copy is told by a HEADER of the next version under its owner: no gap in the voids, no dump (R26, R36). -/
structure NextHeader (i : Inv) (s : State) (b : HeaderBody) (x : Entry) : Prop where
  found : i.find b.hdr.inv = some x
  own : x.own = none
  copy : x.copy = .complete
  dump : b.dump = false
  owner : x.data.hdr.owner = b.hdr.owner
  season : b.hdr.inv ≤ s.cfg.last
  version : b.hdr.version = x.data.hdr.version + 1
  voids : b.hdr.voidCount = x.data.voids.length

theorem NextHeader.applies (h : NextHeader i s b x) (hr : b.hdr.state ≠ .retired) :
    i.takeHeader s src b = (i.raise b.hdr.inv).applyHeader b.hdr.inv x b x.data.voids := by
  have hx : (i.raise b.hdr.inv).find b.hdr.inv = some x := h.found
  have hvoids : x.data.voidsAfter b = some x.data.voids := by simp [Rec.voidsAfter, h.voids]
  simp [Inv.takeHeader, h.season, hx, h.own, hr, h.dump, h.copy, gapTest, h.version, hvoids]

/-- A HEADER that leaves the copy short of CLOSED. -/
theorem NextHeader.takes (h : NextHeader i s b x)
    (hs : b.hdr.state = .opened ∨ b.hdr.state = .ending ∨ b.hdr.state = .marking) :
    i.takeHeader s src b = Eff.mk'
      { i.upd b.hdr.inv (fun _ => x.withHeader b .stopped) with mark := max i.mark b.hdr.inv } (copyNotice b.hdr.inv) := by
  have hown := h.owner
  rw [h.applies (by rcases hs with hs | hs | hs <;> simp [hs])]
  rcases hs with hs | hs | hs <;> simp [Inv.applyHeader, hs, hown, isLate, Entry.unorphaned, Entry.withHeader, Inv.raise,
    Inv.upd, Eff.mk']

/-- A HEADER that closes the copy gives the closure notice (R159). -/
theorem NextHeader.closes (h : NextHeader i s b x) (hs : b.hdr.state = .closed) (hw : x.rebuild = none)
    (hx : x.data.hdr.state ≠ .closed) :
    i.takeHeader s src b = Eff.mk'
      { i.upd b.hdr.inv (fun _ => x.withHeader b (.running 10000)) with mark := max i.mark b.hdr.inv }
      (copyNotice b.hdr.inv ++ [.post .paper (.closure b.hdr.inv)]) := by
  have hown := h.owner
  have hwas : x.wasClosed = false := by simp [Entry.wasClosed, hw, hx]
  rw [h.applies (by simp [hs])]
  simp [Inv.applyHeader, hs, hown, hwas, isLate, Entry.unorphaned, Entry.withHeader, Inv.raise, Inv.upd, Eff.mk',
    Config.closedTime]

theorem found_withHeader (hx : i.find b.hdr.inv = some x) (t : Timer) :
    (i.upd b.hdr.inv (fun _ => x.withHeader b t)).find b.hdr.inv = some (x.withHeader b t) := by
  rw [find_upd_self i b.hdr.inv (fun _ => x.withHeader b t) (fun _ _ => rfl), hx]
  rfl

/-- A HEADER of an invoice not yet heard of makes its entry (R24, R37). -/
theorem takeHeader_makes (hx : i.find b.hdr.inv = none) (hroom : i.table.length < Config.tableEntries)
    (hf : s.cfg.first ≤ b.hdr.inv) (hl : b.hdr.inv ≤ s.cfg.last) (hd : b.dump = false) (hs : b.hdr.state = .opened)
    (he : b.hdr.entered = 0) (hv : b.hdr.voidCount = 0) :
    i.takeHeader s src b = Eff.mk'
      { i with table := i.table ++ [Entry.made b.hdr .complete], mark := max i.mark b.hdr.inv }
      (.post .paper (.entryMade b.hdr.inv) :: copyNotice b.hdr.inv) := by
  have hx' : (i.raise b.hdr.inv).find b.hdr.inv = none := hx
  have hfull : (i.raise b.hdr.inv).full = false := decide_eq_false (Nat.not_le.2 hroom)
  have hseason : s.inSeason b.hdr.inv = true := by simp [State.inSeason, hf, hl]
  simp [Inv.takeHeader, hl, hx', hs, Inv.makeEntry, hseason, hfull, hd, he, hv, Eff.mk', Eff.adds, Entry.made]
  simp [Inv.raise]

/-- HEADER(RETIRED) frees the entry of a copy (R49). -/
theorem takeHeader_retires (hx : i.find b.hdr.inv = some x) (ho : x.own = none) (hl : b.hdr.inv ≤ s.cfg.last)
    (hs : b.hdr.state = .retired) :
    i.takeHeader s src b = Eff.mk'
      { i with table := i.table.filter (fun y => y.num != b.hdr.inv), mark := max i.mark b.hdr.inv }
      (posts [.blend, .mark, .paper] (.entryFreed b.hdr.inv)) := by
  have hx' : (i.raise b.hdr.inv).find b.hdr.inv = some x := hx
  simp [Inv.takeHeader, hl, hx', ho, hs, Inv.free, Eff.mk']
  simp [Inv.raise]

end

/-! ### Two owners (R45, R47) -/

section
variable {i : Inv} {s : State} {x : Entry} {o : OwnerRec} {n src v : Nat} {named : Bool}

theorem takeHeader_owned {b : HeaderBody} (hx : i.find b.hdr.inv = some x) (ho : x.own = some o)
    (hl : b.hdr.inv ≤ s.cfg.last) (hs : b.hdr.state ≠ .retired) :
    i.takeHeader s src b =
      (i.raise b.hdr.inv).twoOwners s b.hdr.inv src b.hdr.version (b.hdr.owner != s.self) := by
  have hx' : (i.raise b.hdr.inv).find b.hdr.inv = some x := hx
  simp [Inv.takeHeader, hl, hx', ho, hs, Eff.andThen, Eff.pure]

theorem takeAdopt_owned {b : AdoptBody} (hx : i.find b.inv = some x) (ho : x.own = some o) :
    i.takeAdopt s src b = i.twoOwners s b.inv src b.version true := by
  simp [Inv.takeAdopt, hx, ho]

/-- A copy of which another station is owner now (R45). -/
def Entry.yielded (x : Entry) (src : Nat) : Entry :=
  { x with own := none, copy := .stale, data := { x.data with hdr := { x.data.hdr with owner := src } } }

section
variable (hx : i.find n = some x) (ho : x.own = some o)
include hx ho

theorem owned_eq : i.owned n = some o := (owned_of_find hx).trans ho

/-- A frame below the issued version is passed over. -/
theorem twoOwners_below (hv : v < o.issued) : i.twoOwners s n src v named = Eff.pure i := by
  have h1 : ¬ o.issued < v := by omega
  have h2 : v ≠ o.issued := by omega
  have h3 : ¬ o.issued ≤ v := by omega
  cases named <;> simp [Inv.twoOwners, owned_eq hx ho, h1, h2, h3]

/-- In the join period one that names this station changes nothing (log 14). -/
theorem twoOwners_unnamed (hj : s.isJoining = true) : i.twoOwners s n src v false = Eff.pure i := by
  simp [Inv.twoOwners, owned_eq hx ho, hj]

/-- In the join period one at the issued version waits for its end. -/
theorem twoOwners_conflict (hj : s.isJoining = true) (hv : v = o.issued) :
    i.twoOwners s n src v true = Eff.pure (i.updOwn n (fun y => { y with
      conflicts := if src ∈ y.conflicts then y.conflicts else y.conflicts ++ [src] })) := by
  simp [Inv.twoOwners, owned_eq hx ho, hj, hv]
  rfl

/-- The lower number keeps the invoice: a HEADER above both versions. -/
theorem twoOwners_keeps (hj : s.isJoining = false) (hv : o.issued ≤ v) (hmax : v < Config.maxVersion) (hn : s.self < src)
    (hd : o.resendDelay = .stopped) :
    i.twoOwners s n src v named = Eff.mk' (i.updOwn n (fun y => { y with
        issued := v + 1, view := { o.view with hdr := { o.view.hdr with version := v + 1, owner := s.self } } }))
      [.send (jobFrame 0 (headerMsg { o.view.hdr with version := v + 1, owner := s.self } false none)
        (.versioned n (v + 1)))] := by
  have hmaxv : max o.issued v = v := max_eq_right hv
  have hroom : ¬ v + 1 > Config.maxVersion := by omega
  have hown : (i.updOwn n (fun y => { y with issued := v + 1, view := { o.view with hdr :=
      { o.view.hdr with version := v + 1, owner := s.self } } })).owned n =
      some { o with issued := v + 1, view := { o.view with hdr := { o.view.hdr with version := v + 1, owner := s.self } } } := by
    rw [owned_updOwn, owned_eq hx ho]
    rfl
  simp only [Inv.twoOwners, owned_eq hx ho, hj, hv, Inv.settleOwners, hn, Inv.keep, hmaxv, hroom]
  exact sendOwned_now hown (by exact hd) _

omit ho in
/-- The owner that yields is a STALE replica of the new one and asks it. -/
theorem yieldTo_asks (hph : i.phase = .idle) (ha : x.askT = .stopped) (horph : x.orphan = false) :
    i.yieldTo s n src = Eff.mk' (i.upd n (fun y => { y.yielded src with askT := .running 500 }))
      ([.unsend (.versionedAll n), .send (jobFrame src (.recordAsk n) (.ask n))] ++ (ownerNotice n ++ copyNotice n)) := by
  have hfind : (i.upd n (fun y => y.yielded src)).find n = some (x.yielded src) := by
    rw [find_upd_self i n (fun y => y.yielded src) (fun _ h => h), hx]
    rfl
  have hup := upd_upd i n (fun y => y.yielded src) (fun y => { y with askT := .running 500 }) (fun _ h => h)
  have hask : (i.upd n (fun y => y.yielded src)).ask s n src =
      Eff.mk' (i.upd n (fun y => { y.yielded src with askT := .running 500 }))
        [.send (jobFrame src (.recordAsk n) (.ask n))] := by
    have ha' : (x.yielded src).askT = .stopped := ha
    have horph' : (x.yielded src).orphan = false := horph
    rw [← hup]
    simp only [Inv.ask, hfind, ha', horph']
    rfl
  have hlost : (i.upd n (fun y => { y.yielded src with askT := .running 500 })).claimLost s n =
      Eff.pure (i.upd n (fun y => { y.yielded src with askT := .running 500 })) := by
    have hphase : (i.upd n (fun y => { y.yielded src with askT := .running 500 })).phase = .idle := hph
    simp [Inv.claimLost, Inv.claiming, hphase]
  show ((((Eff.mk' (i.upd n (fun y => y.yielded src)) [.unsend (.versionedAll n)]).andThen
    (fun i => i.ask s n src)).adds (ownerNotice n ++ copyNotice n)).andThen (fun i => i.claimLost s n)) = _
  simp only [Eff.andThen, Eff.mk', Eff.adds, hask, hlost]
  simp [Eff.pure]

theorem twoOwners_yields
    (h : (s.isJoining = false ∧ o.issued ≤ v ∧ src < s.self) ∨ (s.isJoining = true ∧ named = true ∧ o.issued < v)) :
    i.twoOwners s n src v named = i.yieldTo s n src := by
  rcases h with ⟨hj, hv, hn⟩ | ⟨hj, rfl, hv⟩
  · have hn' : ¬ s.self < src := by omega
    simp [Inv.twoOwners, owned_eq hx ho, hj, hv, Inv.settleOwners, hn']
  · simp [Inv.twoOwners, owned_eq hx ho, hj, hv]

end

end

/-! ### The paper unit's part (R159, R161, R162) -/

section
variable {s : State} {n : Nat} {x : Entry}

/-- The tail takes the next closure sequence: none in the queue is above it (R161). -/
theorem placeSheet_last {k : PaperEntry} {l : List PaperEntry} (h : l.all (fun e => decide (e.seq ≤ k.seq)) = true) :
    placeSheet k l = l ++ [k] := by
  induction l with
  | nil => rfl
  | cons e l ih =>
    simp only [List.all_cons, Bool.and_eq_true, decide_eq_true_eq] at h
    have hk : ¬ k.seq < e.seq := Nat.not_lt.2 h.1
    rw [placeSheet, if_neg hk, ih h.2]
    rfl

/-- A closure notice puts a COMPLETE copy at the queue's end (R161). -/
theorem paper_closure (ha : s.paper.acting = true) (hl : s.paper.lists n = false) (hx : s.inv.find n = some x)
    (hs : x.data.hdr.state = .closed) (hc : x.copy = .complete)
    (hroom : s.paper.queue.length + s.paper.waiting.length < 16)
    (hq : s.paper.queue.all (fun k => decide (k.seq ≤ s.paper.nextSeq)) = true) :
    takePaper s (.closure n) = Eff.mk' { s.paper with
        queue := s.paper.queue ++ [{ inv := n, seq := s.paper.nextSeq }], nextSeq := s.paper.nextSeq + 1 }
      [sheetReady n] := by
  have hfull : ¬ s.paper.queue.length + s.paper.waiting.length ≥ Config.tableEntries := Nat.not_le.2 hroom
  have hlast := placeSheet_last (k := { inv := n, seq := s.paper.nextSeq }) hq
  show s.paper.notice s n = _
  simp [Paper.notice, ha, hl, hx, hs, Paper.takeClosure, hfull, hc, find_num hx, hlast]

/-- A copy that is not CLOSED leaves the lists (R161). -/
theorem paper_unlists (hx : s.inv.find n = some x) (hs : x.data.hdr.state ≠ .closed) :
    takePaper s (.copyChanged n) = Eff.pure (s.paper.unlist n) := by
  show s.paper.copied s n = _
  simp [Paper.copied, hx, hs]

theorem paper_rests (hl : s.paper.lists n = false) (hx : s.inv.find n = some x) (hs : x.data.hdr.state = .closed) :
    takePaper s (.copyChanged n) = Eff.pure s.paper := by
  have hnone : s.paper.waiting.find? (fun k => k.inv == n) = none := by
    simp only [Paper.lists, List.any_append, Bool.or_eq_false_iff, List.any_eq_false] at hl
    exact List.find?_eq_none.2 hl.2
  show s.paper.copied s n = _
  simp [Paper.copied, hx, hs, hnone]

end

/-! ### The frames at a station without marker and paper unit, and at the paper unit -/

section
variable {s t u : State} {d : Env} {m : Msg} {i : Inv} {l : List Act}

/-- A frame that the invoice unit takes, and whose notices `u` comes of. -/
theorem hear_drains {q : Jobs} (h : Hears s d m) (hm : takers m = [.inv])
    (hb : s.inv.takeFrame (s.heardFrom d.src) d.src m false = Eff.mk' i l) (hph : i.phase ≠ .waitFree)
    (hp : ({ s.heardFrom d.src with inv := i } : State).perform l = (t, q)) (hd : drain 4095 t q = u)
    (ho : u.head.owedDone = []) (hs : u.still) : s.hear .other d (some m) = u := by
  rw [hear_one s d m .inv h hm, ← tryTransmit_quiet u hs]
  exact settle_drain (drain_job (n := 4095) (job_inv (canSend_working h.1.1) (takeInv_frame hb hph) hp)
    (by rw [List.nil_append]; exact hd)) ho

end

section
variable {s t : State} {d : Env} {m : Msg} {r : Eff Inv} {i : Inv} {x : Entry} {n : Nat}

/-- A frame of the invoice unit that raises no notice. -/
theorem hear_inv_alone (h : Hears s d m) (hm : takers m = [.inv])
    (hb : s.inv.takeFrame (s.heardFrom d.src) d.src m false = r) (hph : r.st.phase ≠ .waitFree)
    (hp : ({ s.heardFrom d.src with inv := r.st } : State).perform r.acts = (t, [])) (hs : t.still) :
    s.hear .other d (some m) = t :=
  hear_inv h hm hb hph hp (by simp) hs

/-- A frame by which an owner yields to its sender (R45). -/
theorem hear_yields (h : Hears s d m) (hm : takers m = [.inv])
    (hb : s.inv.takeFrame (s.heardFrom d.src) d.src m false = i.yieldTo (s.heardFrom d.src) n d.src)
    (hmark : s.cfg.roles.mark = false) (hpaper : s.cfg.roles.paper = false) (hx : i.find n = some x)
    (hph : i.phase = .idle) (ha : x.askT = .stopped) (horph : x.orphan = false)
    (htx : s.line.txq.all (fun f => !(Unsend.versionedAll n).hits f) = true) (hbatch : s.blend.batchInv ≠ some n)
    (hchest : s.head.chestInv ≠ some n) (hroom : JobRoom s) :
    s.hear .other d (some m) = { (s.heardFrom d.src).queues (jobFrame d.src (.recordAsk n) (.ask n)) with
      inv := i.upd n (fun y => { y.yielded d.src with askT := .running 500 }) } := by
  have hun : (s.heardFrom d.src).line.txq.all (fun f => !(Unsend.versionedAll n).hits f) = true := by
    rw [heardFrom_txq]
    exact htx
  have hphase : (i.upd n (fun y => { y.yielded d.src with askT := .running 500 })).phase ≠ .waitFree := by
    show i.phase ≠ .waitFree
    rw [hph]
    exact ClaimPhase.noConfusion
  refine hear_inv h hm (hb.trans (yieldTo_asks hx hph ha horph)) hphase
    (perform_append (perform_then (perform1_unsend_none (by exact hun))
      (by exact perform_job _ _ _ _ h.1.1 (JobRoom.heard _ hroom)))
      (perform_append (perform_posts _ _ _) (perform_posts _ _ _)))
    (List.forall_mem_append.2 ⟨by simp, List.forall_mem_append.2 ⟨?_, ?_⟩⟩) (heardFrom_still s d.src)
  · exact ownerNotice_idle (by exact hmark) (by exact hpaper) (by exact hbatch) (by exact hchest)
  · exact copyNotice_idle n (by exact hmark) (by exact hpaper)

end

/-- Settles O11. -/
theorem headerTaken : Obligations.HeaderTaken := by
  refine ⟨fun s d b x h hm hp hph hx ho hc hd hown hlast hv hvoids hs => ?_,
    fun s d b h hm hp hph hx hroom hf hlast hd hs he hv => ?_,
    fun s d b x h hr hph hx ho hlast => ⟨fun hc hw hd hown hv hvoids hs hx' ha hl hroom hq => ?_, fun hs => ?_,
      fun hc hd hown hv hvoids hs => ?_⟩,
    fun s d b x o h hm hp hph hx ho hlast hs => ?_, fun s d b x o h hm hp hph hx ho hj => ?_,
    fun s d b x o h hm hp hph hx ho => ?_⟩
  · have hnext : NextHeader s.inv (s.heardFrom d.src) b x := ⟨hx, ho, hc, hd, hown, hlast, hv, hvoids⟩
    exact next_eq (hear_inv h rfl (hnext.takes hs) hph (perform_posts _ _ _) (copyNotice_idle _ hm hp)
      (heardFrom_still s d.src))
  · refine next_eq (hear_inv h rfl (takeHeader_makes hx hroom hf hlast hd hs he hv) hph
      (perform_post (perform_posts _ _ _)) ?_ (heardFrom_still s d.src))
    exact List.forall_mem_cons.2 ⟨takeJob_no_paper _ _ hp, copyNotice_idle _ hm hp⟩
  · have hnext : NextHeader s.inv (s.heardFrom d.src) b x := ⟨hx, ho, hc, hd, hown, hlast, hv, hvoids⟩
    have hfind := found_withHeader hx (.running 10000)
    refine next_eq (hear_drains h rfl (hnext.closes hs hw hx') hph (perform_append (perform_posts _ _ _) rfl)
      (drain_job (n := 4094) (takeJob_no_mark _ _ (by exact congrArg Roles.mark hr))
        (drain_job (n := 4093) (idle_paper (paper_rests (by exact hl) (by exact hfind) hs))
          (drain_job (n := 4092) (job_paper (canSend_working h.1.1) (by exact congrArg Roles.paper hr)
            (paper_closure (x := x.withHeader b (.running 10000)) (by exact ha) (by exact hl) (by exact hfind) hs hc
              (by exact hroom) (by exact hq)) rfl) rfl)))
      (by exact h.1.2) (heardFrom_still s d.src))
  · refine next_eq (hear_drains h rfl (takeHeader_retires hx ho hlast hs) hph (perform_posts _ _ _)
      (drain_job (n := 4094) (takeJob_no_blend _ _ (by exact congrArg Roles.blend hr))
        (drain_job (n := 4093) (takeJob_no_mark _ _ (by exact congrArg Roles.mark hr))
          (drain_job (n := 4092) (job_paper (canSend_working h.1.1) (by exact congrArg Roles.paper hr) rfl rfl) rfl)))
      (by exact h.1.2) (heardFrom_still s d.src))
  · have hnext : NextHeader s.inv (s.heardFrom d.src) b x := ⟨hx, ho, hc, hd, hown, hlast, hv, hvoids⟩
    have hfind := found_withHeader hx .stopped
    refine next_eq (hear_drains h rfl (hnext.takes hs) hph (perform_posts _ _ _)
      (drain_job (n := 4094) (takeJob_no_mark _ _ (by exact congrArg Roles.mark hr))
        (drain_job (n := 4093) (job_paper (canSend_working h.1.1) (by exact congrArg Roles.paper hr) (paper_unlists (by exact hfind)
          (by show b.hdr.state ≠ .closed; rcases hs with hs | hs | hs <;> simp [hs])) rfl) rfl))
      (by exact h.1.2) (heardFrom_still s d.src))
  · have hph' : s.inv.phase ≠ .waitFree := by rw [hph]; exact ClaimPhase.noConfusion
    have hx' : (s.inv.raise b.hdr.inv).find b.hdr.inv = some x := hx
    have hown := takeHeader_owned (s := s.heardFrom d.src) (src := d.src) hx ho hlast hs
    refine ⟨fun hj hv => ?_, fun hj hv => ?_, fun hj hne hv => ?_, fun hj hv hmax hn hdelay hroom => ?_,
      fun hwhen htx ha horph hb hc hroom => ?_⟩
    · exact next_eq (hear_inv_alone h rfl (hown.trans (twoOwners_below hx' ho hv)) hph' (perform_nil _)
        (heardFrom_still s d.src))
    · refine next_eq (hear_inv_alone h rfl (hown.trans (?_ : _ = Eff.pure (s.inv.raise b.hdr.inv))) hph' (perform_nil _)
        (heardFrom_still s d.src))
      rcases hv with hv | hv
      · rw [show (b.hdr.owner != (s.heardFrom d.src).self) = false from bne_eq_false_iff_eq.2 hv]
        exact twoOwners_unnamed hx' ho hj
      · exact twoOwners_below hx' ho hv
    · have hnamed : (b.hdr.owner != (s.heardFrom d.src).self) = true := bne_iff_ne.2 hne
      rw [hnamed] at hown
      exact next_eq (hear_inv_alone h rfl (hown.trans (twoOwners_conflict hx' ho hj hv)) hph' (perform_nil _)
        (heardFrom_still s d.src))
    · exact ⟨_, rfl, next_eq (hear_inv_alone h rfl (hown.trans (twoOwners_keeps hx' ho hj hv hmax hn hdelay)) hph'
        (by exact perform_job _ _ _ _ h.1.1 (JobRoom.heard _ hroom)) (heardFrom_still s d.src))⟩
    · refine next_eq (hear_yields h rfl (hown.trans (twoOwners_yields hx' ho ?_)) hm hp hx' hph ha horph htx hb hc hroom)
      exact hwhen.imp id fun ⟨hj, hne, hv⟩ => ⟨hj, bne_iff_ne.2 hne, hv⟩
  · have hph' : s.inv.phase ≠ .waitFree := by rw [hph]; exact ClaimPhase.noConfusion
    have hown := takeAdopt_owned (s := s.heardFrom d.src) (src := d.src) hx ho
    refine ⟨fun hv => ?_, fun hv hmax hn hdelay hroom => ?_⟩
    · exact next_eq (hear_inv_alone h rfl (hown.trans (twoOwners_below hx ho hv)) hph' (perform_nil _)
        (heardFrom_still s d.src))
    · exact ⟨_, rfl, next_eq (hear_inv_alone h rfl (hown.trans (twoOwners_keeps hx ho hj hv hmax hn hdelay)) hph'
        (by exact perform_job _ _ _ _ h.1.1 (JobRoom.heard _ hroom)) (heardFrom_still s d.src))⟩
  · have hph' : s.inv.phase ≠ .waitFree := by rw [hph]; exact ClaimPhase.noConfusion
    have hown := takeAdopt_owned (s := s.heardFrom d.src) (src := d.src) hx ho
    refine ⟨fun hj hv => ?_, fun hj hv => ?_, fun hwhen htx ha horph hb hc hroom => ?_⟩
    · exact next_eq (hear_inv_alone h rfl (hown.trans (twoOwners_below hx ho hv)) hph' (perform_nil _)
        (heardFrom_still s d.src))
    · exact next_eq (hear_inv_alone h rfl (hown.trans (twoOwners_conflict hx ho hj hv)) hph' (perform_nil _)
        (heardFrom_still s d.src))
    · exact next_eq (hear_yields h rfl (hown.trans (twoOwners_yields hx ho (hwhen.imp id fun ⟨hj, hv⟩ => ⟨hj, rfl, hv⟩)))
        hm hp hx hph ha horph htx hb hc hroom)

end Sys2Proof.Machine

/-! ## NOTED (O21) -/

namespace Sys2Proof.Machine

section
variable {s t : State} {d : Env} {m : Msg} {z : Exchange}

/-- A frame that no block takes. -/
theorem hear_untaken (h : Hears s d m) (hm : takers m = []) : s.hear .other d (some m) = s.heardFrom d.src := by
  show s.act (fun s => s.receive .other d (some m)) = _
  rw [act_working _ _ (canSend_working h.1.1), receive_hears s d m h, hm, if_pos (by decide)]
  exact (settle_nil (s.heardFrom d.src) h.1.2).trans (tryTransmit_quiet _ (heardFrom_still s d.src))

/-- A frame that no block takes and that ends one exchange. -/
theorem hear_ends (h : HearsEnd s d m z) (hm : takers m = [])
    (hjob : (s.heardEnding d.src z.id).takeJob (exBlock z.key) (.exEnded z .confirmed (some m) false) = (t, []))
    (ho : t.head.owedDone = []) (ht : t.still) : s.hear .other d (some m) = t := by
  show s.act (fun s => s.receive .other d (some m)) = _
  rw [act_working _ _ (canSend_working h.1.1), receive_ends s d m z h, hm, if_pos (by decide), ← tryTransmit_quiet t ht]
  exact settle_one _ _ _ _ hjob ho

/-- A NOTED for a RECORD-ASK or a MARK-DONE is taken by a block, another by none (R15). -/
theorem takers_noted {b : NotedBody} (h1 : b.kind ≠ .recordAsk) (h2 : b.kind ≠ .markDone) : takers (.noted b) = [] := by
  simp [takers, h1, h2]

/-- NOTED(NOT_HELD) for a RECORD-ASK makes a copy that is not CLOSED an orphan (R38). -/
theorem takeNotHeld_orphans {i : Inv} {b : NotedBody} {x : Entry} (hr : b.result = .notHeld)
    (hx : i.find b.number = some x) (ho : x.own = none) (hs : x.data.hdr.state ≠ .closed) :
    i.takeNotHeld s b = Eff.pure (i.upd b.number s.orphaned) := by
  simp [Inv.takeNotHeld, hx, hr, ho, hs]

/-- NOTED for the FILL-VOID confirms the void of a chest that still stands on the platform (R118). -/
theorem takeExEnd_fillVoid {n : Nat} {c : ChestNow} {b : NotedBody} (hkey : z.key = .fillVoid n c.token)
    (hs : s.head.state = .voiding) (hv : s.head.voidOk = false) (he : s.head.emptied = false)
    (hc : s.head.chest = some c) (hi : c.inv = some n) :
    takeHead s (.exEnded z .confirmed (some (.noted b)) false) = Eff.pure { s.head with voidOk := true } := by
  show s.head.takeExEnd s z .confirmed (some (.noted b)) false = _
  simp [Head.takeExEnd, hkey, hs, hv, Head.isChest, hc, hi, Head.voidEnd, he]

end

/-- Settles O21. -/
theorem notedTaken : Obligations.NotedTaken := by
  intro s d b
  refine ⟨fun h h1 h2 => ?_, fun x h hph hk hr hx ho hs => ?_,
    fun x c n h hsrc hdst hp hr hex hkey hpeer htx hk hn hs hv he hc hi => ?_⟩
  · exact next_eq (hear_untaken h (takers_noted h1 h2))
  · have hm : takers (.noted b) = [.inv] := by simp [takers, hk]
    have htake : s.inv.takeFrame (s.heardFrom d.src) d.src (.noted b) false =
        Eff.pure (s.inv.upd b.number (s.heardFrom d.src).orphaned) := by
      show (if b.kind == .recordAsk then s.inv.takeNotHeld (s.heardFrom d.src) b else Eff.pure s.inv) = _
      rw [hk]
      exact takeNotHeld_orphans hr hx ho hs
    exact next_eq (hear_inv_alone h hm htake hph (perform_nil _) (heardFrom_still s d.src))
  · have hconf : confirms s.self d.src d.dst (.noted b) x = true := by simp [confirms, hkey, hpeer, hk, hn]
    have hends : HearsEnd s d (.noted b) x := ⟨h, hsrc, hdst, hp, by rw [hex]; simp [hconf], htx⟩
    have hhead := takeExEnd_fillVoid (s := s.heardEnding d.src x.id) (b := b) hkey hs hv he hc hi
    have hblock : exBlock x.key = .head := by rw [hkey]; rfl
    have hjob := job_head (s := s.heardEnding d.src x.id) (by exact canSend_working h.1) hr hhead rfl
    rw [← hblock] at hjob
    refine next_eq ((hear_ends hends (takers_noted (by simp [hk]) (by simp [hk])) hjob (by exact h.2)
      (heardEnding_still s d.src x.id)).trans ?_)
    have hnone : s.line.exchanges.filter (fun y => y.id != x.id) = [] := by rw [hex]; simp
    simp [State.heardEnding, hnone]
    rfl

end Sys2Proof.Machine

/-! ## JOIN, PRESENCE and the timers of the station table (O22, O23, O24)

Two layers carry the statements: jobs leave the station table alone, so that its entries are those that the frame or the timer
has written; and an event of the station table moves only the blocks that it concerns. -/

namespace Sys2Proof.Machine

/-! ### The station table is left alone by jobs -/

section
variable {s : State}

@[simp] theorem removeWhere_table (l : Line) (p : TxFrame → Bool) : (l.removeWhere p).table = l.table := by
  unfold Line.removeWhere
  repeat' split
  all_goals rfl

@[simp] theorem dropEx_table (l : Line) (id : Nat) : (l.dropEx id).table = l.table := rfl

@[simp] theorem endAll_table (l : Line) (x : List Exchange) : (l.endAll x).table = l.table := by
  induction x generalizing l with
  | nil => rfl
  | cons x r ih => simp [Line.endAll, ih]

@[simp] theorem tellFailed_table (s : State) (f : TxFrame) (b : Bool) : (s.tellFailed f b).1.line.table = s.line.table := by
  unfold State.tellFailed
  repeat' split
  all_goals simp

@[simp] theorem sendFrame_table (s : State) (f : TxFrame) : (s.sendFrame f).1.line.table = s.line.table := by
  unfold State.sendFrame
  split
  · simp
  · split
    · simp
    · rfl

@[simp] theorem openExchange_table (s : State) (k : ExKey) (m : Msg) (d p : Nat) (b : Bool) :
    (s.openExchange k m d p b).1.line.table = s.line.table := by
  unfold State.openExchange
  dsimp only
  repeat' split
  all_goals simp

@[simp] theorem perform1_table (s : State) (a : Act) : (s.perform1 a).1.line.table = s.line.table := by
  cases a <;> simp [State.perform1]

@[simp] theorem perform_table (l : List Act) (s : State) : (s.perform l).1.line.table = s.line.table := by
  induction l generalizing s with
  | nil => rfl
  | cons a l ih => simp [State.perform, ih]

@[simp] theorem takeStart_table (s : State) (e : Ev) : (s.takeStart e).1.line.table = s.line.table := by
  unfold State.takeStart
  repeat' split
  all_goals simp

@[simp] theorem takeJob_table (s : State) (b : Block) (e : Ev) : (s.takeJob b e).1.line.table = s.line.table := by
  unfold State.takeJob
  split
  · cases b <;> simp [State.runInv, State.runBlend, State.runArb, State.runHead, State.runMark, State.runPaper]
  · rfl

@[simp] theorem payDone_table (s : State) : s.payDone.1.line.table = s.line.table := by
  unfold State.payDone
  repeat' split
  all_goals simp

/-- The end of a command leaves the station table as the command's own effect has it. -/
@[simp] theorem settle_table (r : State × Jobs) : (State.settle r).line.table = r.1.line.table :=
  settle_keeps (fun t => t.line.table = r.1.line.table) (fun u b e h => by simp [h]) (fun u h => by simp [h])
    (fun u h => by simp [h]) r rfl

theorem peer_of_table {l m : Line} (h : l.table = m.table) (n : Nat) : l.peer n = m.peer n := by
  unfold Line.peer
  rw [h]

theorem peer_setPeer_same (l : Line) {n : Nat} (h1 : 1 ≤ n) (h2 : n ≤ 24) (p : Peer) : (l.setPeer n p).peer n = p := by
  obtain ⟨k, rfl⟩ : ∃ k, n = k + 1 := ⟨n - 1, by omega⟩
  have hk : k < 24 := by omega
  simp [Line.setPeer, Line.peer, hk]

theorem peer_setPeer_other (l : Line) {n k : Nat} (h : k ≠ n) (p : Peer) : (l.setPeer n p).peer k = l.peer k := by
  cases n with
  | zero => rfl
  | succ n =>
    cases k with
    | zero => rfl
    | succ k => 
      have : n ≠ k := fun he => h (by rw [he])
      simp [Line.setPeer, Line.peer, Vector.getElem?_setIfInBounds_ne this]

/-- What a command leaves that only writes one entry of the station table: jobs and reports apart. -/
structure WritesPeer (s t : State) (n : Nat) (p : Peer) : Prop where
  table : t.line.table = (s.line.setPeer n p).table
  cfg : t.cfg = s.cfg
  cfgMem : t.cfgMem = s.cfgMem
  state : t.start.state = s.start.state
  presence : t.presence = s.presence

theorem WritesPeer.settle {r : State × Jobs} {n : Nat} {p : Peer} (h : WritesPeer s r.1 n p) :
    WritesPeer s (State.settle r) n p := by
  obtain ⟨ht, hc, hm, hs, hp⟩ := h
  exact ⟨by simp [ht], by simp [hc], by simp [hm], by simp [hs], by simp [hp]⟩

theorem WritesPeer.entries {t : State} {n : Nat} {p : Peer} (h : WritesPeer s t n p) (h1 : 1 ≤ n) (h2 : n ≤ 24) :
    t.line.peer n = p ∧ (∀ k, k ≠ n → t.line.peer k = s.line.peer k) ∧ t.cfg = s.cfg ∧ t.cfgMem = s.cfgMem ∧
      t.start.state = s.start.state ∧ t.presence = s.presence := by
  refine ⟨?_, fun k hk => ?_, h.cfg, h.cfgMem, h.state, h.presence⟩
  · rw [peer_of_table h.table, peer_setPeer_same _ h1 h2]
  · rw [peer_of_table h.table, peer_setPeer_other _ hk]

theorem setPeer_table_congr {l m : Line} (h : l.table = m.table) (n : Nat) (p : Peer) :
    (l.setPeer n p).table = (m.setPeer n p).table := by
  cases n with
  | zero => exact h
  | succ n => simp [Line.setPeer, h]

theorem WritesPeer.answerJoin {t : State} {n : Nat} {p : Peer} (h : WritesPeer s t n p) :
    WritesPeer s t.answerJoin.1 n p := by
  obtain ⟨ht, hc, hm, hs, hp⟩ := h
  unfold State.answerJoin
  split
  · exact ⟨ht, hc, hm, hs, hp⟩
  · exact ⟨by simp [ht], by simp [hc], by simp [hm], by simp [hs], by simp [hp]⟩

theorem WritesPeer.hand {t : State} {n : Nat} {p : Peer} (h : WritesPeer s t n p) (a b : Nat) (m : Msg) (c : Bool) :
    WritesPeer s (t.hand a b m c).1 n p := by
  obtain ⟨ht, hc, hm, hs, hp⟩ := h
  unfold State.hand
  dsimp only
  split
  · exact ⟨by simp [ht], hc, hm, hs, hp⟩
  · exact ⟨by simp [ht, State.usedChoice], hc, hm, hs, hp⟩

theorem entryBecomes_writes (s : State) (n : Nat) (p : Peer) (v : Via) : WritesPeer s (s.entryBecomes n p v).1 n p := by
  unfold State.entryBecomes State.entryMoved
  dsimp only
  repeat' split
  all_goals exact ⟨rfl, rfl, rfl, rfl, rfl⟩

/-- A frame accepted from another station writes its entry (R20). -/
theorem receive_writes {d : Env} (hw : s.working = true) (hsrc : d.src ≠ s.self) (hdst : d.dst = 0 ∨ d.dst = s.self)
    (h : Heard) (m : Option Msg) :
    WritesPeer s (s.receive h d m).1 d.src ((s.line.peer d.src).heard s.peerTimeout h) := by
  have hdst' : ¬ (d.dst ≠ 0 ∧ d.dst ≠ s.self) := fun ⟨a, b⟩ => hdst.elim a b
  have hentry : WritesPeer s (({ s with line := s.line.frameEnd } : State).entryBecomes d.src
      ((s.line.frameEnd.peer d.src).heard s.peerTimeout h) (viaOf h)).1 d.src
      ((s.line.peer d.src).heard s.peerTimeout h) := by
    rw [frameEnd_peer]
    obtain ⟨ht, hc, hm, hs, hp⟩ := entryBecomes_writes { s with line := s.line.frameEnd } d.src
      ((s.line.peer d.src).heard s.peerTimeout h) (viaOf h)
    exact ⟨ht.trans (setPeer_table_congr (frameEnd_table _) _ _), hc, hm, hs, hp⟩
  unfold State.receive
  simp only [hw, Bool.not_true, Bool.false_eq_true, if_false, hsrc, hdst']
  split
  · exact hentry
  · cases m with
    | none => exact hentry
    | some m =>
      cases h with
      | join b => exact (hentry.answerJoin).hand _ _ _ _
      | presence b => exact hentry.hand _ _ _ _
      | other => exact hentry.hand _ _ _ _

/-- The entry of the station heard, at the end of the command. -/
theorem hear_entries {d : Env} (hc : s.canSend = true) (hsrc : d.src ≠ s.self) (h1 : 1 ≤ d.src) (h2 : d.src ≤ 24)
    (hdst : d.dst = 0 ∨ d.dst = s.self) (h : Heard) (m : Option Msg) {p : Peer}
    (hp : (s.line.peer d.src).heard s.peerTimeout h = p) :
    ∃ t : State, (Host.Outcome.next (s.hear h d m) : Res) = .next t ∧ t.line.peer d.src = p ∧
      (∀ k, k ≠ d.src → t.line.peer k = s.line.peer k) ∧ t.cfg = s.cfg ∧ t.cfgMem = s.cfgMem ∧
      t.start.state = s.start.state ∧ t.presence = s.presence := by
  refine ⟨_, rfl, ?_⟩
  subst hp
  have hw := canSend_working hc
  have hact : s.hear h d m = State.settle (s.receive h d m) := act_working s _ hw
  rw [hact]
  exact (receive_writes hw hsrc hdst h m).settle.entries h1 h2

end

/-! ### Events of the station table at the blocks -/

section
variable {s t : State} {b : Block} {e : Ev} {q : Jobs}

/-- An event of every block that moves none of them. -/
theorem settle_tellAll_idle (s : State) {r : Jobs} (h : ∀ b, b ≠ .start → s.usedChoice.takeJob b e = (s.usedChoice, []))
    (hr : r = s.blockOrder.map (fun b => (b, e))) (ho : s.head.owedDone = []) :
    State.settle (s.usedChoice, r) = s.usedChoice.tryTransmit := by
  subst hr
  refine settle_drain (drain_idle _ _ (fun j hj => ?_) _) ho
  obtain ⟨b, hb, rfl⟩ := List.mem_map.1 hj
  exact h b ((mem_blockOrder s b).1 hb)

/-- An event of every block, of which one acts. -/
theorem settle_tellAll_only (hb : b ≠ .start) (hjob : s.usedChoice.takeJob b e = (t, q))
    (idle : ∀ c, c ≠ .start → c ≠ b → ∀ v : State, v = s.usedChoice ∨ v = t → v.takeJob c e = (v, []))
    (hq : ∀ j ∈ q, t.takeJob j.1 j.2 = (t, [])) (ho : t.head.owedDone = []) :
    State.settle (s.usedChoice, s.blockOrder.map (fun b => (b, e))) = t.tryTransmit := by
  obtain ⟨l, p, hl, hlen, hm⟩ := blockOrder_split s hb
  have rest (r : List Block) (hr : ∀ c ∈ r, c ≠ .start ∧ c ≠ b) (v : State) (hv : v = s.usedChoice ∨ v = t) :
      ∀ j ∈ r.map (fun c => (c, e)), v.takeJob j.1 j.2 = (v, []) := by
    intro j hj
    obtain ⟨c, hc, rfl⟩ := List.mem_map.1 hj
    exact idle c (hr c hc).1 (hr c hc).2 v hv
  rw [hl, List.map_append, List.map_cons]
  refine settle_only _ t _ _ q b e ?_ (rest l (fun c hc => hm c (.inl hc)) _ (.inl rfl)) hjob ?_ ho
  · rw [List.length_map]
    exact lt_of_le_of_lt (by omega : l.length ≤ 5) (by decide)
  · exact List.forall_mem_append.2 ⟨rest p (fun c hc => hm c (.inr hc)) _ (.inr rfl), hq⟩

theorem idle_arb (h : takeArb s e = Eff.pure s.arb) : s.takeJob .arb e = (s, []) := by
  unfold State.takeJob
  split
  · simp only [State.runArb, h]; rfl
  · rfl

theorem takeInv_peer {n : Nat} {old new : PeerState} {via : Via} {r : Eff Inv} (hb : s.inv.takePeer s n old new via = r)
    (hph : r.st.phase ≠ .waitFree) : takeInv s (.peer n old new via) = r := by
  subst hb
  exact andThen_claimIfFree hph s

/-- A station with the BLEND role alone that holds no invoice and does not serve station `n`. -/
structure Unconcerned (s : State) (n : Nat) : Prop where
  roles : s.cfg.roles = { blend := true, head := false, mark := false, paper := false }
  chute : s.cfg.inChute n = false
  table : s.inv.table = []
  phase : s.inv.phase = .idle

theorem takePeer_empty {i : Inv} (ht : i.table = []) (hp : i.phase = .idle) (s : State) (n : Nat) (old new : PeerState)
    (via : Via) : i.takePeer s n old new via = Eff.pure i := by
  have hsame : ({ i with table := [] } : Inv) = i := by rw [← ht]
  have hrestart : i.peerRestart n via = Eff.pure i := by
    simp [Inv.peerRestart, ht, hsame, Inv.headGone, Inv.ownedNums, Eff.each, Eff.andThen, Eff.pure]
  cases new with
  | absent =>
    simp [Inv.takePeer, Inv.peerAbsent, Inv.heldFor, ht, Inv.leaveSet, hp, Inv.headGone, Inv.ownedNums, Eff.each,
      Eff.andThen, Eff.pure]
  | present => simp [Inv.takePeer, Inv.peerPresent, Inv.heldFor, ht, hsame, Eff.each, Eff.pure]
  | joining =>
    cases via with
    | joinFrame k w => exact hrestart
    | presenceFrame => simp [Inv.takePeer, hrestart]
    | other => rfl
  | unknown => rfl

/-- Nothing of the station table's entry of `n` concerns any block of it. -/
theorem Unconcerned.idle {n : Nat} (h : Unconcerned s n) (old new : PeerState) (via : Via) :
    ∀ b, b ≠ .start → s.takeJob b (.peer n old new via) = (s, []) := by
  intro b hb
  have hr := h.roles
  cases b with
  | start => exact absurd rfl hb
  | inv =>
    refine idle_inv (takeInv_peer (takePeer_empty h.table h.phase s n old new via) ?_)
    show s.inv.phase ≠ .waitFree
    rw [h.phase]
    exact ClaimPhase.noConfusion
  | blend => exact idle_blend rfl
  | arb =>
    have harb : takeArb s (.peer n old new via) = Eff.pure s.arb := by
      show s.arb.takePeer s n old new via = _
      simp [Arb.takePeer, h.chute]
    exact idle_arb harb
  | head => exact takeJob_no_head _ _ (by rw [hr])
  | mark => exact takeJob_no_mark _ _ (by rw [hr])
  | paper => exact takeJob_no_paper _ _ (by rw [hr])

end

/-! ### JOIN (O22, R18, R20) -/

section
variable {s : State} {n : Nat} {p : Peer} {d : Env}

theorem entryBecomes_join (hp : p.state = .joining) (k : Option JoinKind) (w : Bool) :
    s.entryBecomes n p (.joinFrame k w) =
      ({ s with line := s.line.setPeer n p } : State).tellAll
        (.peer n (s.line.peer n).state .joining (.joinFrame k w)) := by
  unfold State.entryBecomes State.entryMoved
  simp [hp]

theorem setPeer_still (l : Line) (n : Nat) (p : Peer) (s : State) :
    ({ s with line := l.frameEnd.setPeer n p } : State).still := by
  simp only [State.still, setPeer_gap, setPeer_sending]
  exact frameEnd_quiet l

/-- A JOIN heard with its state after the entry was written. -/
theorem receive_join (hc : s.canSend = true) (hsrc : d.src ≠ s.self) (hdst : d.dst = 0 ∨ d.dst = s.self) (b : JoinRead)
    {p : Peer} (hp : (s.line.peer d.src).heard s.peerTimeout (.join b) = p) :
    s.receive (.join b) d none =
      ({ s with line := s.line.frameEnd.setPeer d.src p } : State).tellAll
        (.peer d.src (s.line.peer d.src).state .joining (.joinFrame b.start b.body.isSome)) := by
  have hdst' : ¬ (d.dst ≠ 0 ∧ d.dst ≠ s.self) := fun ⟨a, b⟩ => hdst.elim a b
  have hst : p.state = .joining := by rw [← hp]; rfl
  have hent := entryBecomes_join (s := { s with line := s.line.frameEnd }) (n := d.src) hst b.start b.body.isSome
  rw [frameEnd_peer] at hent
  unfold State.receive
  simp only [canSend_working hc, canSend_online hc, Bool.not_true, Bool.false_eq_true, if_false, hsrc, hdst', frameEnd_peer]
  simp only [viaOf, hp]
  rw [hent]

/-- One with every field valid is answered by PRESENCE, and no exchange is confirmed by it. -/
theorem receive_join_answered (hc : s.canSend = true) (hsrc : d.src ≠ s.self) (hdst : d.dst = 0 ∨ d.dst = s.self)
    (b : JoinBody) {p : Peer} (hp : (s.line.peer d.src).heard s.peerTimeout (.join b.read) = p)
    (hq : s.line.presenceQueued = false) (hroom : ReplyRoom s) (hx : s.line.exchanges = []) :
    s.receive (.join b.read) d (some (.join b)) =
      (({ s with line := s.line.frameEnd.setPeer d.src p } : State).queues
        (replyFrame 0 s.presenceMsg .presence) |>.usedChoice,
       s.blockOrder.map (fun c => (c, .peer d.src (s.line.peer d.src).state .joining (.joinFrame (some b.start) true)))) := by
  have hdst' : ¬ (d.dst ≠ 0 ∧ d.dst ≠ s.self) := fun ⟨a, b⟩ => hdst.elim a b
  have hst : p.state = .joining := by rw [← hp]; rfl
  have hent := entryBecomes_join (s := { s with line := s.line.frameEnd }) (n := d.src) hst (some b.start) true
  rw [frameEnd_peer] at hent
  let t : State := ({ s with line := s.line.frameEnd.setPeer d.src p } : State).usedChoice
  have htxq : t.line.txq = s.line.txq := by simp [t, State.usedChoice, setPeer_txq]
  have hquiet : t.line.presenceQueued = false := by
    unfold Line.presenceQueued at hq ⊢
    rw [htxq]
    exact hq
  have hanswer : t.answerJoin = (t.queues (replyFrame 0 s.presenceMsg .presence), []) := by
    unfold State.answerJoin
    rw [hquiet]
    exact sendFrame_room t _ hc (by rw [htxq]; exact hroom)
  have hnone : (t.queues (replyFrame 0 s.presenceMsg .presence)).line.exchanges = [] := by
    simp [t, State.queues, State.usedChoice, setPeer_exchanges, hx]
  have hhand : (t.queues (replyFrame 0 s.presenceMsg .presence)).hand d.src d.dst (.join b) false =
      (t.queues (replyFrame 0 s.presenceMsg .presence), []) := by
    simp [State.hand, hnone, takers, Line.endAll]
  unfold State.receive
  simp only [canSend_working hc, canSend_online hc, Bool.not_true, Bool.false_eq_true, if_false, hsrc, hdst', frameEnd_peer]
  simp only [viaOf, hp]
  rw [show (b.read.start) = some b.start from rfl, show b.read.body.isSome = true from rfl, hent]
  show (((t.answerJoin.1).hand d.src d.dst (.join b) false).1, _ ++ t.answerJoin.2 ++
    ((t.answerJoin.1).hand d.src d.dst (.join b) false).2) = _
  rw [hanswer, hhand, List.append_nil, List.append_nil]
  rfl

end

/-- Settles O22. -/
theorem joinHeard : Obligations.JoinHeard := by
  refine ⟨fun s d b hc hsrc h1 h2 hdst => ⟨hear_entries hc hsrc h1 h2 hdst _ _ rfl, fun hb ho hr hch ht hp => ?_⟩,
    fun s d b hc hsrc h1 h2 hdst => ⟨hear_entries hc hsrc h1 h2 hdst _ _ rfl, fun ho hr hch ht hp hq hroom hx => ?_⟩⟩
  · have hrec := receive_join hc hsrc hdst b rfl
    have hun (l : Line) : Unconcerned ({ s with line := l } : State).usedChoice d.src := ⟨hr, hch, ht, hp⟩
    refine next_eq ((act_working s _ (canSend_working hc)).trans ?_)
    rw [hb]
    refine (congrArg State.settle hrec).trans ?_
    exact (settle_tellAll_idle _ ((hun _).idle _ _ _) rfl (by exact ho)).trans
      (tryTransmit_quiet _ (setPeer_still s.line _ _ s))
  · have hrec := receive_join_answered hc hsrc hdst b rfl hq hroom hx
    have hun (l : Line) : Unconcerned ({ s with line := l } : State).usedChoice d.src := ⟨hr, hch, ht, hp⟩
    refine next_eq ((act_working s _ (canSend_working hc)).trans ?_)
    refine (congrArg State.settle hrec).trans ?_
    refine (settle_tellAll_idle _ ((hun _).idle _ _ _) rfl (by exact ho)).trans
      ((tryTransmit_quiet _ (by exact setPeer_still s.line _ _ s)).trans ?_)
    simp only [State.usedChoice, setPeer_txq, frameEnd_txq]
    rfl

end Sys2Proof.Machine

/-! ## PRESENCE and the own number heard (O23, R6, R18, R20, R28) -/

namespace Sys2Proof.Machine

/-! ### A station OFFLINE for a duplicate number sends nothing (R6) -/

/-- The line and the start unit of a station OFFLINE for a duplicate number, with nothing queued and no exchange. -/
structure Offline (l : Line) (x : Start) (t : State) : Prop where
  line : t.line = l
  start : t.start = x
  queue : l.txq = []
  exchanges : l.exchanges = []
  dup : t.dupOffline = true

section
variable {l : Line} {x : Start} {t : State}

theorem Offline.of_eq {u : State} (h : Offline l x t) (hl : u.line = t.line) (hs : u.start = t.start) : Offline l x u :=
  ⟨hl.trans h.line, hs.trans h.start, h.queue, h.exchanges, by
    have := h.dup
    rwa [State.dupOffline, ← hs] at this⟩

theorem Offline.tellFailed (h : Offline l x t) (f : TxFrame) (b : Bool) : Offline l x (t.tellFailed f b).1 := by
  unfold State.tellFailed
  split
  · have hnone : t.line.exchanges = [] := by rw [h.line, h.exchanges]
    rw [hnone]
    exact h
  · split <;> exact h

theorem Offline.perform1 (h : Offline l x t) (a : Act) : Offline l x (t.perform1 a).1 := by
  cases a with
  | send f =>
    have hfail : t.sendFrame f = t.tellFailed f true := if_pos h.dup
    rw [State.perform1, hfail]
    exact h.tellFailed f true
  | unsend u =>
    have hsame : t.line.removeWhere u.hits = t.line := by simp [Line.removeWhere, h.line, h.queue]
    exact h.of_eq hsame rfl
  | openEx k m d p b =>
    have hnone : (t.openExchange k m d p b).1 = t := by simp [State.openExchange, h.dup]
    rw [State.perform1, hnone]
    exact h
  | report r => exact h.of_eq rfl rfl
  | post b e => exact h
  | tell e => exact h.of_eq rfl rfl
  | track on => exact h.of_eq rfl rfl

theorem Offline.perform (h : Offline l x t) (acts : List Act) : Offline l x (t.perform acts).1 := by
  induction acts generalizing t with
  | nil => exact h
  | cons a acts ih => exact ih (h.perform1 a)

theorem Offline.not_joining (h : Offline l x t) : t.isJoining = false := by
  have := h.dup
  unfold State.dupOffline at this
  unfold State.isJoining
  cases hs : t.start.state <;> simp_all

theorem Offline.takeJob (h : Offline l x t) (b : Block) (e : Ev) : Offline l x (t.takeJob b e).1 := by
  unfold State.takeJob
  split
  · cases b with
    | start =>
      have hj := h.not_joining
      cases e <;> simp only [State.takeStart, hj] <;> exact h
    | inv => exact (h.of_eq (u := { t with inv := (takeInv t e).st }) rfl rfl).perform (takeInv t e).acts
    | blend => exact (h.of_eq (u := { t with blend := (takeBlend t e).st }) rfl rfl).perform (takeBlend t e).acts
    | arb => exact (h.of_eq (u := { t with arb := (takeArb t e).st }) rfl rfl).perform (takeArb t e).acts
    | head => exact (h.of_eq (u := { t with head := (takeHead t e).st }) rfl rfl).perform (takeHead t e).acts
    | mark => exact (h.of_eq (u := { t with mark := (takeMark t e).st }) rfl rfl).perform (takeMark t e).acts
    | paper => exact (h.of_eq (u := { t with paper := (takePaper t e).st }) rfl rfl).perform (takePaper t e).acts
  · exact h

theorem Offline.mute (h : Offline l x t) : t.canSend = false := by simp [State.canSend, h.dup]

theorem Offline.tryTransmit (h : Offline l x t) : t.tryTransmit = t := by simp [State.tryTransmit, h.mute]

/-- The jobs of a command leave it so. -/
theorem Offline.settle {r : State × Jobs} (h : Offline l x r.1) : Offline l x (State.settle r) := by
  refine settle_keeps (Offline l x) (fun t b e h => h.takeJob b e) (fun t h => ?_) (fun t h => ?_) r h
  · unfold State.payDone
    split
    · exact h
    · simp only [h.mute, Bool.false_and, Bool.false_eq_true, if_false]
      exact h
  · rw [h.tryTransmit]
    exact h

end

/-! ### The frame with the own number -/

section
variable {s : State} {d : Env}

/-- The station that has heard its own number (R6). -/
def State.toOffline (s : State) : State :=
  { s with
    line := { s.line.frameEnd with txq := [], sending := false, attempts := 0, backoff := none, exchanges := [] },
    start := { s.start with state := .offlineDup s.isActive, joinT := .stopped, retryT := .stopped } }

theorem toOffline_offline (s : State) : Offline s.toOffline.line s.toOffline.start s.toOffline :=
  ⟨rfl, rfl, rfl, rfl, rfl⟩

theorem toOffline_working (hc : s.canSend = true) : s.toOffline.working = true := by
  have hw := canSend_working hc
  simp only [State.working, Bool.and_eq_true] at hw
  simp [State.working, State.toOffline, hw.1]

theorem receive_own_goes (hc : s.canSend = true) (hsrc : d.src = s.self) (h : Heard) (m : Option Msg) :
    s.receive h d m = ({ s with line := s.line.frameEnd } : State).goOffline := by
  simp [State.receive, canSend_working hc, canSend_online hc, hsrc]

theorem hear_own (hc : s.canSend = true) (hsrc : d.src = s.self) (h : Heard) (m : Option Msg) :
    (s.hear h d m).line = s.toOffline.line ∧ (s.hear h d m).start = s.toOffline.start ∧ (s.hear h d m).cfg = s.cfg ∧
      (s.hear h d m).cfgMem = s.cfgMem ∧ (s.hear h d m).presence = s.presence := by
  have hact : s.hear h d m = State.settle (({ s with line := s.line.frameEnd } : State).goOffline) :=
    (act_working s _ (canSend_working hc)).trans (congrArg State.settle (receive_own_goes hc hsrc h m))
  have hoff : Offline s.toOffline.line s.toOffline.start (({ s with line := s.line.frameEnd } : State).goOffline).1 :=
    ⟨rfl, rfl, rfl, rfl, rfl⟩
  rw [hact]
  refine ⟨hoff.settle.line, hoff.settle.start, ?_, ?_, ?_⟩
  · rw [settle_cfg]; rfl
  · rw [settle_cfgMem]; rfl
  · rw [settle_presence]; rfl

/-- A blender with nothing queued clears the chute, and nothing else moves (R99). -/
theorem hear_own_blender (hc : s.canSend = true) (hsrc : d.src = s.self) (ho : s.head.owedDone = [])
    (hr : s.cfg.roles = { blend := true, head := false, mark := false, paper := false }) (hq : s.line.txq = [])
    (hx : s.line.exchanges = []) (hph : s.inv.phase ≠ .waitFree) (h : Heard) (m : Option Msg) :
    s.hear h d m = { s.toOffline.report (Report.of .duplicateNumber none none (some s.self) .absent) with
      blockChoice := s.blockChoice / 720, arb := s.arb.cleared } := by
  let v : State := s.toOffline.report (Report.of .duplicateNumber none none (some s.self) .absent)
  have hgo : ({ s with line := s.line.frameEnd } : State).goOffline =
      (v.usedChoice, v.blockOrder.map (fun b => (b, Ev.wentOffline))) := by
    simp only [State.goOffline, frameEnd_txq, hq, frameEnd_exchanges, hx]
    rfl
  have hact : s.hear h d m = State.settle (v.usedChoice, v.blockOrder.map (fun b => (b, Ev.wentOffline))) :=
    (act_working s _ (canSend_working hc)).trans (congrArg State.settle ((receive_own_goes hc hsrc h m).trans hgo))
  have hjob : v.usedChoice.takeJob .arb .wentOffline = ({ v.usedChoice with arb := s.arb.cleared }, []) :=
    job_arb (r := Eff.pure s.arb.cleared) (toOffline_working hc) (by exact congrArg Roles.blend hr) rfl rfl
  have idle (c : Block) (hs : c ≠ .start) (ha : c ≠ .arb) (w : State)
      (hw : w = v.usedChoice ∨ w = { v.usedChoice with arb := s.arb.cleared }) :
      w.takeJob c .wentOffline = (w, []) := by
    have hroles : w.cfg.roles = s.cfg.roles := by rcases hw with rfl | rfl <;> rfl
    have hinv : w.inv = s.inv := by rcases hw with rfl | rfl <;> rfl
    rw [hr] at hroles
    cases c with
    | start => exact absurd rfl hs
    | arb => exact absurd rfl ha
    | inv => exact idle_inv (andThen_claimIfFree (r := Eff.pure w.inv) (by rw [show (Eff.pure w.inv).st = s.inv from hinv]; exact hph) w)
    | blend => exact idle_blend rfl
    | head => exact takeJob_no_head _ _ (by rw [hroles])
    | mark => exact takeJob_no_mark _ _ (by rw [hroles])
    | paper => exact takeJob_no_paper _ _ (by rw [hroles])
  have hoff : Offline s.toOffline.line s.toOffline.start { v.usedChoice with arb := s.arb.cleared } :=
    ⟨rfl, rfl, rfl, rfl, rfl⟩
  rw [hact, settle_tellAll_only (by decide) hjob idle (by simp) (by exact ho), hoff.tryTransmit]
  rfl

/-- Once OFFLINE for a duplicate number, the own number in a frame changes nothing more. -/
theorem hear_own_again (hw : s.working = true) (hdup : s.dupOffline = true) (hsrc : d.src = s.self)
    (ho : s.head.owedDone = []) (h : Heard) (m : Option Msg) : s.hear h d m = { s with line := s.line.frameEnd } := by
  have hrec : s.receive h d m = ({ s with line := s.line.frameEnd }, []) := by
    unfold State.receive
    simp only [hw, Bool.not_true, Bool.false_eq_true, if_false, hsrc, if_true, hdup]
  have hact : s.hear h d m = State.settle ({ s with line := s.line.frameEnd }, []) :=
    (act_working s _ hw).trans (congrArg State.settle hrec)
  have hmute : ({ s with line := s.line.frameEnd } : State).canSend = false := by
    show (s.working && !s.dupOffline) = false
    rw [hdup]
    exact Bool.and_false _
  rw [hact, settle_nil _ (by exact ho)]
  simp [State.tryTransmit, hmute]

end

/-! ### PRESENCE (R18, R20) -/

section
variable {s : State} {d : Env}

theorem heard_stateless (p : Peer) (k : Nat) (r : Roles) (m : Nat) :
    p.heard k (.presence { roles := r, state := none, mark := m }) =
      { p with
        state := if p.state = .joining then .joining else .present,
        roles := some r, mark := some m, silence := .running k } := by
  cases hs : p.state <;> simp [Peer.heard, Peer.appeared, hs]

theorem heard_active (p : Peer) (k : Nat) {b : PresenceBody} (hb : b.state = .active) :
    p.heard k (.presence b.read) =
      { p with
        state := .present, roles := some b.roles, mark := some b.mark, silence := .running k, watch := .stopped } := by
  simp [Peer.heard, PresenceBody.read, hb]

theorem heard_joining (p : Peer) (k : Nat) {b : PresenceBody} (hb : b.state = .joining) (hp : p.state ≠ .joining) :
    p.heard k (.presence b.read) =
      { p with
        state := .joining, roles := some b.roles, mark := some b.mark, silence := .running k, watch := .running k } := by
  simp [Peer.heard, PresenceBody.read, hb, hp]

/-- PRESENCE of a PRESENT station goes to the invoice unit alone. -/
theorem receive_presence {b : PresenceBody} (h : Hears s d (.presence b)) {p : Peer}
    (hp : (s.line.peer d.src).heard s.peerTimeout (.presence b.read) = p) (hst : p.state = .present) :
    s.receive (.presence b.read) d (some (.presence b)) =
      ({ s with line := s.line.frameEnd.setPeer d.src p }, frameJobs [.inv] d (.presence b)) := by
  obtain ⟨⟨hc, _⟩, hsrc, hdst, hpres, hx⟩ := h
  have hdst' : ¬ (d.dst ≠ 0 ∧ d.dst ≠ s.self) := fun ⟨a, b⟩ => hdst.elim a b
  have hvia : viaOf (.presence b.read) = .presenceFrame := by simp [viaOf, PresenceBody.read]
  have hpeer := frameEnd_peer s.line d.src
  have hent := entryBecomes_same { s with line := s.line.frameEnd } d.src p (viaOf (.presence b.read))
    (by rw [hst, hpeer, hpres]) (by rw [hpeer, hpres]) (.inl hvia)
  have hhand := hand_plain ({ s with line := s.line.frameEnd.setPeer d.src p } : State) d (.presence b)
    (by rw [setPeer_exchanges, frameEnd_exchanges]; exact hx)
  unfold State.receive
  simp only [canSend_working hc, canSend_online hc, Bool.not_true, Bool.false_eq_true, if_false, hsrc, hdst', hpeer]
  rw [hp]
  simp only [hent, List.nil_append]
  rw [hhand]
  rfl

theorem takeFrame_presence (i : Inv) (s : State) (n : Nat) (b : PresenceBody) :
    i.takeFrame s n (.presence b) false =
      Eff.pure { i with mark := if b.mark ≤ s.cfg.last then max i.mark b.mark else i.mark } := by
  show Eff.pure (if b.mark ≤ s.cfg.last then i.raise b.mark else i) = _
  split <;> rfl

/-- The whole effect of an ACTIVE station's PRESENCE. -/
theorem hear_presence {b : PresenceBody} (h : Hears s d (.presence b))
    (hph : s.inv.phase ≠ .waitFree) {p : Peer}
    (hp : (s.line.peer d.src).heard s.peerTimeout (.presence b.read) = p) (hst : p.state = .present) :
    s.hear (.presence b.read) d (some (.presence b)) =
      { s with
        line := s.line.frameEnd.setPeer d.src p,
        inv := { s.inv with mark := if b.mark ≤ s.cfg.last then max s.inv.mark b.mark else s.inv.mark } } := by
  have hw := canSend_working h.1.1
  have hjob : ({ s with line := s.line.frameEnd.setPeer d.src p } : State).takeJob .inv
      (.frame d.src d.dst (.presence b) false) =
      ({ s with
        line := s.line.frameEnd.setPeer d.src p,
        inv := { s.inv with mark := if b.mark ≤ s.cfg.last then max s.inv.mark b.mark else s.inv.mark } }, []) :=
    job_inv hw (takeInv_frame (takeFrame_presence s.inv _ d.src b) hph) rfl
  have hact := (act_working s (fun s => s.receive (.presence b.read) d (some (.presence b))) hw).trans
    (congrArg State.settle (receive_presence h hp hst))
  refine hact.trans ?_
  exact (settle_one _ _ _ _ hjob (by exact h.1.2)).trans (tryTransmit_quiet _ (setPeer_still s.line _ _ s))

end

/-- Settles O23. -/
theorem presenceHeard : Obligations.PresenceHeard := by
  refine ⟨fun s d r m hc hsrc h1 h2 hdst => hear_entries hc hsrc h1 h2 hdst _ _ (heard_stateless _ _ r m),
    fun s d b hsrc => ⟨fun hc => ⟨_, rfl, hear_own hc hsrc _ _⟩, fun hc ho hr hq hx hph => ?_, fun hw hdup ho => ?_⟩,
    fun s d b hc hsrc h1 h2 hdst => ⟨fun hb => ?_, fun hb hp => ?_, fun hb h hph => ?_⟩⟩
  · exact next_eq (hear_own_blender hc hsrc ho hr hq hx hph _ _)
  · exact next_eq (hear_own_again hw hdup hsrc ho _ _)
  · exact hear_entries hc hsrc h1 h2 hdst _ _ (heard_active _ _ hb)
  · exact hear_entries hc hsrc h1 h2 hdst _ _ (heard_joining _ _ hb hp)
  · exact next_eq (hear_presence h hph (heard_active _ _ hb) rfl)

end Sys2Proof.Machine

/-! ## The timers of the station table (O24, R20 to R22) -/

namespace Sys2Proof.Machine

/-! ### The acting paper station and the queue built anew (R160 to R162) -/

theorem actingStation_iff (s : State) (n : Nat) :
    s.actingStation = some n ↔
      1 ≤ n ∧ n ≤ 24 ∧ s.paperCounts n = true ∧ ∀ m, 1 ≤ m → m < n → s.paperCounts m = false := by
  unfold State.actingStation stations
  rw [List.find?_map, Option.map_eq_some_iff]
  constructor
  · rintro ⟨k, hk, rfl⟩
    obtain ⟨hp, hmem, hbelow⟩ := List.find?_range_eq_some.1 hk
    have hlt := List.mem_range.1 hmem
    refine ⟨by omega, by omega, hp, fun m h1 h2 => ?_⟩
    obtain ⟨j, rfl⟩ : ∃ j, m = j + 1 := ⟨m - 1, by omega⟩
    simpa using hbelow j (by omega)
  · rintro ⟨h1, h2, hp, hbelow⟩
    obtain ⟨k, rfl⟩ : ∃ k, n = k + 1 := ⟨n - 1, by omega⟩
    refine ⟨k, List.find?_range_eq_some.2 ⟨hp, List.mem_range.2 (by omega), fun j hj => ?_⟩, rfl⟩
    simpa using hbelow (j + 1) (by omega) (by omega)

theorem paperCounts_iff (s : State) (n : Nat) :
    s.paperCounts n = true ↔
      (n = s.self ∧ s.start.state = .active ∧ s.cfg.roles.paper = true) ∨
        (n ≠ s.self ∧ (s.line.peer n).state = .present ∧ ∃ r, (s.line.peer n).roles = some r ∧ r.paper = true) := by
  unfold State.paperCounts
  by_cases hn : n = s.self
  · simp [hn, State.isActive]
  · have hpeer : s.peer n = s.line.peer n := if_neg hn
    rw [if_neg hn, State.present, hpeer]
    cases hr : (s.line.peer n).roles <;> simp [hn]

theorem insertEntry_perm (e : Entry) (l : List Entry) : (insertEntry e l).Perm (e :: l) := by
  induction l with
  | nil => exact .refl _
  | cons x l ih =>
    unfold insertEntry
    split
    · exact .refl _
    · exact (ih.cons x).trans (.swap _ _ _)

theorem insertEntry_sorted (e : Entry) {l : List Entry} (h : l.Pairwise (fun x y => x.num ≤ y.num)) :
    (insertEntry e l).Pairwise (fun x y => x.num ≤ y.num) := by
  induction l with
  | nil => exact List.pairwise_singleton _ _
  | cons x l ih =>
    obtain ⟨hx, hl⟩ := List.pairwise_cons.1 h
    unfold insertEntry
    split
    · rename_i hlt
      refine List.pairwise_cons.2 ⟨fun y hy => ?_, h⟩
      rcases List.mem_cons.1 hy with rfl | hy
      · exact Nat.le_of_lt hlt
      · exact (Nat.le_of_lt hlt).trans (hx y hy)
    · rename_i hge
      refine List.pairwise_cons.2 ⟨fun y hy => ?_, ih hl⟩
      rcases List.mem_cons.1 ((insertEntry_perm e l).mem_iff.1 hy) with rfl | hy
      · exact Nat.not_lt.1 hge
      · exact hx y hy

theorem foldl_insertEntry (l acc : List Entry) (h : acc.Pairwise (fun x y => x.num ≤ y.num)) :
    (l.foldl (fun m e => insertEntry e m) acc).Pairwise (fun x y => x.num ≤ y.num) ∧
      (l.foldl (fun m e => insertEntry e m) acc).Perm (l ++ acc) := by
  induction l generalizing acc with
  | nil => exact ⟨h, .refl _⟩
  | cons e l ih =>
    obtain ⟨hs, hp⟩ := ih (insertEntry e acc) (insertEntry_sorted e h)
    exact ⟨hs, hp.trans (((insertEntry_perm e acc).append_left l).trans List.perm_middle)⟩

theorem closedEntries_ascending (i : Inv) :
    i.closedEntries.Pairwise (fun x y => x.num ≤ y.num) ∧
      i.closedEntries.Perm (i.table.filter (fun x => x.data.hdr.state == .closed)) := by
  have h := foldl_insertEntry (i.table.filter (fun x => x.data.hdr.state == .closed)) [] List.Pairwise.nil
  rw [List.append_nil] at h
  exact h

section
variable {s : State} {p : Paper} {x y : Entry}

/-- The decision stands. -/
theorem elect_stands (h : s.actingStation = some s.self ↔ p.acting = true) :
    p.elect s = Eff.pure { p with found := s.actingStation } := by
  have hnow : (s.actingStation == some s.self) = p.acting := Bool.eq_iff_iff.2 (beq_iff_eq.trans h)
  simp [Paper.elect, hnow]

/-- The station stops acting: its queue is emptied. -/
theorem elect_stops (h : s.actingStation ≠ some s.self) (ha : p.acting = true) :
    p.elect s = Eff.pure { p with found := s.actingStation, acting := false, queue := [], waiting := [] } := by
  have hnow : (s.actingStation == some s.self) = false := beq_eq_false_iff_ne.2 h
  simp [Paper.elect, hnow, ha]

/-- The station becomes acting: its queue is built anew. -/
theorem elect_starts (h : s.actingStation = some s.self) (ha : p.acting = false) :
    p.elect s = Paper.build { p with found := some s.self, acting := true } s.inv := by
  simp [Paper.elect, h, ha]

theorem build_two {i : Inv} (hl : i.closedEntries = [x, y]) (hx : x.copy = .complete) (hy : y.copy = .complete) :
    p.build i = Eff.mk' { p with
        waiting := [], nextSeq := p.nextSeq + 2,
        queue := [{ inv := x.num, seq := p.nextSeq }, { inv := y.num, seq := p.nextSeq + 1 }] }
      [sheetReady x.num, sheetReady y.num] := by
  simp [Paper.build, hl, Eff.each, Paper.takeClosure, Config.tableEntries, hx, hy, placeSheet, Eff.andThen, Eff.mk',
    Eff.pure]

theorem build_waiting {i : Inv} (hl : i.closedEntries = [x]) (hx : x.copy ≠ .complete) :
    p.build i = Eff.mk' { p with
        queue := [], nextSeq := p.nextSeq + 1, waiting := [{ inv := x.num, seq := p.nextSeq }] }
      [.post .inv (.askFor x.num)] := by
  simp [Paper.build, hl, Eff.each, Paper.takeClosure, Config.tableEntries, hx, Eff.andThen, Eff.mk', Eff.pure]

/-- The paper unit takes an absence as an occasion to decide anew (R160). -/
theorem takePaper_absent {n : Nat} {old : PeerState} {via : Via} (hj : s.isJoining = false) :
    takePaper s (.peer n old .absent via) = s.paper.elect s := by
  have hk : s.keepsDecision = false := by simp [State.keepsDecision, hj]
  show s.paper.takePeer s n .absent = _
  simp [Paper.takePeer, hk, Eff.andThen, Eff.pure]

/-- An ask of an entry whose ask timer runs. -/
theorem job_askFor_spaced (hx : s.inv.find x.num = some x) (ha : x.askT.on = true) (hph : s.inv.phase = .idle) :
    s.takeJob .inv (.askFor x.num) = (s, []) := by
  have hask : s.inv.askOwner s x.num = Eff.pure s.inv := by simp [Inv.askOwner, hx, Inv.ask, ha]
  refine idle_inv ?_
  show (s.inv.askOwner s x.num).andThen (fun i => i.claimIfFree s) = _
  rw [hask]
  refine andThen_claimIfFree (r := Eff.pure s.inv) ?_ s
  show s.inv.phase ≠ .waitFree
  rw [hph]
  exact ClaimPhase.noConfusion

end

/-! ### The silence timer -/

/-- The entry of station `n` has become ABSENT, with its report. -/
def State.silenced (s : State) (n : Nat) : State :=
  { s.report (Report.of .peerAbsent none none (some n) .absent) with
    line := s.line.setPeer n { s.line.peer n with state := .absent, silence := .stopped, watch := .stopped } }

section
variable {s : State} {n : Nat}

theorem entryBecomes_absent {p : Peer} (hp : p.state = .absent) :
    s.entryBecomes n p .other =
      if (s.line.peer n).state = .absent then ({ s with line := s.line.setPeer n p }, [])
      else ({ s with line := s.line.setPeer n p } : State).tellAll (.peer n (s.line.peer n).state .absent .other) := by
  unfold State.entryBecomes State.entryMoved
  simp [hp]

/-- The silence timer of a station's entry, at a station without exchanges (R20, R21). -/
theorem silenceExpired_goes (hon : (s.line.peer n).silence.on = true) (hn : n ≠ s.self) (hx : s.line.exchanges = []) :
    s.silenceExpired n =
      if (s.line.peer n).state = .absent then (s.silenced n, [])
      else ((s.silenced n).usedChoice,
        (s.silenced n).blockOrder.map (fun b => (b, .peer n (s.line.peer n).state .absent .other))) := by
  have hself : (n != s.self) = true := bne_iff_ne.2 hn
  unfold State.silenceExpired
  simp only [hon, hself, Bool.and_self, if_true, hx, List.filter_nil, Line.endAll, List.map_nil, List.nil_append]
  exact entryBecomes_absent rfl

theorem act_silence (hw : s.working = true) (hon : (s.line.peer n).silence.on = true) (hn : n ≠ s.self)
    (hx : s.line.exchanges = []) (hp : (s.line.peer n).state = .present) :
    s.act (fun s => s.silenceExpired n) =
      State.settle ((s.silenced n).usedChoice,
        (s.silenced n).blockOrder.map (fun b => (b, .peer n .present .absent .other))) := by
  have h := silenceExpired_goes hon hn hx
  rw [hp, if_neg PeerState.noConfusion] at h
  exact (act_working s _ hw).trans (congrArg State.settle h)

/-- A station of which no invoice is held and no fill is recorded is nothing to the invoice unit. -/
theorem takePeer_unheld {i : Inv} {via : Via} {old : PeerState}
    (h : i.table.all (fun x => x.own.isNone && x.data.hdr.owner != n) = true) (hp : i.phase = .idle) (s : State) :
    i.takePeer s n old .absent via = Eff.pure i := by
  have hall (x : Entry) (hx : x ∈ i.table) : x.own = none ∧ x.data.hdr.owner ≠ n := by
    simpa using List.all_eq_true.1 h x hx
  have hheld : i.heldFor n = [] := by
    rw [Inv.heldFor, List.filter_eq_nil_iff]
    intro x hx
    simp [(hall x hx).2]
  have howned : i.ownedNums = [] := by
    rw [Inv.ownedNums, List.map_eq_nil_iff, List.filter_eq_nil_iff]
    intro x hx
    simp [(hall x hx).1]
  show i.peerAbsent s n = _
  simp [Inv.peerAbsent, Inv.leaveSet, hp, hheld, Eff.each, Inv.headGone, howned, Eff.andThen, Eff.pure]

/-- At a station with the PAPER role alone, which holds nothing of the station gone, only the paper unit acts. -/
theorem paper_absence {t u : State} {q : Jobs} (h : Ready s)
    (hr : s.cfg.roles = { blend := false, head := false, mark := false, paper := true }) (hj : s.isJoining = false)
    (hn : n ≠ s.self) (hph : s.inv.phase = .idle) (hx : s.line.exchanges = [])
    (hon : (s.line.peer n).silence.on = true) (hp : (s.line.peer n).state = .present)
    (hall : s.inv.table.all (fun x => x.own.isNone && x.data.hdr.owner != n) = true)
    (ht : t = (s.silenced n).usedChoice) {p : Paper} {l : List Act} (hb : t.paper.elect t = Eff.mk' p l)
    (hperf : ({ t with paper := p } : State).perform l = (u, q)) (hu : u.cfg = s.cfg ∧ u.inv = s.inv ∧ u.head = s.head)
    (hq : ∀ j ∈ q, u.takeJob j.1 j.2 = (u, [])) :
    exec (.silenceTimerExpiry n) s = .next u.tryTransmit := by
  subst ht
  have hw := canSend_working h.1
  obtain ⟨hcfg, hinv, hhead⟩ := hu
  have hjob : (s.silenced n).usedChoice.takeJob .paper (.peer n .present .absent .other) = (u, q) :=
    job_paper hw (by exact congrArg Roles.paper hr) ((takePaper_absent (by exact hj)).trans hb) hperf
  have idle (c : Block) (hs : c ≠ .start) (hpap : c ≠ .paper) (v : State)
      (hv : v = (s.silenced n).usedChoice ∨ v = u) : v.takeJob c (.peer n .present .absent .other) = (v, []) := by
    have hroles : v.cfg.roles = s.cfg.roles := by
      rcases hv with rfl | rfl
      · rfl
      · rw [hcfg]
    have hvinv : v.inv = s.inv := by
      rcases hv with rfl | rfl
      · rfl
      · exact hinv
    rw [hr] at hroles
    cases c with
    | start => exact absurd rfl hs
    | paper => exact absurd rfl hpap
    | inv =>
      rw [← hvinv] at hall hph
      refine idle_inv (takeInv_peer (takePeer_unheld hall hph v) ?_)
      show v.inv.phase ≠ .waitFree
      rw [hph]
      exact ClaimPhase.noConfusion
    | blend => exact takeJob_no_blend _ _ (by rw [hroles])
    | arb => exact takeJob_no_arb _ _ (by rw [hroles])
    | head => exact takeJob_no_head _ _ (by rw [hroles])
    | mark => exact takeJob_no_mark _ _ (by rw [hroles])
  refine next_eq ((act_silence hw hon hn hx hp).trans ?_)
  exact settle_tellAll_only (by decide) hjob idle hq (by rw [hhead]; exact h.2)

end

end Sys2Proof.Machine

/-! ## The silence timer and the join watch at a blender (O24) -/

namespace Sys2Proof.Machine

/-! ### What an absence is to the invoice unit (R34, R42, R127) -/

section
variable {s : State} {i : Inv} {n : Nat} {x : Entry} {via : Via} {old : PeerState}

/-- The invoice of the absent owner that is CLAIMED is freed (R34). -/
theorem takePeer_frees (ht : i.table = [x]) (hph : i.phase = .idle) (ho : x.own = none) (hown : x.data.hdr.owner = n)
    (hl : x.late = false) :
    i.takePeer s n old .absent via =
      Eff.mk' { i with table := [] }
        (posts [.blend, .paper] (.entryFreed x.num) ++
          [.post .mark (.copyChanged x.num), .post .paper (.gapNumber x.num)]) := by
  show i.peerAbsent s n = _
  simp [Inv.peerAbsent, Inv.leaveSet, hph, Inv.heldFor, ht, ho, hown, hl, Eff.each, Inv.free, Inv.headGone, Inv.ownedNums,
    Eff.andThen, Eff.pure, Eff.mk']

theorem orphaned_own (s : State) (x : Entry) : (s.orphaned x).own = x.own := by
  unfold State.orphaned State.startDelay
  dsimp only
  repeat' split
  all_goals rfl

/-- One that is OPEN or later becomes an orphan (R42). -/
theorem takePeer_orphans (ht : i.table = [x]) (hph : i.phase = .idle) (ho : x.own = none) (hown : x.data.hdr.owner = n)
    (hl : x.late = true) :
    i.takePeer s n old .absent via = Eff.pure { i with table := [s.orphaned x] } := by
  have hnone : (s.orphaned x).own = none := (orphaned_own s x).trans ho
  show i.peerAbsent s n = _
  simp [Inv.peerAbsent, Inv.leaveSet, hph, Inv.heldFor, ht, ho, hown, hl, Eff.each, Inv.upd, Inv.headGone, Inv.ownedNums,
    hnone, Eff.andThen, Eff.pure]

theorem orphaned_eq (s : State) (x : Entry) :
    s.orphaned x =
      if x.adoptT.on then { x with orphan := true }
      else if s.eligible { x with orphan := true } then { x with orphan := true, adoptT := .running (100 * s.self) }
      else { x with orphan := true } := rfl

theorem owned_only {o : OwnerRec} (ht : i.table = [x]) (ho : x.own = some o) : i.owned x.num = some o := by
  simp [Inv.owned, Inv.find, ht, ho]

theorem updOwn_only {o : OwnerRec} (ht : i.table = [x]) (ho : x.own = some o) (f : OwnerRec → OwnerRec) :
    i.updOwn x.num f = { i with table := [{ x with own := some (f o) }] } := by
  simp [Inv.updOwn, Inv.upd, ht, ho]

/-- An event that raises the lost-fill count of an OPEN invoice ends with the HEADER that shows it. -/
theorem conclude_lost {o : OwnerRec} (ho : i.owned n = some o) (hd : o.resendDelay = .stopped)
    (hv : o.issued < Config.maxVersion) (hs : o.view.hdr.state = .opened) (f : Nat → Nat) :
    i.conclude n (some f) =
      Eff.mk' (i.updOwn n (fun y => { y with
          issued := o.issued + 1,
          view := { o.view with hdr := { o.view.hdr with lostFills := f o.view.hdr.lostFills, version := o.issued + 1 } } }))
        [.send (jobFrame 0
          (headerMsg { o.view.hdr with lostFills := f o.view.hdr.lostFills, version := o.issued + 1 } false none)
          (.versioned n (o.issued + 1)))] := by
  have hne : o.view.hdr.state ≠ .ending := by rw [hs]; exact InvState.noConfusion
  have hissue := issueHdr_next ho hd hv (fun h => { h with lostFills := f h.lostFills })
  have hown : (i.updOwn n (fun y => { y with
      issued := o.issued + 1,
      view := { o.view with hdr := { o.view.hdr with lostFills := f o.view.hdr.lostFills, version := o.issued + 1 } } })).owned
        n = some { o with
      issued := o.issued + 1,
      view := { o.view with hdr := { o.view.hdr with lostFills := f o.view.hdr.lostFills, version := o.issued + 1 } } } := by
    rw [owned_updOwn, ho]; rfl
  have hlost : i.lostHeader n (some f) = i.issueHdr n (fun h => { h with lostFills := f h.lostFills }) := rfl
  unfold Inv.conclude
  rw [shortTest_not_ending ho hne, pure_andThen, hlost, hissue]
  simp [Eff.andThen, Eff.mk', endTest_not_ending hown hne, Eff.pure]

/-- The fill of the absent head is LOST in an OPEN invoice of this station (R127). -/
theorem takePeer_losesFill {o : OwnerRec} {f : Fill} (ht : i.table = [x]) (hph : i.phase = .idle) (ho : x.own = some o)
    (hs : o.view.hdr.state = .opened) (hf : o.fills = [f]) (hh : f.head = n) (hl : f.lost = false) (hk : o.short = none)
    (hd : o.resendDelay = .stopped) (hv : o.issued < Config.maxVersion) {h : Header}
    (hh' : h = { o.view.hdr with lostFills := min (o.view.hdr.lostFills + 1) 255, version := o.issued + 1 }) :
    i.takePeer s n old .absent via =
      Eff.mk' { i with table := [{ x with own := some { o with
          fills := [{ f with lost := true }], issued := o.issued + 1, view := { o.view with hdr := h } } }] }
        [.send (jobFrame 0 (headerMsg h false none) (.versioned x.num (o.issued + 1)))] := by
  subst hh'
  have hslot : o.slotIs n f.token = false := by simp [OwnerRec.slotIs, hk]
  have howned := owned_only ht ho
  let o' : OwnerRec := { o with fills := [{ f with lost := true }] }
  have hgone : i.peerAbsent s n = i.loseFills x.num (fun f => f.head == n) := by
    simp [Inv.peerAbsent, Inv.leaveSet, hph, Inv.heldFor, ht, ho, Eff.each, Inv.headGone, Inv.ownedNums, howned, hf, hh, hl,
      hslot, Eff.andThen, Eff.pure]
  have hlose : i.loseFills x.num (fun f => f.head == n) =
      ({ i with table := [{ x with own := some o' }] } : Inv).conclude x.num (some (lostUp 1)) := by
    simp [Inv.loseFills, howned, hf, hh, hl, hslot, updOwn_only ht ho, o']
  show i.peerAbsent s n = _
  rw [hgone, hlose]
  have hown' : ({ i with table := [{ x with own := some o' }] } : Inv).owned x.num = some o' :=
    owned_only (x := { x with own := some o' }) rfl rfl
  rw [conclude_lost (o := o') hown' hd hv hs]
  rw [show x.num = ({ x with own := some o' } : Entry).num from rfl, updOwn_only (x := { x with own := some o' }) rfl rfl]
  rfl

end

/-! ### What an absence is to the arbiter (R98) -/

section
variable {s : State} {a : Arb} {n : Nat} {l k : Lease}

/-- A head that holds nothing of the chute is nothing to the arbiter. -/
theorem removeHead_nowhere (h : n ∉ a.heads) (s : State) (b : Bool) : a.removeHead s n b = Eff.pure a := by
  obtain ⟨hc, hn, hq⟩ := not_mem_heads h
  have hany : a.queue.any (fun k => k.head == n) = false := by simpa using hq
  simp [Arb.removeHead, slotOf_none hc hn, hany]

theorem removeHead_current (hc : a.current = some l) (hl : l.head = n) (hn : a.next = none) (hq : a.queue = []) :
    a.removeHead s n true = Eff.mk' { a with current := none, gate := false } [endAct n l.number .headAbsent] := by
  subst hl
  simp [Arb.removeHead, slotOf_of_current hc, Arb.freeSlot, Eff.andThen, Eff.mk', release_last hn hq, Eff.pure]

theorem removeHead_next (hc : a.current = some k) (hk : k.head ≠ n) (hn : a.next = some l) (hl : l.head = n)
    (hq : a.queue = []) :
    a.removeHead s n true = Eff.mk' { a with next := none } [endAct n l.number .headAbsent] := by
  subst hl
  have hcur : a.holdsCurrent l.head = false := by simp [Arb.holdsCurrent, hc, hk]
  have hfree : a.freeNext s.cfg = Eff.pure { a with next := none } := fill_empty (by exact hq) _
  simp [Arb.removeHead, slotOf_of_next hcur hn, Arb.freeSlot, Eff.andThen, Eff.mk', hfree, Eff.pure]

theorem removeHead_queued {q : Ask} (hq : a.queue = [q]) (hh : q.head = n)
    (hc : a.current.all (fun l => l.head != n) = true) (hn : a.next.all (fun l => l.head != n) = true) :
    a.removeHead s n true = Eff.mk' { a with queue := [] } [endAct n 0 .headAbsent] := by
  have hcur : a.holdsCurrent n = false := by
    cases h : a.current <;> simp_all [Arb.holdsCurrent]
  have hnext : a.holdsNext n = false := by
    cases h : a.next <;> simp_all [Arb.holdsNext]
  simp [Arb.removeHead, slotOf_none hcur hnext, hq, hh]

theorem takeArb_absent {old : PeerState} {via : Via} (h : s.cfg.inChute n = true) :
    takeArb s (.peer n old .absent via) = s.arb.removeHead s n true := by
  show s.arb.takePeer s n old .absent via = _
  simp [Arb.takePeer, h]

theorem takeArb_absent_nowhere {old : PeerState} {via : Via} (h : n ∉ s.arb.heads) :
    takeArb s (.peer n old .absent via) = Eff.pure s.arb := by
  show s.arb.takePeer s n old .absent via = _
  simp [Arb.takePeer, removeHead_nowhere h]

end

/-! ### The silence timer at a blender -/

section
variable {s : State} {n : Nat}

/-- A station with the BLEND role alone whose silence timer for `n` expires (R20). -/
structure Silence (s : State) (n : Nat) : Prop where
  ready : Ready s
  roles : s.cfg.roles = { blend := true, head := false, mark := false, paper := false }
  other : n ≠ s.self
  phase : s.inv.phase = .idle
  exchanges : s.line.exchanges = []
  on : (s.line.peer n).silence.on = true
  present : (s.line.peer n).state = .present

theorem Silence.runs (h : Silence s n) {b : Block} (hb : b ≠ .start) {t : State} {q : Jobs}
    (hjob : (s.silenced n).usedChoice.takeJob b (.peer n .present .absent .other) = (t, q))
    (ht : t.cfg = s.cfg ∧ t.head = s.head)
    (inv : .inv ≠ b → ∀ v : State, v = (s.silenced n).usedChoice ∨ v = t →
      v.takeJob .inv (.peer n .present .absent .other) = (v, []))
    (arb : .arb ≠ b → ∀ v : State, v = (s.silenced n).usedChoice ∨ v = t →
      v.takeJob .arb (.peer n .present .absent .other) = (v, []))
    (hq : ∀ j ∈ q, t.takeJob j.1 j.2 = (t, [])) : exec (.silenceTimerExpiry n) s = .next t.tryTransmit := by
  have idle (c : Block) (hs : c ≠ .start) (hc : c ≠ b) (v : State) (hv : v = (s.silenced n).usedChoice ∨ v = t) :
      v.takeJob c (.peer n .present .absent .other) = (v, []) := by
    have hroles : v.cfg.roles = s.cfg.roles := by
      rcases hv with rfl | rfl
      · rfl
      · rw [ht.1]
    rw [h.roles] at hroles
    cases c with
    | start => exact absurd rfl hs
    | inv => exact inv hc v hv
    | arb => exact arb hc v hv
    | blend => exact idle_blend rfl
    | head => exact takeJob_no_head _ _ (by rw [hroles])
    | mark => exact takeJob_no_mark _ _ (by rw [hroles])
    | paper => exact takeJob_no_paper _ _ (by rw [hroles])
  have hw := canSend_working h.ready.1
  refine next_eq ((act_silence hw h.on h.other h.exchanges h.present).trans ?_)
  exact settle_tellAll_only hb hjob idle hq (by rw [ht.2]; exact h.ready.2)

/-- Only the invoice unit acts on the absence of a head that holds nothing of the chute. -/
theorem Silence.inv (h : Silence s n) (hn : n ∉ s.arb.heads) {r : Eff Inv} {t : State} {q : Jobs}
    (hr : s.inv.takePeer (s.silenced n).usedChoice n .present .absent .other = r) (hph : r.st.phase ≠ .waitFree)
    (hp : ({ (s.silenced n).usedChoice with inv := r.st } : State).perform r.acts = (t, q))
    (ht : t.cfg = s.cfg ∧ t.head = s.head ∧ t.arb = s.arb) (hq : ∀ j ∈ q, t.takeJob j.1 j.2 = (t, [])) :
    exec (.silenceTimerExpiry n) s = .next t.tryTransmit := by
  refine h.runs (b := .inv) (by decide) (job_inv (canSend_working h.ready.1) (takeInv_peer hr hph) hp) ⟨ht.1, ht.2.1⟩
    (fun hne => absurd rfl hne) (fun _ v hv => ?_) hq
  have harb : v.arb = s.arb := by
    rcases hv with rfl | rfl
    · rfl
    · exact ht.2.2
  exact idle_arb (takeArb_absent_nowhere (by rw [harb]; exact hn))

/-- Only the arbiter acts where no invoice is held. -/
theorem Silence.arb (h : Silence s n) (htab : s.inv.table = []) (hch : s.cfg.inChute n = true) (hroom : JobRoom s)
    {a : Arb} {k : Nat} (ha : s.arb.removeHead (s.silenced n).usedChoice n true = Eff.mk' a [endAct n k .headAbsent]) :
    exec (.silenceTimerExpiry n) s =
      .next (State.tryTransmit
        { (s.silenced n).usedChoice.queues (jobFrame n (.leaseEnd { lease := k, reason := .headAbsent }) .plain) with
          arb := a }) := by
  have hjob : (s.silenced n).usedChoice.takeJob .arb (.peer n .present .absent .other) =
      ({ (s.silenced n).usedChoice.queues (jobFrame n (.leaseEnd { lease := k, reason := .headAbsent }) .plain) with
          arb := a }, []) := by
    refine job_arb (canSend_working h.ready.1) (by exact congrArg Roles.blend h.roles)
      ((takeArb_absent (by exact hch)).trans ha) (perform_job _ _ _ _ h.ready.1 ?_)
    show (s.line.setPeer n _).txq.length < _
    rw [setPeer_txq]
    exact hroom
  refine h.runs (b := .arb) (by decide) hjob ⟨rfl, rfl⟩ (fun _ v hv => ?_) (fun hne => absurd rfl hne) (by simp)
  have hinv : v.inv = s.inv := by rcases hv with rfl | rfl <;> rfl
  refine idle_inv (takeInv_peer (takePeer_empty (by rw [hinv]; exact htab) (by rw [hinv]; exact h.phase) v n _ _ _) ?_)
  show v.inv.phase ≠ .waitFree
  rw [hinv, h.phase]
  exact ClaimPhase.noConfusion

end

/-! ### The entries after a timer of the station table -/

section
variable {s : State} {n : Nat}

theorem peer_in_range (h : s.line.peer n ≠ Peer.cold) : 1 ≤ n ∧ n ≤ 24 := by
  cases n with
  | zero => exact absurd rfl h
  | succ k =>
    refine ⟨by omega, ?_⟩
    by_contra hk
    have hnone : s.line.table[k]? = none := by simp; omega
    exact h (by simp [Line.peer, hnone])

theorem silenceExpired_writes (hon : (s.line.peer n).silence.on = true) (hn : n ≠ s.self) :
    WritesPeer s (s.silenceExpired n).1 n
      { s.line.peer n with state := .absent, silence := .stopped, watch := .stopped } := by
  have hself : (n != s.self) = true := bne_iff_ne.2 hn
  unfold State.silenceExpired
  simp only [hon, hself, Bool.and_self, if_true]
  obtain ⟨ht, hc, hm, hs, hp⟩ := entryBecomes_writes
    (({ s with line := s.line.endAll (s.line.exchanges.filter (fun x => x.peer == n)) } : State).report
      (Report.of .peerAbsent none none (some n) .absent)) n
    { s.line.peer n with state := .absent, silence := .stopped, watch := .stopped } .other
  exact ⟨ht.trans (setPeer_table_congr (endAll_table _ _) _ _), hc, hm, hs, hp⟩

theorem watchExpired_goes (hon : (s.line.peer n).watch.on = true) (hn : n ≠ s.self)
    (hp : (s.line.peer n).state = .joining) :
    s.watchExpired n = s.entryBecomes n { s.line.peer n with state := .present, watch := .stopped } .other := by
  have hself : (n != s.self) = true := bne_iff_ne.2 hn
  simp [State.watchExpired, hon, hself, hp]

/-- The entry whose join watch has expired, with its report. -/
def State.appeared (s : State) (n : Nat) : State :=
  { s.report (Report.of .peerPresent none none (some n) .absent) with
    line := s.line.setPeer n { s.line.peer n with state := .present, watch := .stopped } }

theorem entryBecomes_appears (hp : (s.line.peer n).state = .joining) :
    s.entryBecomes n { s.line.peer n with state := .present, watch := .stopped } .other =
      (s.appeared n).tellAll (.peer n .joining .present .other) := by
  unfold State.entryBecomes State.entryMoved
  simp [hp]
  rfl

end

/-- Settles O24. -/
theorem stationTimers : Obligations.StationTimers := by
  refine ⟨actingStation_iff, paperCounts_iff, closedEntries_ascending,
    fun s t n h hr hj hn hph hx hon hp hall ht => ?_, fun s t n h hr hn hph hx hon hp ht => ?_,
    fun s n hw hn => ⟨fun hon => ?_, fun hon hp => ?_, fun ho hr hch htab hph hx => ⟨fun hon => ?_, fun hon hp => ?_⟩⟩⟩
  · have hself : t.self = s.self := by rw [ht]; rfl
    have hinv : t.inv = s.inv := by rw [ht]; rfl
    have hpaper : t.paper = s.paper := by rw [ht]; rfl
    have hsame (p : Paper) : ({ t with paper := p } : State).cfg = s.cfg ∧ ({ t with paper := p } : State).inv = s.inv ∧
        ({ t with paper := p } : State).head = s.head := by rw [ht]; exact ⟨rfl, rfl, rfl⟩
    have run := @paper_absence s n t
    refine ⟨fun ha => ?_, fun ha hact => ?_, fun ha hact => ⟨fun x y hl hcx hcy => ?_, fun x hl hcx hask hfind => ?_⟩⟩
    · rw [← hself, ← hpaper] at ha
      rw [← hpaper]
      exact run h hr hj hn hph hx hon hp hall ht (elect_stands ha) (perform_nil _) (hsame _) (by simp)
    · rw [← hself] at ha
      rw [← hpaper] at hact ⊢
      exact run h hr hj hn hph hx hon hp hall ht (elect_stops ha hact) (perform_nil _) (hsame _) (by simp)
    · rw [← hself] at ha ⊢
      rw [← hpaper] at hact ⊢
      rw [← hinv] at hl
      exact run h hr hj hn hph hx hon hp hall ht ((elect_starts ha hact).trans (build_two hl hcx hcy)) (q := []) rfl
        (by rw [ht]; exact ⟨rfl, rfl, rfl⟩) (by simp)
    · rw [← hself] at ha ⊢
      rw [← hpaper] at hact ⊢
      rw [← hinv] at hl hfind hph
      refine run h hr hj hn (hinv ▸ hph) hx hon hp hall ht ((elect_starts ha hact).trans (build_waiting hl hcx))
        (q := [(.inv, .askFor x.num)]) rfl (hsame _) (fun j hj => ?_)
      rw [List.mem_singleton.1 hj]
      exact job_askFor_spaced (by exact hfind) hask (by exact hph)
  · subst ht
    have hs : Silence s n := ⟨h, hr, hn, hph, hx, hon, hp⟩
    have hph' : s.inv.phase ≠ .waitFree := by rw [hph]; exact ClaimPhase.noConfusion
    refine ⟨fun x hq htab ho hown => ⟨fun hl hb => ?_, fun hl => ?_⟩,
      fun x o f k hq hroom htab ho hst hf hh hl hk hd hv hhdr => ?_,
      fun hch hroom htab hq => ⟨fun l hc hl hnext => ?_, fun k l hc hk hnext hl => ?_⟩,
      fun k hch hroom htab hq hk hc hnext => ?_⟩
    · exact hs.inv hq (takePeer_frees htab hph ho hown hl) hph' (perform_freed _ _) ⟨rfl, rfl, rfl⟩
        (freed_elsewhere (by exact congrArg Roles.mark hr) (by exact congrArg Roles.paper hr) (by exact hb))
    · exact hs.inv hq ((takePeer_orphans htab hph ho hown hl).trans rfl) hph' (perform_nil _) ⟨rfl, rfl, rfl⟩ (by simp)
    · exact hs.inv hq (takePeer_losesFill htab hph ho hst hf hh hl hk hd hv hhdr) hph'
        (perform_job _ _ _ _ h.1 (by
          show (s.line.setPeer n _).txq.length < _
          rw [setPeer_txq]
          exact hroom)) ⟨rfl, rfl, rfl⟩ (by simp)
    · exact hs.arb htab hch hroom (removeHead_current hc hl hnext hq)
    · exact hs.arb htab hch hroom (removeHead_next hc hk hnext hl hq)
    · exact hs.arb htab hch hroom (removeHead_queued hq hk hc hnext)
  · have hr := peer_in_range (s := s) (n := n) (fun hc => by rw [hc] at hon; exact absurd hon (by decide))
    have hact : s.act (fun s => s.silenceExpired n) = State.settle (s.silenceExpired n) := act_working s _ hw
    refine ⟨_, next_eq hact, (silenceExpired_writes hon hn).settle.entries hr.1 hr.2⟩
  · have hr := peer_in_range (s := s) (n := n) (fun hc => by rw [hc] at hon; exact absurd hon (by decide))
    have hact : s.act (fun s => s.watchExpired n) = State.settle (s.watchExpired n) := act_working s _ hw
    have hw' := entryBecomes_writes s n { s.line.peer n with state := .present, watch := .stopped } .other
    rw [← watchExpired_goes hon hn hp] at hw'
    exact ⟨_, next_eq hact, hw'.settle.entries hr.1 hr.2⟩
  · have hun : Unconcerned (s.silenced n).usedChoice n := ⟨hr, hch, htab, hph⟩
    refine next_eq ((act_working s _ hw).trans ((congrArg State.settle (silenceExpired_goes hon hn hx)).trans ?_))
    split
    · rw [settle_nil _ (by exact ho)]
      rfl
    · rw [settle_tellAll_idle _ (hun.idle _ _ _) rfl (by exact ho)]
      rfl
  · have hun : Unconcerned (s.appeared n).usedChoice n := ⟨hr, hch, htab, hph⟩
    refine next_eq ((act_working s _ hw).trans ((congrArg State.settle
      ((watchExpired_goes hon hn hp).trans (entryBecomes_appears hp))).trans ?_))
    exact settle_tellAll_idle _ (hun.idle _ _ _) rfl (by exact ho)

end Sys2Proof.Machine

/-! ## A frame of the station completes (O27, R10, R18) -/

namespace Sys2Proof.Machine

/-! ### A frame of the invoice unit that completes -/

section
variable {s t u : State} {f : TxFrame} {q : List TxFrame} {r : Jobs}

/-- The unit hears its own frame of a kind that only tells others something. -/
theorem heardOwn_idle {v : State} (hm : v.inv.takeFrame v s.self f.msg true = Eff.pure v.inv) (hph : v.inv.phase ≠ .waitFree) :
    v.takeJob .inv (.frame s.self 0 f.msg true) = (v, []) := idle_inv (takeInv_frame hm hph)

/-- A frame of the invoice unit that it alone takes: the completion, its own hearing of it, then the notices. -/
theorem completes_inv (h : Completes s f q) (htag : f.tag.block = some .inv) (hex : ∀ id, f.tag ≠ .exch id)
    (hm : takers f.msg = [.inv]) (hjob : (s.sent q).takeJob .inv (.complete f) = (t, r))
    (hown : t.inv.takeFrame t s.self f.msg true = Eff.pure t.inv) (hph : t.inv.phase ≠ .waitFree)
    (hd : drain 4094 t r = u) (ho : u.head.owedDone = []) (hs : u.still) : exec .frameComplete s = .next u := by
  have hsent := frameComplete_sent s f q h hex
  rw [hm, htag] at hsent
  have hjobs : s.frameComplete =
      (s.sent q, [(Block.inv, Ev.complete f), (.inv, .frame s.self 0 f.msg true)]) := hsent.trans rfl
  refine next_eq ((act_working s _ (canSend_working h.1.1)).trans ?_)
  rw [hjobs, ← tryTransmit_quiet u hs]
  exact settle_drain (drain_job (n := 4095) hjob (drain_job (n := 4094) (heardOwn_idle hown hph)
    (by rw [List.append_nil]; exact hd))) ho

theorem sent_still (s : State) (q : List TxFrame) : (s.sent q).still := rfl

/-- The unit's answer to a completion. -/
theorem job_complete {x : Eff Inv} (hc : s.canSend = true) (hb : s.inv.takeComplete (s.sent q) f = x)
    (hph : x.st.phase ≠ .waitFree) (hp : ({ s.sent q with inv := x.st } : State).perform x.acts = (t, r)) :
    (s.sent q).takeJob .inv (.complete f) = (t, r) := by
  refine job_inv (canSend_working hc) ?_ hp
  subst hb
  exact andThen_claimIfFree hph (s.sent q)

end

/-! ### CLAIM (R30, R33) -/

section
variable {i : Inv} {s : State} {n : Nat} {l : List Nat}

theorem claimDone_first (hp : i.phase = .queued n false l) (hc : s.consentSet ≠ []) :
    i.claimDone s n = Eff.pure { i with phase := .window n false s.consentSet, claimWindow := .running 400 } := by
  simp [Inv.claimDone, hp, hc, Config.claimWindow]

theorem claimDone_second (hp : i.phase = .queued n true l) (hl : l ≠ []) :
    i.claimDone s n = Eff.pure { i with phase := .window n true l, claimWindow := .running 400 } := by
  simp [Inv.claimDone, hp, hl, Config.claimWindow]

theorem claimDone_firm (hp : i.phase = .queued n false l) (hc : s.consentSet = []) : i.claimDone s n = i.goFirm n := by
  simp [Inv.claimDone, hp, hc]

theorem goFirm_opens {o : OwnerRec} (ho : i.owned n = some o) (hd : o.resendDelay = .stopped)
    (hv : o.issued < Config.maxVersion) {h : Header} (hh : h = { o.view.hdr with state := .opened, version := o.issued + 1 }) :
    i.goFirm n =
      Eff.mk' { i.updOwn n (fun y => { y with issued := o.issued + 1, view := { o.view with hdr := h } }) with
          phase := .firm n, claimWindow := .stopped }
        [.send (jobFrame 0 (headerMsg h false none) (.versioned n (o.issued + 1)))] := by
  subst hh
  exact issueHdr_next (i := { i with phase := .firm n, claimWindow := .stopped }) ho hd hv _

end

/-! ### HEADER and CHEST-ENTERED applied to the own copy (R35) -/

section
variable {i : Inv} {s : State} {n v : Nat} {b : HeaderBody} {x : Entry} {o : OwnerRec}

theorem andThen_pure {σ : Type} (r : Eff σ) : r.andThen Eff.pure = r := by
  simp [Eff.andThen, Eff.pure]

/-- With no lower version out and none held ahead, a version is applied at once. -/
theorem versionedDone_applies (hx : i.find n = some x) (ho : x.own = some o) (ha : o.ahead = [])
    (hl : lowerOut s o n v = false) (m : Msg) : i.versionedDone s n v m = i.applyOwn s n v m := by
  have howned : i.owned n = some o := (owned_of_find hx).trans ho
  simp only [Inv.versionedDone, howned, hl, ha, Bool.false_eq_true, if_false, List.length_nil]
  exact andThen_pure _

/-- The own copy with a HEADER applied (R35). -/
def Inv.withOwnHeader (i : Inv) (n : Nat) (x : Entry) (b : HeaderBody) : Inv :=
  i.upd n (fun y => { y with data := { y.data with
    hdr := { b.hdr with inv := n }, voids := x.data.voids ++ b.newVoid.toList } })

theorem applyOwn_header (hx : i.find n = some x) (b : HeaderBody) (v : Nat) :
    i.applyOwn s n v (.header b) = i.applyOwnHeader s n x b := by
  simp [Inv.applyOwn, hx]

theorem applyOwnHeader_plain (hs : b.hdr.state = .ending ∨ b.hdr.state = .marking ∨
      (b.hdr.state = .opened ∧ x.data.hdr.state ≠ .claimed)) :
    i.applyOwnHeader s n x b = Eff.mk' (i.withOwnHeader n x b) (copyNotice n) := by
  rcases hs with hs | hs | ⟨hs, hx⟩
  · simp [Inv.applyOwnHeader, Inv.withOwnHeader, hs]
  · simp [Inv.applyOwnHeader, Inv.withOwnHeader, hs]
  · simp [Inv.applyOwnHeader, Inv.withOwnHeader, hs, hx]

theorem applyOwnHeader_firm (hs : b.hdr.state = .opened) (hc : x.data.hdr.state = .claimed) (hp : i.phase = .firm n) :
    i.applyOwnHeader s n x b =
      Eff.mk' { i.withOwnHeader n x b with phase := .idle, req := none }
        (copyNotice n ++ [.post .blend (.claimFirm n), .report (Report.of .claimFirm (some n) none none .absent)]) := by
  have hfirm : (i.withOwnHeader n x b).phase = .firm n := hp
  have happly : i.applyOwnHeader s n x b =
      (Eff.mk' (i.withOwnHeader n x b) (copyNotice n)).andThen (fun i => i.opened n) := by
    simp [Inv.applyOwnHeader, Inv.withOwnHeader, hs, hc]
  rw [happly]
  simp [Inv.opened, hfirm, Eff.andThen, Eff.mk']

theorem applyOwnHeader_closes (hs : b.hdr.state = .closed) (hc : x.data.hdr.state ≠ .closed) :
    i.applyOwnHeader s n x b =
      Eff.mk' (i.upd n (fun y => { y with
          data := { y.data with hdr := { b.hdr with inv := n }, voids := x.data.voids ++ b.newVoid.toList },
          own := y.own.map (fun o => { o with fills := [], short := none }) }))
        (copyNotice n ++
          (if b.hdr.batch = s.self ∧ 0 < b.hdr.voidTotal then
            [.post .blend (.voidsBooked b.hdr.grade b.hdr.voidTotal)] else []) ++ [.post .paper (.closure n)]) := by
  have hupd := upd_upd i n (fun y => { y with data := { y.data with
    hdr := { b.hdr with inv := n }, voids := x.data.voids ++ b.newVoid.toList } })
    (fun y => { y with own := y.own.map (fun (o : OwnerRec) => { o with fills := [], short := none }) }) (fun _ _ => rfl)
  simp only [hs] at hupd
  simp [Inv.applyOwnHeader, hs, hc, Inv.updOwn, hupd]

theorem applyOwnHeader_retires (hs : b.hdr.state = .retired) (hr : i.retired.length < 4) :
    i.applyOwnHeader s n x b =
      Eff.mk' { i with
          table := i.table.filter (fun y => y.num != n),
          retired := i.retired ++ [{ inv := n, version := b.hdr.version, frame := b }] }
        (posts [.blend, .mark, .paper] (.entryFreed n)) := by
  have hroom : i.retired.length + 1 - 4 = 0 := by omega
  simp [Inv.applyOwnHeader, hs, Inv.free, pushRetired, Config.retiredPlaces, hroom, Eff.mk']

theorem applyOwn_chest {b : ChestEnteredBody} (hx : i.find n = some x) (hb : b.short = false) :
    i.applyOwn s n v (.chestEntered b) =
      Eff.mk' (i.upd n (fun y => { y with data := (y.data.addChest (enteredChest b)).atVersion v })) (copyNotice n) := by
  simp [Inv.applyOwn, hx, hb]

end

/-! ### ADOPT (R43) -/

section
variable {i : Inv} {s : State} {n : Nat} {b : AdoptBody} {x : Entry} {r : Rec}

/-- The entry of an adopted invoice, with the owner's records that start then. -/
def Entry.adopted (x : Entry) (r : Rec) (o : OwnerRec) : Entry :=
  { x with
    data := r, copy := .complete, orphan := false, adoptT := .stopped, closedT := .stopped, askT := .stopped,
    rebuildT := .stopped, staleT := .stopped, rebuild := none, own := some o }

theorem upd_const_owned {y : Entry} {o : OwnerRec} (hx : i.find n = some x) (hy : y.num = n) (ho : y.own = some o) :
    (i.upd n (fun _ => y)).owned n = some o := by
  have hfind : (i.upd n (fun _ => y)).find n = some y :=
    (find_upd_self i n _ (fun _ _ => hy)).trans (by rw [hx]; rfl)
  exact (owned_of_find hfind).trans ho

theorem upd_const_updOwn {y : Entry} {o : OwnerRec} (hy : y.num = n) (ho : y.own = some o) (f : OwnerRec → OwnerRec) :
    (i.upd n (fun _ => y)).updOwn n f = i.upd n (fun _ => { y with own := some (f o) }) := by
  unfold Inv.updOwn
  rw [upd_upd i n _ _ (fun _ _ => hy), ho]
  rfl

/-- The acts of an adoption (R43). -/
def adoptedActs (n : Nat) (b : AdoptBody) : List Act :=
  .report (Report.of .adopted (some n) none (some b.oldOwner) .absent) :: (ownerNotice n ++ copyNotice n)

theorem adoptDone_ending (hx : i.find n = some x) (ho : x.own = none) (hf : b.forced = false)
    (hr : r = { x.data with hdr := { x.data.hdr with version := b.version, owner := s.self, adoption := .plain } })
    (hs : x.data.hdr.state = .ending) {o : OwnerRec} (hown : o = { OwnerRec.start r with settle := .running 500 }) :
    i.adoptDone s n b = Eff.mk' (i.upd n (fun _ => x.adopted r o)) (adoptedActs n b) := by
  have hgo : i.adoptDone s n b =
      (Eff.mk' (i.upd n (fun _ => x.adopted r o)) (adoptedActs n b)).andThen (fun i => i.closeTest n) := by
    subst hr hown
    simp [Inv.adoptDone, hx, ho, hf, hs, Entry.adopted, Entry.unorphaned, Config.adoptSettle, adoptedActs]
  have hnum : (x.adopted r o).num = n := by
    subst hr
    show x.num = n
    exact find_num hx
  have hclose : (i.upd n (fun _ => x.adopted r o)).closeTest n = Eff.pure (i.upd n (fun _ => x.adopted r o)) := by
    refine closeTest_not_marking (upd_const_owned hx hnum rfl) ?_
    subst hr hown
    show x.data.hdr.state ≠ .marking
    rw [hs]
    exact InvState.noConfusion
  rw [hgo]
  simp [Eff.andThen, Eff.mk', hclose, Eff.pure]

theorem adoptDone_opened (hx : i.find n = some x) (ho : x.own = none) (hf : b.forced = false)
    (hr : r = { x.data with hdr := { x.data.hdr with version := b.version, owner := s.self, adoption := .plain } })
    (hs : x.data.hdr.state = .opened) (hv : b.version < Config.maxVersion) {h : Header}
    (hh : h = { r.hdr with state := .ending, endCause := some .ownerLost, version := b.version + 1 }) :
    i.adoptDone s n b =
      Eff.mk' (i.upd n (fun _ => x.adopted r { OwnerRec.start r with
          issued := b.version + 1, view := { r with hdr := h }, settle := .running 500 }))
        (adoptedActs n b ++ [.send (jobFrame 0 (headerMsg h false none) (.versioned n (b.version + 1)))]) := by
  let o : OwnerRec := { OwnerRec.start r with settle := .running 500 }
  have hgo : i.adoptDone s n b =
      (Eff.mk' (i.upd n (fun _ => x.adopted r o)) (adoptedActs n b)).andThen
        (fun i => i.issueHdr n (fun h => { h with state := .ending, endCause := some .ownerLost })) := by
    subst hr
    simp [Inv.adoptDone, hx, ho, hf, hs, Entry.adopted, Entry.unorphaned, Config.adoptSettle, adoptedActs, o]
  have hnum : (x.adopted r o).num = n := by
    subst hr
    show x.num = n
    exact find_num hx
  have hissued : o.issued = b.version := by subst hr; rfl
  have hissue := issueHdr_next (i := i.upd n (fun _ => x.adopted r o)) (upd_const_owned hx hnum rfl)
    (by rfl : o.resendDelay = .stopped) (by rw [hissued]; exact hv)
    (fun h => { h with state := .ending, endCause := some .ownerLost })
  rw [hissued] at hissue
  rw [upd_const_updOwn hnum (rfl : (x.adopted r o).own = some o)] at hissue
  rw [hgo]
  simp only [Eff.andThen, Eff.mk', hissue]
  subst hh
  rfl

end

/-! ### The jobs of a completion -/

section
variable {s t u : State} {f : TxFrame} {q : List TxFrame}

/-- Jobs of which one acts. -/
theorem drain_only {n : Nat} {b : Block} {e : Ev} {l p r : Jobs} (hl : l.length < n)
    (h1 : ∀ j ∈ l, s.takeJob j.1 j.2 = (s, [])) (hj : s.takeJob b e = (t, r))
    (h2 : ∀ j ∈ p ++ r, t.takeJob j.1 j.2 = (t, [])) : drain n s (l ++ (b, e) :: p) = t := by
  obtain ⟨m, rfl⟩ : ∃ m, n = (m + 1) + l.length := ⟨n - (l.length + 1), by omega⟩
  rw [drain_idle_first _ l (m + 1) h1]
  exact drain_job hj (drain_idle _ _ h2 m)

/-- The JOIN of a blender completed: the join period begins, and every head is told of the restart (R100, R184). -/
theorem completes_join (h : Completes s f q) (htag : f.tag = .join) {b : JoinBody} (hmsg : f.msg = .join b)
    (hj : s.start.state = .joining) (hr : s.cfg.roles = { blend := true, head := false, mark := false, paper := false })
    (hph : s.inv.phase ≠ .waitFree) (hroom : q.length < Config.txPlaces) :
    exec .frameComplete s =
      .next { (s.sent q).queues (jobFrame 0 (.leaseEnd { lease := 0, reason := .blenderRestart }) .plain) with
        blockChoice := s.blockChoice / 720,
        start := { s.start with joinT := .running s.peerTimeout, retryT := .stopped } } := by
  have hsent := frameComplete_sent s f q h (by simp [htag])
  have hjobs : s.frameComplete = (s.sent q, [(Block.start, Ev.complete f)]) := by
    rw [hsent, hmsg, htag]
    rfl
  have hw := canSend_working h.1.1
  have hjoining : s.isJoining = true := beq_iff_eq.2 hj
  let v : State := { s.sent q with start := { s.start with joinT := .running s.peerTimeout, retryT := .stopped } }
  let w : State := v.usedChoice.queues (jobFrame 0 (.leaseEnd { lease := 0, reason := .blenderRestart }) .plain)
  have hstart : (s.sent q).takeJob .start (.complete f) =
      (v.usedChoice, v.blockOrder.map (fun b => (b, Ev.joinDone))) := by
    have hactive : ((s.sent q).working && (s.sent q).blockActive .start) = true := by
      rw [Bool.and_eq_true]
      exact ⟨hw, rfl⟩
    unfold State.takeJob
    rw [if_pos hactive]
    exact if_pos hjoining
  have harb : v.usedChoice.takeJob .arb .joinDone = (w, []) :=
    job_arb (r := Eff.mk' s.arb [endAct 0 0 .blenderRestart]) (by exact hw) (by exact congrArg Roles.blend hr) rfl
      (perform_job _ _ _ _ (by exact h.1.1) (by exact hroom))
  have idle (c : Block) (hs : c ≠ .start) (ha : c ≠ .arb) (y : State) (hy : y = v.usedChoice ∨ y = w) :
      y.takeJob c .joinDone = (y, []) := by
    have hroles : y.cfg.roles = s.cfg.roles := by rcases hy with rfl | rfl <;> rfl
    have hinv : y.inv = s.inv := by rcases hy with rfl | rfl <;> rfl
    rw [hr] at hroles
    cases c with
    | start => exact absurd rfl hs
    | arb => exact absurd rfl ha
    | inv =>
      refine idle_inv (andThen_claimIfFree (r := Eff.pure y.inv) ?_ y)
      show y.inv.phase ≠ .waitFree
      rw [hinv]
      exact hph
    | blend => exact idle_blend rfl
    | head => exact takeJob_no_head _ _ (by rw [hroles])
    | mark => exact takeJob_no_mark _ _ (by rw [hroles])
    | paper => exact takeJob_no_paper _ _ (by rw [hroles])
  obtain ⟨l, p, hl, hlen, hm⟩ := blockOrder_split v (b := .arb) (by decide)
  have rest (k : List Block) (hk : ∀ c ∈ k, c ≠ .start ∧ c ≠ .arb) (y : State) (hy : y = v.usedChoice ∨ y = w) :
      ∀ j ∈ k.map (fun c => (c, Ev.joinDone)), y.takeJob j.1 j.2 = (y, []) := by
    intro j hjm
    obtain ⟨c, hc, rfl⟩ := List.mem_map.1 hjm
    exact idle c (hk c hc).1 (hk c hc).2 y hy
  have hdrain : drain 4095 v.usedChoice (v.blockOrder.map (fun b => (b, Ev.joinDone))) = w := by
    rw [hl, List.map_append, List.map_cons]
    refine drain_only ?_ (rest l (fun c hc => hm c (.inl hc)) _ (.inl rfl)) harb ?_
    · rw [List.length_map]
      omega
    · rw [List.append_nil]
      exact rest p (fun c hc => hm c (.inr hc)) _ (.inr rfl)
  refine next_eq ((act_working s _ hw).trans ?_)
  rw [hjobs, settle_drain (t := w) (drain_job (n := 4095) hstart (by rw [List.nil_append]; exact hdrain)) (by exact h.1.2)]
  exact tryTransmit_quiet w rfl

/-- PRESENCE completed: the station hears it itself, and nothing follows (R18). -/
theorem completes_presence (h : Ready s) (hs : s.line.sending = true) (hq : s.line.txq = f :: q) {b : PresenceBody}
    (htag : f.tag = .presence) (hd : f.dst = 0) (hmsg : f.msg = .presence b) (hph : s.inv.phase ≠ .waitFree) :
    exec .frameComplete s = .next (s.sent q) := by
  have hconf : s.line.exchanges.all (fun x => !confirms s.self s.self 0 f.msg x) = true := by
    rw [List.all_eq_true]
    intro x _
    cases hk : x.key <;> simp [confirms, hk, hmsg]
  have hsent := frameComplete_sent s f q ⟨h, hs, hq, hd, hconf⟩ (by simp [htag])
  have hjobs : s.frameComplete = (s.sent q, [(Block.inv, Ev.frame s.self 0 f.msg true)]) := by
    rw [hsent, hmsg, htag]
    rfl
  refine next_eq ((act_working s _ (canSend_working h.1)).trans ?_)
  rw [hjobs, settle_one _ _ _ _ (heardOwn_idle (v := s.sent q) (by rw [hmsg]; rfl) hph) (by exact h.2)]
  exact tryTransmit_quiet _ (sent_still s q)

/-- The frame of an exchange completed: its confirm timer starts (R14). -/
theorem completes_exchange (h : Ready s) (hs : s.line.sending = true) (hq : s.line.txq = f :: q) {id : Nat}
    (htag : f.tag = .exch id) (hd : f.dst ≠ 0) (hn : f.dst ≠ s.self) :
    exec .frameComplete s =
      .next { s with line := { s.line with
        cond := .busy, gap := false, sending := false, txq := q, attempts := 0, backoff := none,
        exchanges := s.line.exchanges.map
          (fun (x : Exchange) => if x.id = id then { x with timer := .running 80 } else x) } } := by
  have hjobs : s.frameComplete = ({ s with line := { s.line with
        cond := .busy, gap := false, sending := false, txq := q, attempts := 0, backoff := none,
        exchanges := s.line.exchanges.map
          (fun (x : Exchange) => if x.id = id then { x with timer := .running 80 } else x) } }, []) := by
    have htimer (x : Exchange) : (f.tag == .exch x.id) = true ↔ x.id = id := by
      rw [htag, beq_iff_eq]
      exact ⟨fun he => (Tag.exch.inj he).symm, fun he => by rw [he]⟩
    unfold State.frameComplete
    simp only [h.1, hs, Bool.and_self, if_true, hq, if_false, Line.busy, hd, hn, or_self, htimer, Config.confirmTime]
    rw [htag]
    rfl
  refine next_eq ((act_working s _ (canSend_working h.1)).trans ?_)
  rw [hjobs, settle_nil _ (by exact h.2)]
  exact tryTransmit_quiet _ rfl

/-- CHEST-ENTERED of the owner, applied to the own copy. -/
theorem completes_chest (h : Completes s f q) {n v : Nat} {b : ChestEnteredBody} (htag : f.tag = .versioned n v)
    (hmsg : f.msg = .chestEntered b) (hhead : s.cfg.roles.head = false) (hm : s.cfg.roles.mark = false)
    (hp : s.cfg.roles.paper = false) (hph : s.inv.phase ≠ .waitFree) {i : Inv} (hiph : i.phase = s.inv.phase)
    (hb : s.inv.versionedDone (s.sent q).usedChoice n v (.chestEntered b) = Eff.mk' i (copyNotice n)) :
    exec .frameComplete s = .next { s.sent q with blockChoice := s.blockChoice / 720, inv := i } := by
  let w : State := { s.sent q with blockChoice := s.blockChoice / 720, inv := i }
  have hsent := frameComplete_sent s f q h (by simp [htag])
  have hjobs : s.frameComplete = ((s.sent q).usedChoice, (Block.inv, Ev.complete f) ::
      ((s.sent q).blockOrder.filter (fun b => (takers f.msg).contains b)).map
        (fun b => (b, .frame s.self 0 f.msg true))) := by
    rw [hsent, hmsg, htag]
    rfl
  have hw := canSend_working h.1.1
  have hcomplete : takeInv (s.sent q).usedChoice (.complete f) = Eff.mk' i (copyNotice n) := by
    have hdone : s.inv.takeComplete (s.sent q).usedChoice f = Eff.mk' i (copyNotice n) := by
      rw [← hb]
      simp only [Inv.takeComplete, htag, hmsg]
    have hi : (Eff.mk' i (copyNotice n)).st.phase ≠ .waitFree := by
      show i.phase ≠ .waitFree
      rw [hiph]
      exact hph
    show (s.inv.takeComplete (s.sent q).usedChoice f).andThen (fun i => i.claimIfFree (s.sent q).usedChoice) = _
    rw [hdone]
    exact andThen_claimIfFree hi _
  have hjob : (s.sent q).usedChoice.takeJob .inv (.complete f) =
      (w, [Block.mark, .paper].map (fun b => (b, Ev.copyChanged n))) :=
    job_inv hw hcomplete (perform_posts _ _ _)
  have idle : ∀ j ∈ ((s.sent q).blockOrder.filter (fun b => (takers f.msg).contains b)).map
      (fun b => (b, Ev.frame s.self 0 f.msg true)), w.takeJob j.1 j.2 = (w, []) := by
    intro j hj
    obtain ⟨c, hc, rfl⟩ := List.mem_map.1 hj
    have htake : c = .inv ∨ c = .head ∨ c = .mark := by
      have := (List.mem_filter.1 hc).2
      rw [hmsg] at this
      simpa [takers] using this
    rcases htake with rfl | rfl | rfl
    · refine heardOwn_idle (s := s) (v := w) (by rw [hmsg]; rfl) ?_
      show i.phase ≠ .waitFree
      rw [hiph]
      exact hph
    · exact takeJob_no_head _ _ hhead
    · exact takeJob_no_mark _ _ hm
  refine next_eq ((act_working s _ hw).trans ?_)
  rw [hjobs, settle_drain (drain_job (n := 4095) hjob
    (drain_idle _ _ (List.forall_mem_append.2 ⟨idle, copyNotice_idle n hm hp⟩) _)) (by exact h.1.2)]
  exact tryTransmit_quiet w rfl

end

/-! ### A HEADER of the owner completes -/

section
variable {s t u : State} {f : TxFrame} {q : List TxFrame} {n v : Nat} {b : HeaderBody} {x : Entry} {o : OwnerRec}

/-- The HEADER with version `v` of an invoice that this station owns completes, with no lower one out. -/
structure HeaderOut (s : State) (f : TxFrame) (q : List TxFrame) (n v : Nat) (b : HeaderBody) (x : Entry) (o : OwnerRec) :
    Prop where
  completes : Completes s f q
  tag : f.tag = .versioned n v
  msg : f.msg = .header b
  mark : s.cfg.roles.mark = false
  paper : s.cfg.roles.paper = false
  phase : s.inv.phase ≠ .waitFree
  found : s.inv.find n = some x
  own : x.own = some o
  ahead : o.ahead = []
  lower : lowerOut (s.sent q) o n v = false

/-- What the HEADER does to the own copy, and the notices that follow. -/
theorem HeaderOut.applies (h : HeaderOut s f q n v b x o) {i : Inv} {l : List Act} {r : Jobs}
    (hb : s.inv.applyOwnHeader (s.sent q) n x b = Eff.mk' i l) (hi : i.phase ≠ .waitFree)
    (hp : ({ s.sent q with inv := i } : State).perform l = (t, r)) (ht : t.inv = i) (hd : drain 4094 t r = u)
    (ho : u.head.owedDone = []) (hs : u.still) : exec .frameComplete s = .next u := by
  have hdone : s.inv.takeComplete (s.sent q) f = Eff.mk' i l := by
    rw [← hb, ← applyOwn_header h.found b v, ← versionedDone_applies h.found h.own h.ahead h.lower]
    simp only [Inv.takeComplete, h.tag, h.msg]
  exact completes_inv h.completes (by rw [h.tag]; rfl) (by simp [h.tag]) (by rw [h.msg]; rfl)
    (job_complete h.completes.1.1 hdone hi hp) (by rw [h.msg]; rfl) (by rw [ht]; exact hi) hd ho hs

theorem HeaderOut.copied (h : HeaderOut s f q n v b x o)
    (hs : b.hdr.state = .ending ∨ b.hdr.state = .marking ∨ (b.hdr.state = .opened ∧ x.data.hdr.state ≠ .claimed)) :
    exec .frameComplete s = .next { s.sent q with inv := s.inv.withOwnHeader n x b } :=
  h.applies (applyOwnHeader_plain hs) h.phase (perform_posts _ _ _) rfl
    (drain_idle _ _ (copyNotice_idle n (by exact h.mark) (by exact h.paper)) _) (by exact h.completes.1.2) rfl

/-- The order in MIXING is bound to its batch (R76). -/
theorem blend_firm {p : Order} (hs : s.blend.state = .mixing) (ho : s.blend.order = some p) :
    takeBlend s (.claimFirm n) =
      Eff.pure { s.blend with order := some { p with claim := .firm, batch := some n } } := by
  show s.blend.firm s.isJoining n = _
  simp [Blend.firm, hs, Blend.upd, ho]

theorem HeaderOut.opens (h : HeaderOut s f q n v b x o) {p : Order} (hs : b.hdr.state = .opened)
    (hc : x.data.hdr.state = .claimed) (hp : s.inv.phase = .firm n) (hr : s.cfg.roles.blend = true)
    (hst : s.blend.state = .mixing) (ho : s.blend.order = some p) :
    exec .frameComplete s =
      .next { (s.sent q).report (Report.of .claimFirm (some n) none none .absent) with
        inv := { s.inv.withOwnHeader n x b with phase := .idle, req := none },
        blend := { s.blend with order := some { p with claim := .firm, batch := some n } } } := by
  have hw := canSend_working h.completes.1.1
  exact h.applies (applyOwnHeader_firm hs hc hp) ClaimPhase.noConfusion (perform_append (perform_posts _ _ _) rfl) rfl
    (drain_job (n := 4093) (takeJob_no_mark _ _ h.mark) (drain_job (n := 4092) (takeJob_no_paper _ _ h.paper)
      (drain_job (n := 4091) (job_blend (by exact hw) (by exact hr) (blend_firm (by exact hst) (by exact ho)) rfl) rfl)))
    (by exact h.completes.1.2) rfl

/-- The voids of a batch that closes are booked (R83). -/
theorem HeaderOut.closes (h : HeaderOut s f q n v b x o) (hs : b.hdr.state = .closed) (hc : x.data.hdr.state ≠ .closed)
    (hr : s.cfg.roles.blend = true) :
    exec .frameComplete s =
      .next { s.sent q with
        inv := s.inv.upd n (fun y => { y with
          data := { y.data with hdr := { b.hdr with inv := n }, voids := x.data.voids ++ b.newVoid.toList },
          own := y.own.map (fun o => { o with fills := [], short := none }) }),
        blend := if b.hdr.batch = s.self ∧ 0 < b.hdr.voidTotal then s.blend.addBook b.hdr.grade b.hdr.voidTotal
          else s.blend } := by
  have hw := canSend_working h.completes.1.1
  have happly := applyOwnHeader_closes (i := s.inv) (s := s.sent q) (n := n) hs hc
  have hself : (s.sent q).self = s.self := rfl
  rw [hself] at happly
  by_cases hv : b.hdr.batch = s.self ∧ 0 < b.hdr.voidTotal
  · rw [if_pos hv] at happly ⊢
    exact h.applies happly h.phase (perform_append (perform_append (perform_posts _ _ _) rfl) rfl) rfl
      (drain_job (n := 4093) (takeJob_no_mark _ _ h.mark) (drain_job (n := 4092) (takeJob_no_paper _ _ h.paper)
        (drain_job (n := 4091) (job_blend (by exact hw) (by exact hr) rfl rfl)
          (drain_job (n := 4090) (takeJob_no_paper _ _ h.paper) rfl))))
      (by exact h.completes.1.2) rfl
  · rw [if_neg hv] at happly ⊢
    exact h.applies happly h.phase (perform_append (perform_append (perform_posts _ _ _) rfl) rfl) rfl
      (drain_job (n := 4093) (takeJob_no_mark _ _ h.mark) (drain_job (n := 4092) (takeJob_no_paper _ _ h.paper)
        (drain_job (n := 4091) (takeJob_no_paper _ _ h.paper) rfl)))
      (by exact h.completes.1.2) rfl

theorem HeaderOut.retires (h : HeaderOut s f q n v b x o) (hs : b.hdr.state = .retired) (hb : s.blend.batchInv ≠ some n)
    (hr : s.inv.retired.length < 4) :
    exec .frameComplete s =
      .next { s.sent q with
        inv := { s.inv with
          table := s.inv.table.filter (fun y => y.num != n),
          retired := s.inv.retired ++ [{ inv := n, version := b.hdr.version, frame := b }] } } := by
  have hblend (w : State) (hm : w.cfg.roles.mark = false) (hp : w.cfg.roles.paper = false) (hw : w.blend.batchInv ≠ some n) :
      w.takeJob .blend (.entryFreed n) = (w, []) := freed_elsewhere hm hp hw (.blend, .entryFreed n) (by simp)
  exact h.applies (applyOwnHeader_retires hs hr) h.phase (perform_posts _ _ _) rfl
    (drain_job (n := 4093) (hblend _ h.mark h.paper hb) (drain_job (n := 4092) (takeJob_no_mark _ _ h.mark)
      (drain_job (n := 4091) (takeJob_no_paper _ _ h.paper) rfl))) (by exact h.completes.1.2) rfl

theorem addBook_some (c : Blend) (g : Nat) {w : Nat} (hw : 0 < w) :
    c.addBook g w =
      { c with book := c.book.setIfInBounds g {
        weight := min ((c.bookOf g).weight + w) 500000, count := min ((c.bookOf g).count + 1) 255 } } := by
  simp [Blend.addBook, Nat.ne_of_gt hw, Blend.setBook, Config.maxBatch]

end

/-- Settles O27. -/
theorem frameCompletes : Obligations.FrameCompletes := by
  refine ⟨fun s f q n b l h htag hmsg => ?_,
    fun s f q n v b x o h htag hmsg hm hpap hph hx ho ha hlow => ?_,
    fun s f q n v b x o h htag hmsg hhead hm hpap hph hx ho ha hlow hb => ?_,
    fun s f q n b x r h htag hmsg hf hm hpap hph hx ho hb hc hr => ?_,
    fun s f q b h htag hmsg hj hr hph hroom => completes_join h htag hmsg hj hr hph hroom,
    fun s f q h hs hq => ⟨fun b htag hd hmsg hph => completes_presence h hs hq htag hd hmsg hph,
      fun id htag hd hn => completes_exchange h hs hq htag hd hn⟩⟩
  · have hdone : s.inv.takeComplete (s.sent q) f = s.inv.claimDone (s.sent q) n := by
      simp only [Inv.takeComplete, htag]
    have run {t : State} {x : Eff Inv} (hb : s.inv.claimDone (s.sent q) n = x) (hph : x.st.phase ≠ .waitFree)
        (hp : ({ s.sent q with inv := x.st } : State).perform x.acts = (t, [])) (hi : t.inv = x.st)
        (hh : t.head = s.head) (hs : t.still) : exec .frameComplete s = .next t :=
      completes_inv h (by rw [htag]; rfl) (by simp [htag]) (by rw [hmsg]; rfl) (job_complete h.1.1 (hdone.trans hb) hph hp)
        (by rw [hmsg]; rfl) (by rw [hi]; exact hph) (drain_idle _ _ (by simp) _) (by rw [hh]; exact h.1.2) hs
    refine ⟨fun hp hc => ?_, fun hp hl => ?_, fun o hp hc ho hd hv hroom => ⟨_, rfl, ?_⟩⟩
    · exact run (claimDone_first hp hc) ClaimPhase.noConfusion (perform_nil _) rfl rfl rfl
    · exact run (claimDone_second hp hl) ClaimPhase.noConfusion (perform_nil _) rfl rfl rfl
    · exact run ((claimDone_firm hp hc).trans (goFirm_opens ho hd hv rfl)) ClaimPhase.noConfusion
        (perform_job _ _ _ _ h.1.1 (by exact hroom)) rfl rfl rfl
  · have hout : HeaderOut s f q n v b x o := ⟨h, htag, hmsg, hm, hpap, hph, hx, ho, ha, hlow⟩
    refine ⟨hout.copied, fun p hs hc hp hr hst hord => hout.opens hs hc hp hr hst hord, fun hs hc hr => ?_, hout.retires⟩
    refine (hout.closes hs hc hr).trans ?_
    by_cases hv : b.hdr.batch = s.self ∧ 0 < b.hdr.voidTotal
    · rw [if_pos hv, if_pos hv, addBook_some _ _ hv.2]
    · rw [if_neg hv, if_neg hv]
  · exact completes_chest h htag hmsg hhead hm hpap hph rfl
      ((versionedDone_applies hx ho ha (by exact hlow) _).trans (applyOwn_chest hx hb))
  · have hdone : s.inv.takeComplete (s.sent q) f = s.inv.adoptDone (s.sent q) n b := by
      simp only [Inv.takeComplete, htag, hmsg]
    have run {t : State} {i : Inv} {l : List Act} {k : Jobs} (hb : s.inv.adoptDone (s.sent q) n b = Eff.mk' i l)
        (hi : i.phase = s.inv.phase) (hp : ({ s.sent q with inv := i } : State).perform l = (t, k)) (ht : t.inv = i)
        (hh : t.head = s.head) (hk : ∀ j ∈ k, t.takeJob j.1 j.2 = (t, [])) (hs : t.still) :
        exec .frameComplete s = .next t := by
      rw [← hi] at hph
      exact completes_inv h (by rw [htag]; rfl) (by simp [htag]) (by rw [hmsg]; rfl)
        (job_complete h.1.1 (hdone.trans hb) hph hp) (by rw [hmsg]; rfl) (by rw [ht]; exact hph) (drain_idle _ _ hk _)
        (by rw [hh]; exact h.1.2) hs
    refine ⟨fun hs => ?_, fun hs hv hroom => ⟨_, rfl, ?_⟩⟩
    · exact run (adoptDone_ending hx ho hf hr hs rfl) rfl
        (perform_then rfl (perform_append (perform_posts _ _ _) (perform_posts _ _ _))) rfl rfl
        (List.forall_mem_append.2 ⟨ownerNotice_idle hm hpap hb hc, copyNotice_idle n hm hpap⟩) rfl
    · exact run (adoptDone_opened hx ho hf hr hs hv rfl) rfl
        (perform_then rfl (perform_append (perform_append (perform_posts _ _ _) (perform_posts _ _ _))
          (perform_job _ _ _ _ h.1.1 (by exact hroom)))) rfl rfl
        (by
          rw [List.append_nil]
          exact List.forall_mem_append.2 ⟨ownerNotice_idle hm hpap hb hc, copyNotice_idle n hm hpap⟩) rfl

end Sys2Proof.Machine

/-! ## The end of the configuration load (O52, R180 to R184) -/

namespace Sys2Proof.Machine

/-! ### Jobs of which one acts, with the jobs that it raises -/

section
variable {s t : State}

theorem drain_only_then {m : Nat} {b : Block} {e : Ev} {l p r : Jobs} (h1 : ∀ j ∈ l, s.takeJob j.1 j.2 = (s, []))
    (hj : s.takeJob b e = (t, r)) (h2 : ∀ j ∈ p, t.takeJob j.1 j.2 = (t, [])) :
    drain (m + p.length + 1 + l.length) s (l ++ (b, e) :: p) = drain m t r := by
  rw [drain_idle_first _ l _ h1, drain_cons _ _ hj, drain_idle_first _ p _ h2]

/-- An event of every block of which one acts, in front of other jobs. -/
theorem drain_told {m : Nat} {b : Block} {e : Ev} {r : Jobs} (hb : b ≠ .start) (u : State) (k : Jobs)
    (hj : s.takeJob b e = (t, r)) (idle : ∀ c, c ≠ .start → c ≠ b → ∀ v : State, v = s ∨ v = t → v.takeJob c e = (v, []))
    (hk : ∀ j ∈ k, t.takeJob j.1 j.2 = (t, [])) :
    drain (m + k.length + 6) s (u.blockOrder.map (fun c => (c, e)) ++ k) = drain m t r := by
  obtain ⟨l, p, hl, hlen, hm⟩ := blockOrder_split u hb
  have rest (w : List Block) (hw : ∀ c ∈ w, c ≠ .start ∧ c ≠ b) (v : State) (hv : v = s ∨ v = t) :
      ∀ j ∈ w.map (fun c => (c, e)), v.takeJob j.1 j.2 = (v, []) := by
    intro j hjm
    obtain ⟨c, hc, rfl⟩ := List.mem_map.1 hjm
    exact idle c (hw c hc).1 (hw c hc).2 v hv
  have hfuel : m + k.length + 6 = m + (p.map (fun c => (c, e)) ++ k).length + 1 + (l.map (fun c => (c, e))).length := by
    simp only [List.length_append, List.length_map]
    omega
  rw [hl, List.map_append, List.map_cons, List.append_assoc, List.cons_append, hfuel]
  exact drain_only_then (rest l (fun c hc => hm c (.inl hc)) _ (.inl rfl)) hj
    (List.forall_mem_append.2 ⟨rest p (fun c hc => hm c (.inr hc)) _ (.inr rfl), hk⟩)

end

/-! ### The event of the own entry that begins to join (R20) -/

/-- The own entry moves to JOINING at the load's end. -/
abbrev ownJoining (c : Cfg) : Ev := .peer c.number .unknown .joining .other

section
variable {s : State}

/-- No block but the paper unit has a part in that event. -/
theorem ownJoining_idle (c : Cfg) (hph : s.inv.phase ≠ .waitFree)
    (hm : s.cfg.roles.mark = true → s.mark.ComposeRests ∧ s.mark.StrokeRests) :
    ∀ b, b ≠ .start → b ≠ .paper → s.takeJob b (ownJoining c) = (s, []) := by
  intro b hs hp
  cases b with
  | start => exact absurd rfl hs
  | paper => exact absurd rfl hp
  | inv => exact idle_inv (takeInv_peer rfl hph)
  | blend => exact idle_blend rfl
  | arb =>
    have harb : s.arb.takePeer s c.number .unknown .joining .other = Eff.pure s.arb := by simp [Arb.takePeer]
    exact idle_arb harb
  | head =>
    have hhead : s.head.takePeer s c.number .unknown .joining .other = Eff.pure s.head := by
      simp [Head.takePeer, Eff.andThen, Eff.pure]
    exact idle_head hhead
  | mark =>
    by_cases hr : s.cfg.roles.mark = true
    · obtain ⟨ha, hc⟩ := hm hr
      have hmark : takeMark s (ownJoining c) = Eff.pure s.mark := by
        have hev : s.mark.takeEv s (ownJoining c) = Eff.pure s.mark := by simp [Marker.takeEv]
        rw [takeMark, hev, pure_andThen, advance_rests ha hc]
      unfold State.takeJob
      split
      · simp only [State.runMark, hmark]
        rfl
      · rfl
    · exact takeJob_no_mark _ _ (Bool.not_eq_true _ ▸ hr)

end

/-! ### What the load leaves outside the blocks -/

section
variable {s : State} {c : Cfg}

theorem reportAll_eq (s : State) (l : List Report) :
    s.reportAll l = { s with port := { s.port with reports := l.foldl addReport s.port.reports } } := by
  induction l generalizing s with
  | nil => rfl
  | cons r l ih => exact ih _

/-- The JOIN of a station with configuration `c`. -/
def joinOf (c : Cfg) (k : JoinKind) : TxFrame :=
  jobFrame 0 (.join
    { roles := c.roles, start := k, blender := if c.roles.head then some c.blender else none,
      lane1 := if c.roles.mark then some c.lane1 else none, lane2 := if c.roles.mark then c.lane2 else none }) .join

/-- The station after a load that ends good, before its blocks are told: START reported, its JOIN queued. -/
def State.loadJoins (s : State) (c : Cfg) (k : JoinKind) : State :=
  { s.tookLoad c with
    port := { s.port with reports := (loadReports s.start.kind c.rejected).foldl addReport s.port.reports },
    line := { (s.tookLoad c).line with txq := [joinOf c k] } }

theorem converts_cold (h : s.start.isCold = true) : s.converts c = false := by simp [State.converts, h]

theorem converts_kept (hn : c.number = s.cfg.number) (hr : c.roles = s.cfg.roles) : s.converts c = false := by
  simp [State.converts, hn, hr]

/-- The load queues JOIN first. -/
theorem queueJoin_load (hl : s.start.resetLow = false) (hconv : s.converts c = false) (hq : s.line.txq = []) {k : JoinKind}
    (hk : k = if s.start.isCold then .cold else .warm) :
    ((s.tookLoad c).reportAll (loadReports s.start.kind c.rejected)).queueJoin = (s.loadJoins c k, []) := by
  subst hk
  rw [reportAll_eq]
  have hmsg : ({ s.tookLoad c with
      port := { (s.tookLoad c).port with
        reports := (loadReports s.start.kind c.rejected).foldl addReport (s.tookLoad c).port.reports } } : State).joinMsg =
      ((joinOf c (if s.start.isCold then .cold else .warm)).msg) := by
    simp [State.joinMsg, State.tookLoad, hconv, State.takeCfg, joinOf, jobFrame]
  have hsend : ({ s.tookLoad c with
      port := { (s.tookLoad c).port with
        reports := (loadReports s.start.kind c.rejected).foldl addReport (s.tookLoad c).port.reports } } : State).canSend =
      true := by
    simp [State.canSend, State.working, State.dupOffline, State.tookLoad, hconv, State.takeCfg, hl]
  have htxq : (s.tookLoad c).line.txq = [] := by simp [State.tookLoad, hconv, State.takeCfg, hq]
  have hport : (s.tookLoad c).port = s.port := by simp [State.tookLoad, hconv, State.takeCfg]
  unfold State.queueJoin
  rw [sendFrame_room _ _ hsend (by
    show (s.tookLoad c).line.txq.length < _
    rw [htxq, job_places]
    decide), hmsg, hport]
  simp only [State.queues, htxq]
  rfl

/-- The load as its steps: JOIN, the event of a warm load, the event of the own entry. -/
theorem loadGood_eq (s : State) (c : Cfg) :
    s.loadGood c =
      let r := ((s.tookLoad c).reportAll (loadReports s.start.kind c.rejected)).queueJoin
      let q := if s.start.isCold || s.converts c then (r.1, []) else r.1.tellAll .loaded
      let e := q.1.entryMoved q.1.self s.ownPeer.state q.1.ownPeer.state .other
      (e.1, r.2 ++ q.2 ++ e.2) := rfl

theorem loadGood_cold (hl : s.start.resetLow = false) (hs : s.start.state = .loading) (hc : s.start.isCold = true)
    (hq : s.line.txq = []) :
    s.loadGood c =
      ((s.loadJoins c .cold).usedChoice, (s.loadJoins c .cold).blockOrder.map (fun b => (b, ownJoining c))) := by
  have hconv := converts_cold (c := c) hc
  have hjoin := queueJoin_load hl hconv hq (k := .cold) (by rw [hc]; rfl)
  have hown : s.ownPeer.state = .unknown := by simp [State.ownPeer, hs]
  have hself : (s.loadJoins c .cold).self = c.number := by
    simp [State.loadJoins, State.tookLoad, State.takeCfg, State.self]
  have hnew : (s.loadJoins c .cold).ownPeer.state = .joining := by
    simp [State.loadJoins, State.tookLoad, State.ownPeer]
  rw [loadGood_eq, hjoin]
  simp only [hc, Bool.true_or, if_true, List.nil_append, hown, hself, hnew]
  rfl

theorem loadGood_warm (hl : s.start.resetLow = false) (hs : s.start.state = .loading) (hc : s.start.isCold = false)
    (hconv : s.converts c = false) (hq : s.line.txq = []) :
    s.loadGood c =
      ((s.loadJoins c .warm).usedChoice.usedChoice,
        (s.loadJoins c .warm).blockOrder.map (fun b => (b, Ev.loaded)) ++
          (s.loadJoins c .warm).usedChoice.blockOrder.map (fun b => (b, ownJoining c))) := by
  have hjoin := queueJoin_load hl hconv hq (k := .warm) (by rw [hc]; rfl)
  have hown : s.ownPeer.state = .unknown := by simp [State.ownPeer, hs]
  have hself : (s.loadJoins c .warm).usedChoice.self = c.number := by
    simp [State.loadJoins, State.tookLoad, State.takeCfg, State.self, State.usedChoice]
  have hnew : (s.loadJoins c .warm).usedChoice.ownPeer.state = .joining := by
    simp [State.loadJoins, State.tookLoad, State.ownPeer, State.usedChoice]
  have hother : (s.loadJoins c .warm).tellAll .loaded = ((s.loadJoins c .warm).usedChoice,
      (s.loadJoins c .warm).blockOrder.map (fun b => (b, Ev.loaded))) := rfl
  rw [loadGood_eq, hjoin]
  simp only [hc, hconv, Bool.or_self, Bool.false_eq_true, if_false, List.nil_append, hother, hown, hself, hnew]
  rfl

theorem loadEnd_good (hl : s.start.resetLow = false) (hs : s.start.state = .loading)
    (hm : loadMemory s.cfgMem true = .inr c) : s.loadEnd true = State.settle (s.loadGood c) := by
  simp [State.loadEnd, hs, hl, hm]

theorem loadEnd_fault (hl : s.start.resetLow = false) (hs : s.start.state = .loading) {a : Bool} {f : CfgFault}
    (hm : loadMemory s.cfgMem a = .inl f) : s.loadEnd a = s.loadFault f := by
  simp [State.loadEnd, hs, hl, hm]

/-- A wrong signature is found first (R180). -/
theorem loadMemory_signature {m : List Host.Cell} (h : Memory.read m 0 ≠ 0x4C#8 ∨ Memory.read m 1 ≠ 0x53#8) :
    loadMemory m true = .inl .signature := by
  have hsig : at2 (Memory.read m) 0 ≠ 0x4C53 := by
    have h0 := (Memory.read m 0).isLt
    have h1 := (Memory.read m 1).isLt
    unfold at2 at1
    intro heq
    have e0 : (Memory.read m 0).toNat = 0x4C := by omega
    have e1 : (Memory.read m 1).toNat = 0x53 := by simp only [Nat.zero_add] at heq; omega
    rcases h with h | h
    · exact h (BitVec.eq_of_toNat_eq e0)
    · exact h (BitVec.eq_of_toNat_eq e1)
  simp [loadMemory, memoryFault, hsig]

end

/-! ### A cold load (R180, R184) -/

section
variable {s : State} {c : Cfg}

theorem tookLoad_cold (hc : s.start.isCold = true) :
    s.tookLoad c = { s with
      cfg := c, start := { s.start with state := .joining, fault := none, rejected := c.rejected, converted := false },
      line := { s.line with table := s.line.table.map (fun p => { p with
        silence := p.silence.again (Config.presenceInterval * c.scale),
        watch := p.watch.again (Config.presenceInterval * c.scale) }) },
      inv := { s.inv with mark := c.first - 1 },
      fe := { s.fe with
        zero := c.zero, loss := if c.roles.blend || c.roles.head then .running Config.lossTime else .stopped },
      head := { s.head with allowance := c.allowance, refGrade := c.defGrade } } := by
  simp [State.tookLoad, converts_cold hc, State.takeCfg, hc]

/-- At a cold load the paper unit of a station that joins is not acting (R160). -/
theorem takePaper_joins (hj : s.isJoining = true) (hk : s.keepsDecision = false) :
    ∃ p : Paper, takePaper s (ownJoining c) = Eff.pure p := by
  have hcount : s.paperCounts s.self = false := by
    have hact : s.isActive = false := by
      have := beq_iff_eq.1 hj
      simp [State.isActive, this]
    simp [State.paperCounts, hact]
  have hnot : s.actingStation ≠ some s.self := by
    intro h
    have := ((actingStation_iff s s.self).1 h).2.2.1
    rw [hcount] at this
    exact Bool.false_ne_true this
  have htake : takePaper s (ownJoining c) = s.paper.elect s := by
    show s.paper.takePeer s c.number .joining = _
    simp [Paper.takePeer, hk, Eff.andThen, Eff.pure]
  by_cases ha : s.paper.acting = true
  · exact ⟨_, htake.trans (elect_stops hnot ha)⟩
  · exact ⟨_, htake.trans (elect_stands ⟨fun h => absurd h hnot, fun h => absurd h ha⟩)⟩

/-- What a cold load leaves: only the paper unit's decision is made. -/
theorem load_cold (hl : s.start.resetLow = false) (hs : s.start.state = .loading) (hm : loadMemory s.cfgMem true = .inr c)
    (hc : s.start.isCold = true) (hq : s.line.txq = []) (ho : s.head.owedDone = []) (hph : s.inv.phase = .idle)
    (ha : s.mark.arrivals = []) (hp : (s.mark.plate s.mark.compose).cond = .empty) :
    ∃ p : Paper, exec (.configLoadEnd true) s =
      .next (State.tryTransmit { (s.loadJoins c .cold).usedChoice with paper := p }) := by
  have htook := tookLoad_cold (c := c) hc
  let w : State := (s.loadJoins c .cold).usedChoice
  have hwork : w.working = true := by simp [w, State.loadJoins, htook, State.usedChoice, State.working, hl]
  have hinv : w.inv = { s.inv with mark := c.first - 1 } := by simp [w, State.loadJoins, htook, State.usedChoice]
  have hmark : w.mark = s.mark := by simp [w, State.loadJoins, htook, State.usedChoice]
  have howed : w.head.owedDone = [] := by simp [w, State.loadJoins, htook, State.usedChoice, ho]
  have hjoin : w.isJoining = true := by simp [w, State.loadJoins, htook, State.usedChoice, State.isJoining]
  have hkeep : w.keepsDecision = false := by
    simp [w, State.loadJoins, htook, State.usedChoice, State.keepsDecision, hc]
  have idle (v : State) (hi : v.inv = w.inv) (hvm : v.mark = w.mark) :
      ∀ b, b ≠ .start → b ≠ .paper → v.takeJob b (ownJoining c) = (v, []) := by
    refine ownJoining_idle c ?_ (fun _ => ?_)
    · rw [hi, hinv]
      show s.inv.phase ≠ .waitFree
      rw [hph]
      exact ClaimPhase.noConfusion
    · rw [hvm, hmark]
      exact ⟨.inl ha, strokeRests_of_empty hp⟩
  have hjob : ∃ p : Paper, w.takeJob .paper (ownJoining c) = ({ w with paper := p }, []) := by
    by_cases hr : w.cfg.roles.paper = true
    · obtain ⟨p, hpap⟩ := takePaper_joins (c := c) hjoin hkeep
      exact ⟨p, job_paper hwork hr hpap rfl⟩
    · exact ⟨w.paper, takeJob_no_paper _ _ (Bool.not_eq_true _ ▸ hr)⟩
  obtain ⟨p, hjob⟩ := hjob
  refine ⟨p, next_eq ?_⟩
  rw [loadEnd_good hl hs hm, loadGood_cold hl hs hc hq]
  refine settle_tellAll_only (b := .paper) (by decide) hjob (fun b hb hbp v hv => ?_) (by simp) howed
  rcases hv with rfl | rfl
  · exact idle w rfl rfl b hb hbp
  · exact idle { w with paper := p } rfl rfl b hb hbp

end

/-! ### The configuration and the start record stay through the jobs -/

/-- The start record but for the timers of JOIN. -/
def Start.untimed (x : Start) : Start := { x with joinT := .stopped, retryT := .stopped }

section
variable {s : State}

theorem takeJob_untimed (s : State) (b : Block) (e : Ev) : (s.takeJob b e).1.start.untimed = s.start.untimed := by
  unfold State.takeJob
  split
  · cases b with
    | start =>
      simp only [State.takeStart]
      repeat' split
      all_goals rfl
    | inv => simp [State.runInv]
    | blend => simp [State.runBlend]
    | arb => simp [State.runArb]
    | head => simp [State.runHead]
    | mark => simp [State.runMark]
    | paper => simp [State.runPaper]
  · rfl

theorem settle_untimed (r : State × Jobs) : (State.settle r).start.untimed = r.1.start.untimed := by
  refine settle_keeps (fun t => t.start.untimed = r.1.start.untimed) (fun t b e h => (takeJob_untimed t b e).trans h)
    (fun t h => ?_) (fun t h => by rw [tryTransmit_start]; exact h) r rfl
  unfold State.payDone
  repeat' split
  · exact h
  · simpa using h
  · exact h

/-- The start record of an ACTIVE station stays. -/
theorem settle_active {r : State × Jobs} {x : Start} (hx : r.1.start = x) (hs : x.state = .active) :
    (State.settle r).start = x := by
  refine settle_keeps (fun t => t.start = x) (fun t b e h => ?_) (fun t h => ?_)
    (fun t h => (tryTransmit_start t).trans h) r hx
  · have hj : t.isJoining = false := by simp [State.isJoining, h, hs]
    unfold State.takeJob
    split
    · cases b with
      | start =>
        cases e <;> simp only [State.takeStart, hj] <;> exact h
      | inv => simpa [State.runInv] using h
      | blend => simpa [State.runBlend] using h
      | arb => simpa [State.runArb] using h
      | head => simpa [State.runHead] using h
      | mark => simpa [State.runMark] using h
      | paper => simpa [State.runPaper] using h
    · exact h
  · unfold State.payDone
    repeat' split
    · exact h
    · simpa using h
    · exact h

theorem entryMoved_outside (s : State) (n : Nat) (o p : PeerState) (v : Via) :
    (s.entryMoved n o p v).1.cfg = s.cfg ∧ (s.entryMoved n o p v).1.cfgMem = s.cfgMem ∧
      (s.entryMoved n o p v).1.start = s.start := by
  unfold State.entryMoved
  dsimp only
  repeat' split
  all_goals exact ⟨rfl, rfl, rfl⟩

/-- What the load takes before its jobs run. -/
theorem loadGood_outside (s : State) (c : Cfg) :
    (s.loadGood c).1.cfg = c ∧ (s.loadGood c).1.cfgMem = s.cfgMem ∧
      (s.loadGood c).1.start = (s.tookLoad c).start := by
  let j : State := ((s.tookLoad c).reportAll (loadReports s.start.kind c.rejected)).queueJoin.1
  have hj : j.cfg = c ∧ j.cfgMem = s.cfgMem ∧ j.start = (s.tookLoad c).start := by
    have hcfg : (s.tookLoad c).cfg = c := rfl
    have hmem : (s.tookLoad c).cfgMem = s.cfgMem := by
      unfold State.tookLoad
      dsimp only
      split <;> rfl
    simp [j, State.queueJoin, reportAll_eq, hcfg, hmem]
  have hload : (s.loadGood c).1 =
      ((if s.start.isCold || s.converts c then j else j.usedChoice).entryMoved
        (if s.start.isCold || s.converts c then j else j.usedChoice).self s.ownPeer.state
        (if s.start.isCold || s.converts c then j else j.usedChoice).ownPeer.state .other).1 := by
    unfold State.loadGood
    dsimp only
    split <;> rfl
  obtain ⟨h1, h2, h3⟩ := entryMoved_outside (if s.start.isCold || s.converts c then j else j.usedChoice)
    (if s.start.isCold || s.converts c then j else j.usedChoice).self s.ownPeer.state
    (if s.start.isCold || s.converts c then j else j.usedChoice).ownPeer.state .other
  rw [hload, h1, h2, h3]
  split <;> exact hj

end

end Sys2Proof.Machine

/-! ## A warm load under the station's own number and roles (O52, R87, R123, R155, R171) -/

namespace Sys2Proof.Machine

/-! ### What the load leaves outside the blocks -/

/-- The station after a warm load, before its blocks are told. -/
def State.warmJoins (s : State) (c : Cfg) : State := (s.loadJoins c .warm).usedChoice.usedChoice

section
variable {s t : State} {c : Cfg}

theorem tookLoad_warm (h : LoadsWarm s c) :
    s.tookLoad c = { s with
      cfg := c, start := { s.start with state := .joining, fault := none, rejected := c.rejected, converted := false },
      line := { s.line with table := s.line.table.map (fun p => { p with
        silence := p.silence.again (Config.presenceInterval * c.scale),
        watch := p.watch.again (Config.presenceInterval * c.scale) }) },
      fe := { s.fe with loss := if c.roles.blend || c.roles.head then .running Config.lossTime else .stopped } } := by
  obtain ⟨_, _, hc, _, hn, hr, _⟩ := h
  simp [State.tookLoad, converts_kept hn hr, State.takeCfg, hc]

/-- The blocks stand as the warm start left them. -/
structure WarmBlocks (s w : State) (c : Cfg) : Prop where
  working : w.working = true
  cfg : w.cfg = c
  cfgMem : w.cfgMem = s.cfgMem
  joining : w.isJoining = true
  keeps : w.keepsDecision = true
  inv : w.inv = s.inv
  blend : w.blend = s.blend
  head : w.head = s.head
  mark : w.mark = s.mark
  paper : w.paper = s.paper

theorem LoadsWarm.blocks (h : LoadsWarm s c) : WarmBlocks s (s.warmJoins c) c := by
  have htook := tookLoad_warm h
  obtain ⟨hl, _, hc, _⟩ := h
  constructor <;>
    simp [State.warmJoins, State.loadJoins, htook, State.usedChoice, State.working, hl, State.isJoining,
      State.keepsDecision, hc]

/-- A state that differs from it in blocks and reports alone. -/
theorem warmLoaded_of (h : LoadsWarm s c) {l : List Report} (hc : t.cfg = c) (hm : t.cfgMem = s.cfgMem)
    (hi : t.inv.mark = s.inv.mark ∧ t.inv.table = s.inv.table ∧ t.inv.retired = s.inv.retired)
    (hs : t.start = (s.warmJoins c).start) (hq : t.line.txq = (s.warmJoins c).line.txq)
    (hp : t.port = { (s.warmJoins c).port with reports := l.foldl addReport (s.warmJoins c).port.reports }) :
    WarmLoaded s t.tryTransmit c l := by
  have htook := tookLoad_warm h
  obtain ⟨h1, h2, h3⟩ := hi
  refine ⟨(tryTransmit_cfg t).trans hc, (tryTransmit_cfgMem t).trans hm, by rw [tryTransmit_inv, h1],
    by rw [tryTransmit_inv, h2], by rw [tryTransmit_inv, h3], ?_, ?_, ?_⟩
  · rw [tryTransmit_start, hs]
    simp [State.warmJoins, State.loadJoins, htook, State.usedChoice]
  · rw [tryTransmit_txq, hq]
    rfl
  · rw [tryTransmit_port, hp, List.foldl_append]
    rfl

/-- The event of a warm load is nothing to a block that keeps its work by itself. -/
theorem loaded_idle {v : State} (hph : v.inv.phase ≠ .waitFree) :
    ∀ b, b ≠ .start → (b = .blend ∨ b = .head ∨ b = .mark → v.blockActive b = false) → v.takeJob b .loaded = (v, []) := by
  intro b hs hr
  cases b with
  | start => exact absurd rfl hs
  | inv => exact idle_inv (andThen_claimIfFree (r := Eff.pure v.inv) hph v)
  | arb => exact idle_arb rfl
  | paper => exact idle_paper rfl
  | blend => exact takeJob_no_role _ (hr (.inl rfl))
  | head => exact takeJob_no_role _ (hr (.inr (.inl rfl)))
  | mark => exact takeJob_no_role _ (hr (.inr (.inr rfl)))

/-- The decision in force before a warm start stands (R160). -/
theorem takePaper_keeps {v : State} (hk : v.keepsDecision = true) : takePaper v (ownJoining c) = Eff.pure v.paper := by
  show v.paper.takePeer v c.number .joining = _
  simp [Paper.takePeer, hk, Eff.andThen, Eff.pure]

/-- A warm load after which one block acts. -/
theorem warmLoad_runs (h : LoadsWarm s c) {b : Block} (hb : b ≠ .start) {u : State} {q : Jobs}
    (hrole : ∀ d, d = .blend ∨ d = .head ∨ d = .mark → d ≠ b → ∀ v : State, v.cfg = c → v.blockActive d = false)
    (hjob : (s.warmJoins c).takeJob b .loaded = (t, q)) (ht : t.cfg = c ∧ t.start = (s.warmJoins c).start ∧ t.inv = s.inv)
    (hm : c.roles.mark = true → t.mark.ComposeRests ∧ t.mark.StrokeRests) (hq : drain 4084 t q = u)
    (ho : u.head.owedDone = []) : exec (.configLoadEnd true) s = .next u.tryTransmit := by
  have hw := h.blocks
  obtain ⟨htc, hts, hti⟩ := ht
  obtain ⟨hl, hs, hc, hmem, hn, hr, htxq, howed, hph⟩ := h
  have hphase : s.inv.phase ≠ .waitFree := by rw [hph]; exact ClaimPhase.noConfusion
  have hkeep : t.keepsDecision = true := by
    have := hw.keeps
    rwa [State.keepsDecision, State.isJoining, ← hts] at this
  have joins : ∀ j ∈ (s.loadJoins c .warm).usedChoice.blockOrder.map (fun d => (d, ownJoining c)),
      t.takeJob j.1 j.2 = (t, []) := by
    intro j hj
    obtain ⟨d, hd, rfl⟩ := List.mem_map.1 hj
    have hds := (mem_blockOrder _ d).1 hd
    by_cases hp : d = .paper
    · subst hp
      exact idle_paper (takePaper_keeps hkeep)
    · exact ownJoining_idle c (by rw [hti]; exact hphase) (by rw [htc]; exact hm) d hds hp
  have idle (d : Block) (hds : d ≠ .start) (hdb : d ≠ b) (v : State) (hv : v = s.warmJoins c ∨ v = t) :
      v.takeJob d .loaded = (v, []) := by
    refine loaded_idle ?_ d hds (fun hd => hrole d hd hdb v ?_)
    · rcases hv with rfl | rfl
      · rw [hw.inv]; exact hphase
      · rw [hti]; exact hphase
    · rcases hv with rfl | rfl
      · exact hw.cfg
      · exact htc
  refine next_eq ?_
  rw [loadEnd_good hl hs hmem, loadGood_warm hl hs hc (converts_kept hn hr) htxq]
  refine settle_drain ?_ ho
  have hlen : ((s.loadJoins c .warm).usedChoice.blockOrder.map (fun d => (d, ownJoining c))).length = 6 := by
    rw [List.length_map, (blockOrder_perm _).length_eq]
    rfl
  have hdrain := drain_told (m := 4084) hb (s.loadJoins c .warm)
    ((s.loadJoins c .warm).usedChoice.blockOrder.map (fun d => (d, ownJoining c))) hjob idle joins
  rw [hlen] at hdrain
  exact hdrain.trans hq

end

/-! ### The blend sequencer (R87) -/

section
variable {s : State} {c : Cfg}

theorem perform_reports (s : State) (l : List Report) :
    s.perform (l.map Act.report) = ({ s with port := { s.port with reports := l.foldl addReport s.port.reports } }, []) := by
  induction l generalizing s with
  | nil => rfl
  | cons r l ih =>
    have hrest := ih (s.report r)
    rw [List.map_cons, perform_cons]
    show (((s.report r).perform (l.map Act.report)).1, [] ++ ((s.report r).perform (l.map Act.report)).2) = _
    rw [hrest]
    rfl

/-- A claim that was ASKED is asked again, any other not (R50, R87). -/
theorem askAgain_cases (b : Blend) :
    b.askAgain = [] ∨ ∃ q : ClaimReq, b.askAgain = [.post .inv (.claimAsk q)] := by
  unfold Blend.askAgain
  repeat' split
  · exact .inl rfl
  · exact .inl rfl
  · exact .inr ⟨_, rfl⟩
  · exact .inl rfl

theorem askAgain_asked {b : Blend} {o : Order} {w : Nat} (hs : b.state ≠ .blocked) (ho : b.order = some o)
    (hc : o.claim = .asked) (hw : o.charged = some w) :
    b.askAgain =
      [.post .inv (.claimAsk { order := o.number, grade := o.grade, garden := o.garden, charged := w })] := by
  simp [Blend.askAgain, ho, hc, hw, hs]

/-- A station that joins keeps the request (R29). -/
theorem claimAsk_waits {v : State} (hw : v.working = true) (hj : v.isJoining = true) (q : ClaimReq) :
    v.takeJob .inv (.claimAsk q) = ({ v with inv := { v.inv with req := some q, phase := .waitActive } }, []) := by
  have hact : v.isActive = false := by
    have := beq_iff_eq.1 hj
    simp [State.isActive, this]
  have htry : v.inv.takeClaimAsk v q = Eff.pure { v.inv with req := some q, phase := .waitActive } := by
    simp [Inv.takeClaimAsk, Inv.tryClaim, hact]
  refine job_inv hw (r := Eff.pure { v.inv with req := some q, phase := .waitActive }) ?_ rfl
  show (v.inv.takeClaimAsk v q).andThen (fun i => i.claimIfFree v) = _
  rw [htry]
  exact andThen_claimIfFree (r := Eff.pure { v.inv with req := some q, phase := .waitActive }) ClaimPhase.noConfusion v

/-- What a warm load leaves at a station with the BLEND role alone. -/
theorem warm_blend (h : LoadsWarm s c) (hr : s.cfg.roles = { blend := true, head := false, mark := false, paper := false })
    {b : Blend} {l : List Report}
    (hb : s.blend.loaded (s.warmJoins c) = (Eff.mk' b (l.map Act.report)).adds s.blend.askAgain) :
    ∃ t : State, exec (.configLoadEnd true) s = .next t ∧ WarmLoaded s t c l ∧ t.blend = b ∧
      ∀ q : ClaimReq, s.blend.askAgain = [.post .inv (.claimAsk q)] →
        t.inv = { s.inv with req := some q, phase := .waitActive } := by
  have hw := h.blocks
  have hroles : c.roles = { blend := true, head := false, mark := false, paper := false } := h.2.2.2.2.2.1.trans hr
  have howed : s.head.owedDone = [] := h.2.2.2.2.2.2.2.1
  let u : State := { s.warmJoins c with
    blend := b,
    port := { (s.warmJoins c).port with reports := l.foldl addReport (s.warmJoins c).port.reports } }
  have hrole (d : Block) (hd : d = .blend ∨ d = .head ∨ d = .mark) (hne : d ≠ .blend) (v : State) (hv : v.cfg = c) :
      v.blockActive d = false := by
    rcases hd with rfl | rfl | rfl
    · exact absurd rfl hne
    · simp [State.blockActive, hv, hroles]
    · simp [State.blockActive, hv, hroles]
  have hmark : c.roles.mark = true → u.mark.ComposeRests ∧ u.mark.StrokeRests := by simp [hroles]
  have hperform : ({ s.warmJoins c with blend := b } : State).perform (l.map Act.report) = (u, []) := perform_reports _ _
  have hjob {q : Jobs} (hq : u.perform s.blend.askAgain = (u, q)) : (s.warmJoins c).takeJob .blend .loaded = (u, q) := by
    refine job_blend (r := (Eff.mk' b (l.map Act.report)).adds s.blend.askAgain) hw.working ?_ ?_ ?_
    · rw [hw.cfg, hroles]
    · show (s.warmJoins c).blend.loaded (s.warmJoins c) = _
      rw [hw.blend]
      exact hb
    · exact perform_append hperform hq
  have hjoining : u.isJoining = true := hw.joining
  have hinv : u.inv = s.inv := hw.inv
  have hkept (i : Inv) (hi : i.mark = s.inv.mark ∧ i.table = s.inv.table ∧ i.retired = s.inv.retired) :
      WarmLoaded s ({ u with inv := i } : State).tryTransmit c l :=
    warmLoaded_of (t := { u with inv := i }) h hw.cfg hw.cfgMem hi rfl rfl rfl
  rcases askAgain_cases s.blend with hask | ⟨q, hask⟩
  · refine ⟨_, warmLoad_runs (b := .blend) h (by decide) hrole (hjob (q := []) (by rw [hask]; rfl)) ⟨hw.cfg, rfl, hinv⟩ hmark
      rfl ?_, ?_, tryTransmit_blend u, fun q hq => ?_⟩
    · show (s.warmJoins c).head.owedDone = []
      rw [hw.head]
      exact howed
    · exact hkept u.inv (by rw [hinv]; exact ⟨rfl, rfl, rfl⟩)
    · rw [hask] at hq
      cases hq
  · refine ⟨_, warmLoad_runs (b := .blend) h (by decide) hrole (hjob (q := [(.inv, .claimAsk q)]) (by rw [hask]; rfl))
      ⟨hw.cfg, rfl, hinv⟩ hmark (drain_job (n := 4083) (claimAsk_waits (v := u) hw.working hjoining q) rfl) ?_, ?_,
      tryTransmit_blend _, fun k hk => ?_⟩
    · show (s.warmJoins c).head.owedDone = []
      rw [hw.head]
      exact howed
    · exact hkept { u.inv with req := some q, phase := .waitActive } (by rw [hinv]; exact ⟨rfl, rfl, rfl⟩)
    · rw [hask] at hk
      cases hk
      refine (tryTransmit_inv _).trans ?_
      show ({ u.inv with req := some q, phase := .waitActive } : Inv) = _
      rw [hinv]

theorem loaded_charging (hs : s.blend.state = .charging) (w : State) :
    s.blend.loaded w = (Eff.mk' { s.blend with state := .held, held := some .restart }
      ([Report.of .shortfall none none none (.code .restart)].map Act.report)).adds s.blend.askAgain := by
  simp [Blend.loaded, hs]

theorem loaded_mixing (hs : s.blend.state = .mixing) (w : State) :
    s.blend.loaded w = (Eff.mk' { s.blend with stall := if s.blend.stop.isSome then s.blend.stall else .running 10000 }
      (([] : List Report).map Act.report)).adds s.blend.askAgain := by
  cases hp : s.blend.stop with
  | none => simp [Blend.loaded, hs, hp, Config.stallTime, Eff.mk', Eff.pure]
  | some p =>
    simp [Blend.loaded, hs, hp, Eff.mk', Eff.pure]
    rw [← hs, ← hp]

theorem loaded_discharging (hs : s.blend.state = .discharging) {w : State} (hi : w.inv = s.inv) :
    s.blend.loaded w = (Eff.mk' { s.blend with
        stop := if s.blend.stop = none ∧ ∀ n : Nat, s.blend.batchInv = some n → s.inv.owned n = none then some .ownerLost
          else s.blend.stop }
      (([] : List Report).map Act.report)).adds s.blend.askAgain := by
  cases hp : s.blend.stop with
  | some p =>
    simp [Blend.loaded, hs, hp, Eff.mk', Eff.pure]
    rw [← hs, ← hp]
  | none =>
    cases hn : s.blend.batchInv with
    | none => simp [Blend.loaded, hs, hp, hn, Eff.mk', Eff.pure]
    | some n =>
      cases ho : s.inv.owned n with
      | none => simp [Blend.loaded, hs, hp, hn, hi, ho, Eff.mk', Eff.pure]
      | some o =>
        simp [Blend.loaded, hs, hp, hn, hi, ho, Eff.mk', Eff.pure]
        rw [← hs, ← hp]

theorem loaded_rests (hs : s.blend.state = .idle ∨ s.blend.state = .waitClaim ∨ s.blend.state = .held ∨
      s.blend.state = .blocked) (w : State) :
    s.blend.loaded w = (Eff.mk' s.blend (([] : List Report).map Act.report)).adds s.blend.askAgain := by
  rcases hs with hs | hs | hs | hs <;> simp [Blend.loaded, hs, Eff.mk', Eff.pure]

end

/-! ### The head controller (R123) -/

section
variable {s t : State} {c : Cfg}

/-- A warm load at a station with the HEAD role alone. -/
theorem warm_head (h : LoadsWarm s c) (hr : s.cfg.roles = { blend := false, head := true, mark := false, paper := false })
    {x : Eff Head} {l : List Report} (hb : s.head.loaded (s.warmJoins c) = x)
    (hp : ({ s.warmJoins c with head := x.st } : State).perform x.acts = (t, [])) (ho : x.st.owedDone = [])
    (ht : t.head = x.st ∧ t.cfg = (s.warmJoins c).cfg ∧ t.cfgMem = (s.warmJoins c).cfgMem ∧ t.inv = (s.warmJoins c).inv ∧
      t.start = (s.warmJoins c).start ∧ t.line = (s.warmJoins c).line)
    (hport : t.port = { (s.warmJoins c).port with reports := l.foldl addReport (s.warmJoins c).port.reports }) :
    exec (.configLoadEnd true) s = .next t.tryTransmit ∧ WarmLoaded s t.tryTransmit c l ∧ t.tryTransmit.head = x.st := by
  have hw := h.blocks
  have hroles : c.roles = { blend := false, head := true, mark := false, paper := false } := h.2.2.2.2.2.1.trans hr
  obtain ⟨hhead, hcfg, hmem, hinv, hstart, hline⟩ := ht
  have hrole (d : Block) (hd : d = .blend ∨ d = .head ∨ d = .mark) (hne : d ≠ .head) (v : State) (hv : v.cfg = c) :
      v.blockActive d = false := by
    rcases hd with rfl | rfl | rfl
    · simp [State.blockActive, hv, hroles]
    · exact absurd rfl hne
    · simp [State.blockActive, hv, hroles]
  have htake : takeHead (s.warmJoins c) .loaded = x := by
    show (s.warmJoins c).head.loaded (s.warmJoins c) = x
    rw [hw.head]
    exact hb
  refine ⟨warmLoad_runs (b := .head) h (by decide) hrole
    (job_head hw.working (by rw [hw.cfg, hroles]) htake hp) ⟨hcfg.trans hw.cfg, hstart, hinv.trans hw.inv⟩
    (by simp [hroles]) rfl (by rw [hhead]; exact ho), ?_, (tryTransmit_head t).trans hhead⟩
  refine warmLoaded_of h (hcfg.trans hw.cfg) (hmem.trans hw.cfgMem) ?_ hstart (by rw [hline]) hport
  rw [hinv, hw.inv]
  exact ⟨rfl, rfl, rfl⟩

/-- A head that fed, settled or waited for a top-up is in fault (R123). -/
theorem headLoaded_faults (hs : s.head.state = .fast ∨ s.head.state = .dribble ∨ s.head.state = .settling ∨
      s.head.state = .topupWait) (w : State) :
    s.head.loaded w = Eff.mk' { s.head with
        state := .held, lease := .none, cause := some .restart, flight := .stopped, settle := .stopped,
        sendFrame := none, refusedVoid := false, waitOwner := false, waitBlender := false, waitJoin := false,
        chest := s.head.chest.map (fun x => { x with
          lease := none,
          flight := if s.head.flight.on = true ∨ s.head.state = .fast ∨ s.head.state = .dribble then none
            else x.flight }) }
      [.track false, .report (Report.of .headFault (s.head.chest.bind (fun x => x.inv)) none none (.code .restart))] := by
  have hfault : s.head.loaded w =
      (({ s.head with lease := .none } : Head).setChest (fun c => { c with lease := none })).fault w .restart := by
    rcases hs with hs | hs | hs | hs <;> simp only [Head.loaded, hs]
  rw [hfault]
  cases hc : s.head.chest with
  | none => simp [Head.fault, Head.faultWith, Head.setChest, hc, Head.giveUp, Head.chestInv, faultCode]
  | some x =>
    by_cases hf : s.head.flight.on = true ∨ s.head.state = .fast ∨ s.head.state = .dribble
    · simp [Head.fault, Head.faultWith, Head.setChest, hc, Head.giveUp, Head.chestInv, faultCode, hf, or_assoc]
    · simp [Head.fault, Head.faultWith, Head.setChest, hc, Head.giveUp, Head.chestInv, faultCode, hf, or_assoc]

theorem headLoaded_waiting (hs : s.head.state = .waiting) (w : State) :
    s.head.loaded w = Eff.pure { s.head with
      lease := .none, waitJoin := true, waitBlender := false,
      chest := s.head.chest.map (fun x => { x with lease := none }) } := by
  simp only [Head.loaded, hs]
  rfl

theorem headLoaded_reports (hs : s.head.state = .reported ∨ (s.head.state = .voiding ∧ s.head.voidOk = false)) (w : State) :
    s.head.loaded w = Eff.pure { s.head with waitJoin := true, waitOwner := false } := by
  rcases hs with hs | ⟨hs, hv⟩
  · simp only [Head.loaded, hs]
  · simp only [Head.loaded, hs, hv]
    rfl

theorem headLoaded_empty (hs : s.head.state = .empty) (w : State) : s.head.loaded w = Eff.mk' s.head [.track true] := by
  simp only [Head.loaded, hs]

theorem headLoaded_rests (hs : s.head.state = .stopped ∨ s.head.state = .taring ∨ s.head.state = .releasing ∨
      s.head.state = .held ∨ s.head.state = .locked ∨ (s.head.state = .voiding ∧ s.head.voidOk = true)) (w : State) :
    s.head.loaded w = Eff.pure s.head := by
  rcases hs with hs | hs | hs | hs | hs | ⟨hs, hv⟩
  · simp only [Head.loaded, hs]
  · simp only [Head.loaded, hs]
  · simp only [Head.loaded, hs]
  · simp only [Head.loaded, hs]
  · simp only [Head.loaded, hs]
  · simp only [Head.loaded, hs, hv]
    rfl

end

/-! ### The marker (R155) -/

section
variable {s : State} {c : Cfg} {m : Marker} {k : Nat}

/-- A lane with the entries of the pairs in `L` in FAULT. -/
def Lane.faulted (l : Lane) (L : List LaneEntry) : Lane :=
  { l with queue := l.queue.map (fun e =>
      if L.any (fun x => x.is e.inv e.ordinal) then { e with state := .fault, cause := some .restart } else e) }

theorem is_swap (x e : LaneEntry) : x.is e.inv e.ordinal = e.is x.inv x.ordinal := by
  unfold LaneEntry.is
  rw [BEq.comm (a := x.inv), BEq.comm (a := x.ordinal)]

theorem faulted_cons (l : Lane) (x : LaneEntry) (L : List LaneEntry) :
    (l.upd x.inv x.ordinal (fun e => { e with state := .fault, cause := some .restart })).faulted L = l.faulted (x :: L) := by
  simp only [Lane.upd, Lane.faulted, List.map_map]
  congr 1
  refine List.map_congr_left fun e _ => ?_
  by_cases he : e.is x.inv x.ordinal = true
  · simp [he, is_swap x e]
  · rw [Bool.not_eq_true] at he
    simp [he, is_swap x e]

/-- Entries faulted one after the other, each with its LANE_JAM. -/
theorem restart_each (cfg : Cfg) (L : List LaneEntry) (m : Marker) :
    Eff.each (fun (e : LaneEntry) (m : Marker) => m.faultEntry cfg k e.inv e.ordinal .restart) L m =
      Eff.mk' (m.setLane k (fun l => l.faulted L))
        (L.map (fun e => jamReport cfg k e.inv e.ordinal .restart)) := by
  induction L generalizing m with
  | nil =>
    have hsame : m.setLane k (fun l => l.faulted []) = m := by
      have hl (l : Lane) : l.faulted [] = l := by simp [Lane.faulted]
      simp [hl, Marker.setLane]
    rw [hsame]
    rfl
  | cons x L ih =>
    have hset : ((m.setLane k (fun l => l.upd x.inv x.ordinal
        (fun e => { e with state := .fault, cause := some .restart }))).setLane k (fun l => l.faulted L)) =
        m.setLane k (fun l => l.faulted (x :: L)) := by
      rw [setLane_setLane]
      simp only [faulted_cons]
    have hrest := ih (m.faultEntry cfg k x.inv x.ordinal .restart).st
    have hstep : Eff.each (fun (e : LaneEntry) (m : Marker) => m.faultEntry cfg k e.inv e.ordinal .restart) (x :: L) m =
        Eff.mk' (Eff.each (fun (e : LaneEntry) (m : Marker) => m.faultEntry cfg k e.inv e.ordinal .restart) L
            (m.faultEntry cfg k x.inv x.ordinal .restart).st).st
          ((m.faultEntry cfg k x.inv x.ordinal .restart).acts ++
            (Eff.each (fun (e : LaneEntry) (m : Marker) => m.faultEntry cfg k e.inv e.ordinal .restart) L
              (m.faultEntry cfg k x.inv x.ordinal .restart).st).acts) := rfl
    rw [hstep, hrest]
    exact congrArg (fun (j : Marker) => Eff.mk' j _) hset

theorem restarted_eq (l : Lane) (jobs : List Job) (k : Nat) :
    l.faulted (l.queue.filter (faultedByStart jobs k)) = l.restarted jobs k := by
  simp only [Lane.faulted, Lane.restarted, List.any_filter]
  congr 1
  refine List.map_congr_left fun e _ => ?_
  have hany : (l.queue.any fun x => faultedByStart jobs k x && x.is e.inv e.ordinal) =
      l.queue.any (fun x => x.is e.inv e.ordinal && faultedByStart jobs k x) := by
    simp only [Bool.and_comm]
  rw [hany]

theorem lanes_eq (c : Cfg) : c.lanes = if c.lane2.isSome then [1, 2] else [1] := by
  unfold Cfg.lanes Cfg.laneHead
  cases c.lane2 <;> rfl

/-- The marker after a warm load under configuration `c` (R155). -/
def Marker.restarted (m : Marker) (c : Cfg) : Marker :=
  { m with
    arrivals := [], head := if m.head = .idle then .idle else .held,
    lane1 := m.lane1.restarted m.arrivals 1,
    lane2 := if c.lane2.isSome then m.lane2.restarted m.arrivals 2 else m.lane2,
    plateA := if m.compose = .a then m.plateA.restarted else m.plateA,
    plateB := if m.compose = .b then m.plateB.restarted else m.plateB }

/-- The reports of the entries that the start faults. -/
def Marker.jams (m : Marker) (c : Cfg) : List Report :=
  c.lanes.flatMap (fun k => ((m.lane k).queue.filter (faultedByStart m.arrivals k)).map (fun e =>
    Report.of .laneJam (some e.inv) (some e.ordinal) (c.laneHead k) (.code .restart)))

/-- The marker with its arrivals dropped and what it composed abandoned. -/
def Marker.idled (m : Marker) : Marker :=
  { m with
    arrivals := [], head := if m.head = .idle then .idle else .held,
    plateA := if m.compose = .a then m.plateA.restarted else m.plateA,
    plateB := if m.compose = .b then m.plateB.restarted else m.plateB }

theorem loaded_eq (m : Marker) (c : Cfg) :
    m.loaded c = Eff.each (fun k (j : Marker) => j.restartLane c (faultedByStart m.arrivals) k) c.lanes m.idled := by
  have hidled : (if (m.plate m.compose).cond == .composing || (m.plate m.compose).cond == .ready then
      ({ m with arrivals := [], head := if m.head == .idle then .idle else .held } : Marker).setPlate m.compose
        (fun _ => Plate.cold)
      else { m with arrivals := [], head := if m.head == .idle then .idle else .held }) = m.idled := by
    cases hc : m.compose with
    | a =>
      by_cases hp : m.plateA.cond = .composing ∨ m.plateA.cond = .ready
      · simp [Marker.plate, Marker.setPlate, Marker.idled, Plate.restarted, hc, hp]
      · simp [Marker.plate, Marker.idled, Plate.restarted, hc, hp]
    | b =>
      by_cases hp : m.plateB.cond = .composing ∨ m.plateB.cond = .ready
      · simp [Marker.plate, Marker.setPlate, Marker.idled, Plate.restarted, hc, hp]
      · simp [Marker.plate, Marker.idled, Plate.restarted, hc, hp]
  rw [← hidled]
  rfl

theorem restartLane_eq (m : Marker) (c : Cfg) (jobs : List Job) (k : Nat) :
    m.restartLane c (faultedByStart jobs) k =
      Eff.mk' (m.setLane k (fun l => l.faulted ((m.lane k).queue.filter (faultedByStart jobs k))))
        (((m.lane k).queue.filter (faultedByStart jobs k)).map (fun e => jamReport c k e.inv e.ordinal .restart)) :=
  restart_each c _ m

theorem markLoaded (m : Marker) (c : Cfg) : m.loaded c = Eff.mk' (m.restarted c) ((m.jams c).map Act.report) := by
  rw [loaded_eq, Marker.jams, lanes_eq]
  cases h2 : c.lane2 with
  | none =>
    simp only [Option.isSome_none, Bool.false_eq_true, if_false, each_one, restartLane_eq]
    simp [Marker.restarted, Marker.idled, Marker.setLane, Marker.lane, restarted_eq, h2, jamReport, Function.comp_def]
  | some n =>
    have h1 := restartLane_eq m.idled c m.arrivals 1
    simp only [Option.isSome_some, if_true]
    rw [each_two (f := fun k (j : Marker) => j.restartLane c (faultedByStart m.arrivals) k) h1
      (restartLane_eq _ c m.arrivals 2)]
    simp [Marker.restarted, Marker.idled, Marker.setLane, Marker.lane, restarted_eq, h2, jamReport, Function.comp_def]

/-- Nothing is left for it to begin. -/
theorem restarted_rests (m : Marker) (c : Cfg) : (m.restarted c).ComposeRests ∧ (m.restarted c).StrokeRests := by
  have hplate (p : Plate) : p.restarted.cond ≠ .ready := by
    unfold Plate.restarted
    split
    · exact PlateCond.noConfusion
    · next h => exact fun hr => h (.inr hr)
  refine ⟨.inl rfl, .inr ?_⟩
  cases hc : m.compose with
  | a => simpa [Marker.restarted, Marker.plate, hc] using hplate m.plateA
  | b => simpa [Marker.restarted, Marker.plate, hc] using hplate m.plateB

/-- A warm load at a station with the MARK role alone. -/
theorem warm_mark (h : LoadsWarm s c) (hr : s.cfg.roles = { blend := false, head := false, mark := true, paper := false }) :
    ∃ t : State, exec (.configLoadEnd true) s = .next t ∧ WarmLoaded s t c (s.mark.jams c) ∧ t.mark = s.mark.restarted c := by
  have hw := h.blocks
  have hroles : c.roles = { blend := false, head := false, mark := true, paper := false } := h.2.2.2.2.2.1.trans hr
  have howed : s.head.owedDone = [] := h.2.2.2.2.2.2.2.1
  obtain ⟨hrest1, hrest2⟩ := restarted_rests s.mark c
  let u : State := { s.warmJoins c with
    mark := s.mark.restarted c,
    port := { (s.warmJoins c).port with reports := (s.mark.jams c).foldl addReport (s.warmJoins c).port.reports } }
  have htake : takeMark (s.warmJoins c) .loaded = Eff.mk' (s.mark.restarted c) ((s.mark.jams c).map Act.report) := by
    have hev : (s.warmJoins c).mark.takeEv (s.warmJoins c) .loaded =
        Eff.mk' (s.mark.restarted c) ((s.mark.jams c).map Act.report) := by
      show (s.warmJoins c).mark.loaded (s.warmJoins c).cfg = _
      rw [hw.mark, hw.cfg]
      exact markLoaded s.mark c
    rw [takeMark, hev]
    exact andThen_rests hrest1 hrest2
  have hrole (d : Block) (hd : d = .blend ∨ d = .head ∨ d = .mark) (hne : d ≠ .mark) (v : State) (hv : v.cfg = c) :
      v.blockActive d = false := by
    rcases hd with rfl | rfl | rfl
    · simp [State.blockActive, hv, hroles]
    · simp [State.blockActive, hv, hroles]
    · exact absurd rfl hne
  refine ⟨u.tryTransmit, warmLoad_runs (b := .mark) (t := u) (q := []) h (by decide) hrole
    (job_mark hw.working (by rw [hw.cfg, hroles]) htake (perform_reports _ _)) ⟨hw.cfg, rfl, hw.inv⟩
    (fun _ => ⟨hrest1, hrest2⟩) rfl ?_, warmLoaded_of (t := u) h hw.cfg hw.cfgMem ?_ rfl rfl rfl, tryTransmit_mark u⟩
  · show (s.warmJoins c).head.owedDone = []
    rw [hw.head]
    exact howed
  · show (s.warmJoins c).inv.mark = _ ∧ (s.warmJoins c).inv.table = _ ∧ (s.warmJoins c).inv.retired = _
    rw [hw.inv]
    exact ⟨rfl, rfl, rfl⟩

/-- One at a station with the PAPER role alone leaves the paper unit as it is (R171). -/
theorem warm_paper (h : LoadsWarm s c) (hr : s.cfg.roles = { blend := false, head := false, mark := false, paper := true }) :
    ∃ t : State, exec (.configLoadEnd true) s = .next t ∧ WarmLoaded s t c [] ∧ t.paper = s.paper := by
  have hw := h.blocks
  have hroles : c.roles = { blend := false, head := false, mark := false, paper := true } := h.2.2.2.2.2.1.trans hr
  have howed : s.head.owedDone = [] := h.2.2.2.2.2.2.2.1
  have hrole (d : Block) (hd : d = .blend ∨ d = .head ∨ d = .mark) (_ : d ≠ .paper) (v : State) (hv : v.cfg = c) :
      v.blockActive d = false := by
    rcases hd with rfl | rfl | rfl <;> simp [State.blockActive, hv, hroles]
  refine ⟨(s.warmJoins c).tryTransmit, warmLoad_runs (b := .paper) (t := s.warmJoins c) (q := []) h (by decide) hrole
    (idle_paper rfl) ⟨hw.cfg, rfl, hw.inv⟩ (by simp [hroles]) rfl (by rw [hw.head]; exact howed),
    warmLoaded_of h hw.cfg hw.cfgMem (by rw [hw.inv]; exact ⟨rfl, rfl, rfl⟩) rfl rfl rfl,
    (tryTransmit_paper _).trans hw.paper⟩

end

end Sys2Proof.Machine

/-! ## The end of the join period at the invoice unit and the blend sequencer (O52, R29, R50, R87, R185) -/

namespace Sys2Proof.Machine

/-! ### JOIN again, and the station ACTIVE -/

section
variable {s t : State}

/-- The retry delay queues JOIN again (R184). -/
theorem joinRetry_queues (h : Ready s) (hj : s.start.state = .joining) (hroom : JobRoom s) (ht : s.start.retryT.on = true) :
    exec .joinRetryDelayExpiry s =
      .next (State.tryTransmit ({ s with start := { s.start with retryT := .stopped } }.queues
        (jobFrame 0 s.joinMsg .join))) := by
  have hjoining : s.isJoining = true := beq_iff_eq.2 hj
  have hretry : s.joinRetry = (({ s with start := { s.start with retryT := .stopped } } : State).queues
      (jobFrame 0 s.joinMsg .join), []) := by
    unfold State.joinRetry
    rw [hjoining, ht]
    exact sendFrame_room _ _ (by exact h.1) (by exact hroom)
  refine next_eq ((act_working s _ (canSend_working h.1)).trans ?_)
  rw [hretry, settle_nil _ (by exact h.2)]

/-- The end of the join period leaves the station ACTIVE (R185). -/
theorem joinEnd_active (h : JoinEnds s 1) :
    ∃ t : State, exec .joinPeriodEnd s = .next t ∧ t.start = { s.start with state := .active, joinT := .stopped } ∧
      t.cfg = s.cfg ∧ t.cfgMem = s.cfgMem :=
  ⟨_, execJoinPeriodEnd_tells (k := 0) h, settle_active (x := { s.start with state := .active, joinT := .stopped }) rfl rfl,
    settle_cfg _, settle_cfgMem _⟩

end

/-! ### A station with the BLEND role alone -/

section
variable {s t : State} {q : Jobs}

/-- Its other blocks have no part in the event of the own entry. -/
theorem blender_own {v : State} (hr : v.cfg.roles = { blend := true, head := false, mark := false, paper := false }) :
    ∀ c, c ≠ .start → c ≠ .inv → v.takeJob c (ownPresent s) = (v, []) := by
  intro c hs hi
  cases c with
  | start => exact absurd rfl hs
  | inv => exact absurd rfl hi
  | blend => exact takeJob_blend_own
  | arb => exact takeJob_arb_own
  | head => exact takeJob_no_head _ _ (by rw [hr])
  | mark => exact takeJob_no_mark _ _ (by rw [hr])
  | paper => exact takeJob_no_paper _ _ (by rw [hr])

/-- Nor in the notice, but the blend sequencer. -/
theorem blender_ended {v : State} (hr : v.cfg.roles = { blend := true, head := false, mark := false, paper := false }) :
    ∀ c, c ≠ .start → c ≠ .inv → c ≠ .blend → v.takeJob c .endOfJoin = (v, []) := by
  intro c hs hi hb
  cases c with
  | start => exact absurd rfl hs
  | inv => exact absurd rfl hi
  | blend => exact absurd rfl hb
  | arb => exact idle_arb rfl
  | head => exact takeJob_no_head _ _ (by rw [hr])
  | mark => exact takeJob_no_mark _ _ (by rw [hr])
  | paper => exact takeJob_no_paper _ _ (by rw [hr])

/-- Nor the blend sequencer, without a batch invoice (R87). -/
theorem blender_ended_idle {v : State} (hr : v.cfg.roles = { blend := true, head := false, mark := false, paper := false })
    (hb : v.blend.batchInv = none) : ∀ c, c ≠ .start → c ≠ .inv → v.takeJob c .endOfJoin = (v, []) := by
  intro c hs hi
  by_cases hc : c = .blend
  · subst hc
    have hend : takeBlend v .endOfJoin = Eff.pure v.blend := by
      show v.blend.joinEnded v = _
      simp [Blend.joinEnded, hb]
    exact idle_blend hend
  · exact blender_ended hr c hs hi hc

/-- Only the invoice unit acts, on the event of the own entry and on the notice. -/
theorem blender_joins {k : Nat} {u : State} (h : JoinEnds s (k + 1))
    (hr : s.cfg.roles = { blend := true, head := false, mark := false, paper := false }) (hb : s.blend.batchInv = none)
    (hp : s.joined.takeJob .inv (ownPresent s) = (t, [])) (hj : t.takeJob .inv .endOfJoin = (u, []))
    (ht : t.cfg = s.cfg ∧ t.blend = s.blend) (hu : u.cfg = s.cfg ∧ u.blend = s.blend ∧ u.head = s.head) :
    exec .joinPeriodEnd s = .next u.tryTransmit := by
  obtain ⟨htc, htb⟩ := ht
  obtain ⟨huc, hub, huh⟩ := hu
  rw [← htc] at hr
  have hrs : s.cfg.roles = { blend := true, head := false, mark := false, paper := false } := by rw [← htc]; exact hr
  exact join_both (b := .inv) h (by decide) hp hj (blender_own (by exact hrs)) (blender_own hr)
    (blender_ended_idle hr (by rw [htb]; exact hb)) (blender_ended_idle (by rw [huc]; exact hrs) (by rw [hub]; exact hb))
    (by simp) (by rw [huh]; exact h.1.2)

theorem joined_working {k : Nat} (h : JoinEnds s k) : s.joined.working = true := canSend_working (joined_canSend h)

/-- The invoice unit's answer to the notice. -/
theorem job_joinEnded {r : Eff Inv} (hw : s.working = true) (hb : s.inv.joinEnded s = r) (hph : r.st.phase ≠ .waitFree)
    (hp : ({ s with inv := r.st } : State).perform r.acts = (t, q)) : s.takeJob .inv .endOfJoin = (t, q) := by
  refine job_inv hw ?_ hp
  subst hb
  exact andThen_claimIfFree hph s

/-- Nothing is to be resumed. -/
theorem blender_rests (h : JoinEnds s 1) (hr : s.cfg.roles = { blend := true, head := false, mark := false, paper := false })
    (hn : NothingToResume s.inv) (hb : s.blend.batchInv = none) (ho : OwnCopiesRest s.self s.inv) :
    exec .joinPeriodEnd s = .next s.joined.tryTransmit := by
  have hw := joined_working h
  have hph : s.inv.phase ≠ .waitFree := by rw [hn.2.1]; exact ClaimPhase.noConfusion
  exact blender_joins (k := 0) h hr hb (takeJob_inv_own hw ho hph) (takeJob_inv_rests hw hn) ⟨rfl, rfl⟩ ⟨rfl, rfl, rfl⟩

/-- A STALE copy that records this station as its owner asks (R36). -/
theorem peerPresent_asks {i : Inv} {x : Entry} {n : Nat} (ht : i.table = [x]) (ho : x.own = none) (horph : x.orphan = false)
    (hn : x.data.hdr.owner = n) (hc : x.copy = .stale) (ha : x.askT = .stopped) (s : State) :
    i.peerPresent s n .joining =
      Eff.mk' { i with table := [{ x with askT := .running 500 }] } [.send (jobFrame n (.recordAsk x.num) (.ask x.num))] := by
  have hi : ({ i with table := [x] } : Inv) = i := by rw [← ht]
  simp [Inv.peerPresent, ht, horph, Inv.heldFor, ho, hn, hc, ha, Timer.on, each_one, Inv.askTo, Inv.upd, Config.askTime, Eff.mk', hi]

theorem blender_asks (h : JoinEnds s 2) (hr : s.cfg.roles = { blend := true, head := false, mark := false, paper := false })
    (hn : NothingToResume s.inv) (hb : s.blend.batchInv = none) {x : Entry} (hx : s.inv.table = [x])
    (hown : x.data.hdr.owner = s.self) (hc : x.copy = .stale) (ha : x.askT = .stopped) :
    exec .joinPeriodEnd s =
      .next (State.tryTransmit { s.joined.queues (jobFrame s.self (.recordAsk x.num) (.ask x.num)) with
        inv := { s.inv with table := [{ x with askT := .running 500 }] } }) := by
  have hw := joined_working h
  obtain ⟨hnone, hidle, howed⟩ := hn
  have hph : s.inv.phase ≠ .waitFree := by rw [hidle]; exact ClaimPhase.noConfusion
  have hx' : x.own = none ∧ x.orphan = false := by simpa [NothingOwned, hx] using hnone
  have hroom : JobRoom s.joined := by
    have := joined_room (k := 1) h
    show s.joined.line.txq.length < _
    omega
  have hask := peerPresent_asks hx hx'.1 hx'.2 hown hc ha s.joined
  have hp := job_inv (e := ownPresent s) hw (takeInv_peer hask hph)
    (perform_job _ s.self (.recordAsk x.num) (.ask x.num) (joined_canSend h) (by exact hroom))
  refine blender_joins (k := 1) h hr hb hp (takeJob_inv_rests hw ⟨?_, hidle, howed⟩) ⟨rfl, rfl⟩ ⟨rfl, rfl, rfl⟩
  show [{ x with askT := .running 500 }].all (fun e => e.own.isNone && !e.orphan) = true
  simp [hx'.1, hx'.2]

/-- The WITHDRAWs owed go out in the order of their list. -/
theorem blender_withdraws {l : List Nat} (h : JoinEnds s (l.length + 1))
    (hr : s.cfg.roles = { blend := true, head := false, mark := false, paper := false }) (hn : NothingOwned s.inv)
    (ho : OwnCopiesRest s.self s.inv) (hidle : s.inv.phase = .idle) (hl : s.inv.withdrawOwed = l)
    (hb : s.blend.batchInv = none) :
    exec .joinPeriodEnd s =
      .next (State.tryTransmit { s.joined with
        line := { s.joined.line with
          txq := s.joined.line.txq ++ l.map (fun n => jobFrame 0 (.withdraw n) .withdraw) },
        inv := { s.inv with withdrawOwed := [] } }) := by
  have hw := joined_working h
  have hph : s.inv.phase ≠ .waitFree := by rw [hidle]; exact ClaimPhase.noConfusion
  have hend : s.joined.inv.joinEnded s.joined = Eff.mk' { s.inv with withdrawOwed := [] }
      ((l.map (fun n => jobFrame 0 (.withdraw n) .withdraw)).map Act.send) := by
    rw [joinEnded_nothing_owned s.joined (by exact hn)]
    simp [Eff.andThen, Eff.mk', hidle, Eff.pure, hl, Function.comp_def]
  refine blender_joins h hr hb (takeJob_inv_own hw ho hph) (job_joinEnded hw hend hph
    (perform_jobs _ { s.joined with inv := { s.inv with withdrawOwed := [] } } (joined_canSend h) ?_ ?_)) ⟨rfl, rfl⟩ ⟨rfl, rfl, rfl⟩
  · intro f hf
    obtain ⟨n, _, rfl⟩ := List.mem_map.1 hf
    exact job_places _ _ _
  · rw [List.length_map]
    exact joined_room h

/-- A held request is claimed (R29). -/
theorem blender_claims {q : ClaimReq} {n : Nat} (h : JoinEnds s 2)
    (hr : s.cfg.roles = { blend := true, head := false, mark := false, paper := false }) (hn : NothingOwned s.inv)
    (ho : OwnCopiesRest s.self s.inv) (hl : s.inv.withdrawOwed = []) (hb : s.blend.batchInv = none)
    (hp : s.inv.phase = .waitActive) (hq : s.inv.req = some q) (hf : s.inv.full = false) (hlast : s.inv.mark < s.cfg.last)
    (hmark : n = s.inv.mark + 1) :
    ∃ (i : Inv) (e : Entry), exec .joinPeriodEnd s =
        .next (State.tryTransmit { s.joined.queues (jobFrame 0 (.claim
          { inv := n, order := q.order, grade := q.grade, garden := q.garden, net := q.charged }) (.claim n)) with
          inv := i }) ∧
      i = { s.inv with mark := n, phase := .queued n false [], table := s.inv.table ++ [e] } ∧
      e.num = n ∧ e.own.isSome = true ∧ e.data.hdr.state = .claimed := by
  subst hmark
  have hw := joined_working h
  have hph : s.inv.phase ≠ .waitFree := by rw [hp]; exact ClaimPhase.noConfusion
  have hroom : JobRoom s.joined := by
    have := joined_room (k := 1) h
    show s.joined.line.txq.length < _
    omega
  have hi : ({ s.inv with withdrawOwed := [] } : Inv) = s.inv := by rw [← hl]
  have htry : s.inv.tryClaim s.joined = s.inv.claim s.joined q := by
    have hact : s.joined.isActive = true := rfl
    have hm : ¬ s.cfg.last ≤ s.inv.mark := Nat.not_le.2 hlast
    simp [Inv.tryClaim, hq, hact, hf, hm]
  have hend : s.joined.inv.joinEnded s.joined = s.inv.claim s.joined q := by
    rw [joinEnded_nothing_owned s.joined (by exact hn), joined_inv, hl, hi, ← htry]
    simp [Eff.andThen, Eff.mk', hp]
  refine ⟨_, _, blender_joins (k := 1) h hr hb (takeJob_inv_own hw ho hph) (job_joinEnded hw hend ClaimPhase.noConfusion
    (perform_job _ _ _ _ (joined_canSend h) (by exact hroom))) ⟨rfl, rfl⟩ ⟨rfl, rfl, rfl⟩, rfl, rfl, rfl, rfl⟩

end

/-! ### A batch DISCHARGING (R87) -/

section
variable {s t t1 t2 : State} {b c : Block} {e : Ev} {q : Jobs}

/-- Two jobs of a row that act, one after the other. -/
theorem drain_pair {m : Nat} {l k p r w : Jobs} {e' : Ev} (h1 : s.takeJob b e = (t1, r)) (h2 : t1.takeJob c e' = (t, w))
    (i1 : ∀ j ∈ l, s.takeJob j.1 j.2 = (s, [])) (i2 : ∀ j ∈ k, t1.takeJob j.1 j.2 = (t1, []))
    (i3 : ∀ j ∈ p, t.takeJob j.1 j.2 = (t, [])) :
    drain (m + p.length + 1 + k.length + 1 + l.length) s (l ++ (b, e) :: (k ++ (c, e') :: p)) = drain m t (r ++ w) := by
  rw [drain_idle_first _ l _ i1, drain_cons _ _ h1, List.append_assoc, drain_idle_first _ k _ i2, List.cons_append,
    drain_cons _ _ h2, List.append_assoc, drain_idle_first _ p _ i3]

/-- A row of every block in which two act, in either order, the second alone raising jobs. -/
theorem drain_either_then {m : Nat} (u : State) (hb : b ≠ .start) (hc : c ≠ .start) (hne : b ≠ c)
    (h1 : s.takeJob b e = (t1, [])) (h2 : t1.takeJob c e = (t, q)) (g1 : s.takeJob c e = (t2, q))
    (g2 : t2.takeJob b e = (t, []))
    (idle : ∀ d, d ≠ .start → d ≠ b → d ≠ c → ∀ v : State, v = s ∨ v = t1 ∨ v = t2 ∨ v = t → v.takeJob d e = (v, [])) :
    drain (m + 6) s (u.blockOrder.map (fun d => (d, e))) = drain m t q := by
  have rest (w : List Block) (hw : ∀ d ∈ w, d ≠ .start ∧ d ≠ b ∧ d ≠ c) (v : State)
      (hv : v = s ∨ v = t1 ∨ v = t2 ∨ v = t) : ∀ j ∈ w.map (fun d => (d, e)), v.takeJob j.1 j.2 = (v, []) := by
    intro j hj
    obtain ⟨d, hd, rfl⟩ := List.mem_map.1 hj
    obtain ⟨hds, hdb, hdc⟩ := hw d hd
    exact idle d hds hdb hdc v hv
  obtain ⟨l, p, hl, hlen, hm⟩ := blockOrder_split u hb
  have hnd := blockOrder_nodup u
  have hmem : c ∈ l ∨ c ∈ p := by
    have := (mem_blockOrder u c).2 hc
    rw [hl] at this
    simpa [Ne.symm hne] using this
  rw [hl] at hnd
  obtain ⟨hnl, hnbp, hdisj⟩ := List.nodup_append.1 hnd
  obtain ⟨hbp, hnp⟩ := List.nodup_cons.1 hnbp
  rcases hmem with hcl | hcp
  · obtain ⟨l1, l2, rfl⟩ := List.append_of_mem hcl
    have hother (d : Block) (hd : d ∈ l1 ∨ d ∈ l2 ∨ d ∈ p) : d ≠ .start ∧ d ≠ b ∧ d ≠ c := by
      obtain ⟨hn1, hn2, hd12⟩ := List.nodup_append.1 hnl
      refine ⟨?_, ?_, ?_⟩
      · exact (hm d (by simp only [List.mem_append, List.mem_cons]; tauto)).1
      · exact (hm d (by simp only [List.mem_append, List.mem_cons]; tauto)).2
      · rintro rfl
        rcases hd with hd | hd | hd
        · exact hd12 d hd d (by simp) rfl
        · exact (List.nodup_cons.1 hn2).1 hd
        · exact hdisj d (by simp) d (List.mem_cons_of_mem _ hd) rfl
    have hfuel : m + 6 = m + (p.map (fun d => (d, e))).length + 1 + (l2.map (fun d => (d, e))).length + 1 +
        (l1.map (fun d => (d, e))).length := by
      simp only [List.length_append, List.length_cons] at hlen
      simp only [List.length_map]
      omega
    rw [hl, hfuel]
    simp only [List.map_append, List.map_cons, List.append_assoc, List.cons_append]
    rw [drain_pair g1 g2 (rest l1 (fun d hd => hother d (.inl hd)) _ (.inl rfl))
      (rest l2 (fun d hd => hother d (.inr (.inl hd))) _ (.inr (.inr (.inl rfl))))
      (rest p (fun d hd => hother d (.inr (.inr hd))) _ (.inr (.inr (.inr rfl)))), List.append_nil]
  · obtain ⟨p1, p2, rfl⟩ := List.append_of_mem hcp
    have hother (d : Block) (hd : d ∈ l ∨ d ∈ p1 ∨ d ∈ p2) : d ≠ .start ∧ d ≠ b ∧ d ≠ c := by
      obtain ⟨hn1, hn2, hd12⟩ := List.nodup_append.1 hnp
      refine ⟨?_, ?_, ?_⟩
      · exact (hm d (by simp only [List.mem_append, List.mem_cons]; tauto)).1
      · exact (hm d (by simp only [List.mem_append, List.mem_cons]; tauto)).2
      · rintro rfl
        rcases hd with hd | hd | hd
        · exact hdisj d hd d (by simp) rfl
        · exact hd12 d hd d (by simp) rfl
        · exact (List.nodup_cons.1 hn2).1 hd
    have hfuel : m + 6 = m + (p2.map (fun d => (d, e))).length + 1 + (p1.map (fun d => (d, e))).length + 1 +
        (l.map (fun d => (d, e))).length := by
      simp only [List.length_append, List.length_cons] at hlen
      simp only [List.length_map]
      omega
    rw [hl, hfuel]
    simp only [List.map_append, List.map_cons]
    rw [drain_pair h1 h2 (rest l (fun d hd => hother d (.inl hd)) _ (.inl rfl))
      (rest p1 (fun d hd => hother d (.inr (.inl hd))) _ (.inr (.inl rfl)))
      (rest p2 (fun d hd => hother d (.inr (.inr hd))) _ (.inr (.inr (.inr rfl)))), List.nil_append]

end

section
variable {s : State} {n : Nat} {x : Entry} {o : OwnerRec} {h : Header}

/-- HEADER(RESUMED) of an OPEN invoice without a conflict (R47, R185). -/
theorem resume_opened {i : Inv} (ho : i.owned n = some o) (hc : o.conflicts = []) (ht : o.settle = .stopped)
    (hd : o.resendDelay = .stopped) (hs : o.view.hdr.state = .opened) (hv : o.issued < Config.maxVersion)
    (hh : h = { o.view.hdr with owner := s.self, version := o.issued + 1 }) :
    i.resume s n =
      Eff.mk' (i.updOwn n (fun y => { y with issued := o.issued + 1, view := { o.view with hdr := h } }))
        [.send (jobFrame 0 (headerMsg h true none) (.versioned n (o.issued + 1)))] := by
  subst hh
  have hconf : i.settleConflicts s n = Eff.pure i := by simp [Inv.settleConflicts, ho, hc]
  have hissue := issue_next ho hd hv (fun r => { r with hdr := { r.hdr with owner := s.self } })
    (fun r => headerMsg r.hdr true none)
  have hown := owned_updOwn i n (fun y => { y with
    issued := o.issued + 1,
    view := ({ o.view with hdr := { o.view.hdr with owner := s.self } } : Rec).atVersion (o.issued + 1) })
  rw [ho] at hown
  have hne : o.view.hdr.state ≠ .ending := by rw [hs]; exact InvState.noConfusion
  have hnm : o.view.hdr.state ≠ .marking := by rw [hs]; exact InvState.noConfusion
  have htests := conclude_not_ending hown (by exact hne)
  have hclose := closeTest_not_marking hown (by exact hnm)
  unfold Inv.resume
  rw [hconf, pure_andThen, hissue]
  simp only [Eff.andThen, Eff.mk', hown, Option.map_some, ht, Timer.on, Bool.false_eq_true, if_false, Inv.tests, htests,
    Eff.pure, hclose, List.append_nil]
  rfl

/-- The invoice of a batch DISCHARGING is resumed, and discharge begins again (R87). -/
theorem blender_resumes (hr : s.cfg.roles = { blend := true, head := false, mark := false, paper := false })
    (hj : JoinEnds s 2) (hidle : s.inv.phase = .idle) (hl : s.inv.withdrawOwed = []) (ht : s.inv.table = [x])
    (hn : x.num = n) (hx : x.own = some o) (hc : o.conflicts = []) (hset : o.settle = .stopped)
    (hd : o.resendDelay = .stopped) (hs : o.view.hdr.state = .opened) (hv : o.issued < Config.maxVersion)
    (hb : s.blend.batchInv = some n) (hst : s.blend.state = .discharging) (hstop : s.blend.stop = none)
    (hq : s.arb.queue = [])
    (hh : h = { o.view.hdr with owner := s.self, version := o.issued + 1 }) :
    ∃ t : State, exec .joinPeriodEnd s = .next t ∧
      t.arb = { s.arb with openFlag := true, batch := some n } ∧ t.blend = s.blend ∧ t.start = s.joined.start ∧
      t.line.txq = s.joined.line.txq ++ [jobFrame 0 (headerMsg h true none) (.versioned n (o.issued + 1))] ∧
      t.inv.owned n = some { o with issued := o.issued + 1, view := { o.view with hdr := h } } := by
  subst hn
  have hw := joined_working hj
  have hown := owned_only ht hx
  let i : Inv := s.inv.updOwn x.num (fun y => { y with issued := o.issued + 1, view := { o.view with hdr := h } })
  have hiown : i.owned x.num = some { o with issued := o.issued + 1, view := { o.view with hdr := h } } :=
    (owned_updOwn s.inv x.num _).trans (by rw [hown]; rfl)
  have hroom : JobRoom s.joined := by
    have := joined_room (k := 1) hj
    show s.joined.line.txq.length < _
    omega
  have hi : ({ s.inv with withdrawOwed := [] } : Inv) = s.inv := by rw [← hl]
  have hend (v : State) (hvi : v.inv = s.inv) (hself : v.self = s.self) : v.inv.joinEnded v =
      Eff.mk' i [.send (jobFrame 0 (headerMsg h true none) (.versioned x.num (o.issued + 1)))] := by
    rw [hvi, joinEnded_one_owned v ht hx, hl, hi,
      show Eff.mk' s.inv (([] : List Nat).map (fun n => Act.send (jobFrame 0 (.withdraw n) .withdraw))) = Eff.pure s.inv from
        rfl, pure_andThen, resume_opened (s := v) (h := h) hown hc hset hd hs hv (by rw [hself]; exact hh)]
    have hphase : i.phase = .idle := hidle
    change (Eff.mk' i _).andThen _ = _
    simp [Eff.andThen, Eff.mk', hphase, Eff.pure]
  let b : State := { s.joined.queues (jobFrame 0 (headerMsg h true none) (.versioned x.num (o.issued + 1))) with inv := i }
  let q : Jobs := [(.arb, .dischargeBegun x.num)]
  have hblend (v : State) (hvw : v.working = true) (hvr : v.cfg.roles.blend = true) (hvb : v.blend = s.blend)
      (hvo : (v.inv.owned x.num).isSome = true) : v.takeJob .blend .endOfJoin = (v, q) := by
    have htake : takeBlend v .endOfJoin = Eff.mk' v.blend [.post .arb (.dischargeBegun x.num)] := by
      show v.blend.joinEnded v = _
      rw [hvb]
      simp [Blend.joinEnded, hb, hst, hstop, hvo]
    exact job_blend hvw hvr htake rfl
  have hinv : s.joined.takeJob .inv .endOfJoin = (b, []) :=
    job_joinEnded hw (hend s.joined rfl rfl) (by show s.inv.phase ≠ .waitFree; rw [hidle]; exact ClaimPhase.noConfusion)
      (perform_job _ _ _ _ (joined_canSend hj) (by exact hroom))
  have hroles : s.cfg.roles.blend = true := by rw [hr]
  have hstart : s.joined.takeJob .blend .endOfJoin = (s.joined, q) :=
    hblend _ hw hroles rfl (by rw [joined_inv, hown]; rfl)
  have hafter : b.takeJob .blend .endOfJoin = (b, q) := hblend b hw hroles rfl (by show (i.owned x.num).isSome = true; rw [hiown]; rfl)
  have harb : b.takeJob .arb (.dischargeBegun x.num) =
      ({ b with arb := { s.arb with openFlag := true, batch := some x.num } }, []) := by
    refine job_arb (r := Eff.pure { s.arb with openFlag := true, batch := some x.num }) hw hroles ?_ rfl
    exact fill_empty (a := { s.arb with openFlag := true, batch := some x.num }) hq _
  have hrow := drain_either_then (m := 4084) (e := .endOfJoin) s.usedChoice (by decide) (by decide) (by decide) hinv hafter
    hstart hinv (fun d hds hdi hdb v hv => by
      refine blender_ended ?_ d hds hdi hdb
      rcases hv with rfl | rfl | rfl | rfl
      · exact hr
      · exact hr
      · exact hr
      · exact hr)
  have hlen : (s.blockOrder.map (fun d => (d, ownPresent s))).length = 6 := by
    rw [List.length_map, (blockOrder_perm _).length_eq]
    rfl
  have hpresent : ∀ j ∈ s.blockOrder.map (fun d => (d, ownPresent s)), s.joined.takeJob j.1 j.2 = (s.joined, []) := by
    intro j hj'
    obtain ⟨d, hd', rfl⟩ := List.mem_map.1 hj'
    have hds := (mem_blockOrder _ d).1 hd'
    by_cases hdi : d = .inv
    · subst hdi
      exact takeJob_inv_own hw (ownCopiesRest_owned ht hx)
        (by show s.inv.phase ≠ .waitFree; rw [hidle]; exact ClaimPhase.noConfusion)
    · exact blender_own (v := s.joined) (by exact hr) d hds hdi
  have hall := drain_idle_first (s.usedChoice.blockOrder.map (fun d => (d, Ev.endOfJoin))) _ 4090 hpresent
  rw [hlen] at hall
  have hdrain := (hall.trans hrow).trans (drain_job (n := 4083) harb rfl)
  refine ⟨_, (execJoinPeriodEnd_tells (k := 1) hj).trans (next_eq (settle_drain hdrain (by exact hj.1.2))), ?_⟩
  refine ⟨tryTransmit_arb _, tryTransmit_blend _, tryTransmit_start _, tryTransmit_txq _, ?_⟩
  rw [tryTransmit_inv]
  exact hiown

end

end Sys2Proof.Machine

/-! ## The end of the join period at a station of one block, and the head controller (O52, R22, R119, R123) -/

namespace Sys2Proof.Machine

/-- The blocks of the station but the start unit and the invoice unit: `b` alone. -/
abbrev Lone (s : State) (b : Block) : Prop :=
  b ≠ .start ∧ b ≠ .inv ∧ ∀ c, c ≠ .start → c ≠ .inv → c ≠ b → s.blockActive c = false

/-- Nothing but a block's own state and the line differs, and nothing is owed. -/
abbrev OneMoved (s t : State) : Prop :=
  t.inv = s.inv ∧ t.cfg = s.cfg ∧ t.start = s.start ∧ t.head.owedDone = []

section
variable {s t u v : State} {b : Block} {e : Ev}

theorem blockActive_congr (h : t.cfg = s.cfg) (c : Block) : t.blockActive c = s.blockActive c := by
  cases c <;> simp [State.blockActive, h]

/-- Where the invoice unit is idle, so is every other block. -/
theorem lone_idle (hl : Lone s b) (hc : t.cfg = s.cfg) (hi : t.takeJob .inv e = (t, [])) :
    ∀ c, c ≠ .start → c ≠ b → t.takeJob c e = (t, []) := by
  intro c hs hb
  by_cases hci : c = .inv
  · subst hci
    exact hi
  · exact takeJob_no_role e ((blockActive_congr hc c).trans (hl.2.2 c hs hci hb))

/-- The end of the join period at a station with one block that may act on it. -/
theorem lone_joins (h : JoinEnds s 2) (hl : Lone s b) (hn : NothingToResume s.inv) (ho : OwnCopiesRest s.self s.inv)
    (hp : s.joined.takeJob b (ownPresent s) = (t, [])) (hj : t.takeJob b .endOfJoin = (u, []))
    (ht : OneMoved s.joined t) (hu : OneMoved s.joined u) : exec .joinPeriodEnd s = .next u.tryTransmit := by
  have hw := joined_working h
  have hph : s.inv.phase ≠ .waitFree := by rw [hn.2.1]; exact ClaimPhase.noConfusion
  have working {v : State} (hv : OneMoved s.joined v) : v.working = true := by
    obtain ⟨_, _, hvs, _⟩ := hv
    unfold State.working
    rw [hvs]
    exact hw
  have own {v : State} (hv : OneMoved s.joined v) : v.takeJob .inv (ownPresent s) = (v, []) := by
    obtain ⟨hvi, _⟩ := id hv
    exact takeJob_inv_own (working hv) (by rw [hvi]; exact ho) (by rw [hvi]; exact hph)
  have ended {v : State} (hv : OneMoved s.joined v) : v.takeJob .inv .endOfJoin = (v, []) := by
    obtain ⟨hvi, _⟩ := id hv
    exact takeJob_inv_rests (working hv) (by rw [hvi]; exact hn)
  have h0 : OneMoved s.joined s.joined := ⟨rfl, rfl, rfl, h.1.2⟩
  exact join_both (k := 1) h hl.1 hp hj (lone_idle hl rfl (own h0)) (lone_idle hl ht.2.1 (own ht))
    (lone_idle hl ht.2.1 (ended ht)) (lone_idle hl hu.2.1 (ended hu)) (by simp) hu.2.2.2

end

/-! ### The head controller opens its report again -/

section
variable {s : State} {c : ChestNow} {n : Nat}

theorem head_lone (hr : s.cfg.roles = { blend := false, head := true, mark := false, paper := false }) : Lone s .head := by
  refine ⟨by decide, by decide, fun c hs hi hc => ?_⟩
  cases c with
  | start => exact absurd rfl hs
  | inv => exact absurd rfl hi
  | head => exact absurd rfl hc
  | blend => simp [State.blockActive, hr]
  | arb => simp [State.blockActive, hr]
  | mark => simp [State.blockActive, hr]
  | paper => simp [State.blockActive, hr]

/-- The event of the own entry opens the frame of a head that waits for this station as the owner (R119, R155). -/
theorem takePeer_own {g : Head} {v : State} (hst : g.state ≠ .waiting) :
    g.takePeer v v.self .joining .present .other = if g.waitOwner && g.ownerIs v v.self then g.reopen v else Eff.pure g := by
  have hne : (g.state == .waiting) = false := beq_eq_false_iff_ne.2 hst
  unfold Head.takePeer
  simp [hne, pure_andThen]

/-- A head that waits for the end of the join period opens its frame again, once (R119, R123, R185). -/
theorem head_reopens {g : Head} {k : ExKey} {m : Msg} {d p : Nat} {patient : Bool}
    (hr : s.cfg.roles = { blend := false, head := true, mark := false, paper := false }) (h : JoinEnds s 2)
    (hn : NothingToResume s.inv) (ho : OwnCopiesRest s.self s.inv) (hjoin : s.head.waitJoin = true)
    (hst : s.head.state ≠ .waiting) (hex : ExRoom s k) (hgw : g.waitJoin = false) (hgo : g.owedDone = s.head.owedDone)
    (hre : ∀ w : Bool, ({ s.head with waitJoin := w } : Head).reopen s.joined = Eff.mk' g [.openEx k m d p patient]) :
    exec .joinPeriodEnd s = .next (State.tryTransmit { s.joined.opens k m d p patient with head := g }) := by
  have hw := joined_working h
  have hrole : s.cfg.roles.head = true := by rw [hr]
  have hroom : ExRoom s.joined k := by
    refine ⟨?_, hex.2⟩
    have := joined_room (k := 1) h
    show s.joined.line.txq.length < _
    omega
  have hperf : ({ s.joined with head := g } : State).perform [.openEx k m d p patient] =
      ({ s.joined.opens k m d p patient with head := g }, []) :=
    perform_open { s.joined with head := g } k m d p patient (joined_canSend h) (by exact hroom)
  have hmoved : OneMoved s.joined { s.joined.opens k m d p patient with head := g } :=
    ⟨rfl, rfl, rfl, hgo.trans h.1.2⟩
  have hown : takeHead s.joined (ownPresent s) =
      if s.head.waitOwner && s.head.ownerIs s.joined s.self then s.head.reopen s.joined else Eff.pure s.head :=
    takePeer_own (v := s.joined) hst
  have hsame : ({ s.head with waitJoin := true } : Head) = s.head := by rw [← hjoin]
  by_cases howner : (s.head.waitOwner && s.head.ownerIs s.joined s.self) = true
  · rw [if_pos howner, ← hsame, hre] at hown
    refine lone_joins h (head_lone hr) hn ho (job_head hw hrole hown hperf) (idle_head ?_) hmoved hmoved
    show (if g.waitJoin then _ else _) = _
    rw [hgw]
    rfl
  · rw [if_neg howner] at hown
    refine lone_joins h (head_lone hr) hn ho (idle_head hown)
      (job_head (r := Eff.mk' g [.openEx k m d p patient]) hw hrole ?_ hperf) ⟨rfl, rfl, rfl, h.1.2⟩ hmoved
    show (if s.head.waitJoin then _ else _) = _
    rw [if_pos hjoin]
    exact hre false

theorem head_reports {g w : Nat} {k : ChestClass}
    (hr : s.cfg.roles = { blend := false, head := true, mark := false, paper := false }) (h : JoinEnds s 2)
    (hn : NothingToResume s.inv) (ho : OwnCopiesRest s.self s.inv) (hjoin : s.head.waitJoin = true)
    (hc : s.head.chest = some c) (hi : c.inv = some n) (hst : s.head.state = .reported) (hg : c.gross = some g)
    (hnet : c.net = some w) (hk : c.cls = some k) (hex : ExRoom s (.chestDone n c.token)) :
    exec .joinPeriodEnd s =
      .next (State.tryTransmit { s.joined.opens (.chestDone n c.token)
          (.chestDone { inv := n, token := c.token, gross := g, tare := c.tare, net := w, topups := c.topups, cls := k,
                        flightLong := c.flightLong })
          (s.reportTo n) (s.reportTo n) (k == .short) with
        head := { s.head with cause := none, sendFrame := none, waitOwner := false, waitJoin := false } }) := by
  refine head_reopens hr h hn ho hjoin (by rw [hst]; decide) hex rfl rfl (fun b => ?_)
  simp only [Head.reopen, hst, Head.openReport, hc, hi, hg, hnet, hk, Option.getD_some]
  rfl

theorem head_voids {w : Nat} (hr : s.cfg.roles = { blend := false, head := true, mark := false, paper := false })
    (h : JoinEnds s 2) (hn : NothingToResume s.inv) (ho : OwnCopiesRest s.self s.inv) (hjoin : s.head.waitJoin = true)
    (hc : s.head.chest = some c) (hi : c.inv = some n) (hst : s.head.state = .voiding) (hok : s.head.voidOk = false)
    (hv : c.voided = some w) (hex : ExRoom s (.fillVoid n c.token)) :
    exec .joinPeriodEnd s =
      .next (State.tryTransmit { s.joined.opens (.fillVoid n c.token)
          (.fillVoid { inv := n, token := c.token, net := w }) (s.reportTo n) (s.reportTo n) false with
        head := { s.head with
          lease := .none, cause := none, sendFrame := none, refusedVoid := false, waitOwner := false,
          waitJoin := false } }) := by
  have hcv : ({ c with inv := some n, voided := some w } : ChestNow) = c := by rw [← hv, ← hi]
  refine head_reopens hr h hn ho hjoin (by rw [hst]; decide) hex rfl rfl (fun b => ?_)
  simp [Head.reopen, hst, hok, Head.openVoidAgain, hc, Head.chestInv, hi, hv, Head.openVoid, Head.setChest, hcv, Eff.mk']
  rfl

end

end Sys2Proof.Machine

/-! ## The end of the join period at the marker (O52, R154, R155, R185) -/

namespace Sys2Proof.Machine

theorem mark_lone {s : State} (hr : s.cfg.roles = { blend := false, head := false, mark := true, paper := false }) :
    Lone s .mark := by
  refine ⟨by decide, by decide, fun c hs hi hc => ?_⟩
  cases c with
  | start => exact absurd rfl hs
  | inv => exact absurd rfl hi
  | mark => exact absurd rfl hc
  | blend => simp [State.blockActive, hr]
  | arb => simp [State.blockActive, hr]
  | head => simp [State.blockActive, hr]
  | paper => simp [State.blockActive, hr]

theorem idle_mark {s : State} {e : Ev} (h : takeMark s e = Eff.pure s.mark) : s.takeJob .mark e = (s, []) := by
  unfold State.takeJob
  split
  · simp only [State.runMark, h]; rfl
  · rfl

@[simp] theorem setLane_loose (m : Marker) (k : Nat) (f : Lane → Lane) : (m.setLane k f).loose = m.loose := by
  rw [setLane_eq]

/-! ### Mark reports opened again (R154) -/

section
variable {s : State} {m : Marker} {p : LaneEntry → Bool} {q : LooseReport → Bool}

/-- The PRINTED entries of a lane that fit. -/
abbrev Marker.hits (m : Marker) (p : LaneEntry → Bool) (k : Nat) : List LaneEntry :=
  (m.lane k).queue.filter (fun e => e.state == .printed && p e)

/-- The entries of one lane, opened again. -/
abbrev Marker.reopenLane (s : State) (p : LaneEntry → Bool) (k : Nat) (m : Marker) : Eff Marker :=
  Eff.each (fun e (m : Marker) => m.openEntry s k e) (m.hits p k) m

theorem reopenLane_none {k : Nat} (h : m.hits p k = []) : m.reopenLane s p k = Eff.pure m := by
  rw [Marker.reopenLane, h]
  rfl

theorem reopenLanes_none {l : List Nat} (h : ∀ j ∈ l, m.hits p j = []) :
    Eff.each (Marker.reopenLane s p) l m = Eff.pure m := by
  induction l with
  | nil => rfl
  | cons j l ih =>
    rw [List.forall_mem_cons] at h
    rw [Eff.each, reopenLane_none h.1, pure_andThen, ih h.2]

theorem reopen_eq : m.reopen s p q =
    (Eff.each (Marker.reopenLane s p) s.cfg.lanes m).andThen (fun m =>
      Eff.each (fun (r : LooseReport) (m : Marker) => m.openLoose s r.inv r.ordinal r.source) (m.loose.filter q) m) := rfl

theorem reopen_nothing (h : ∀ j ∈ s.cfg.lanes, m.hits p j = []) (hl : m.loose.filter q = []) :
    m.reopen s p q = Eff.pure m := by
  rw [reopen_eq, reopenLanes_none h, pure_andThen, hl]
  rfl

theorem reopen_entry {k : Nat} {x : LaneEntry} (hk : k ∈ s.cfg.lanes) (hx : m.hits p k = [x])
    (h : ∀ j ∈ s.cfg.lanes, j ≠ k → m.hits p j = []) (hl : m.loose.filter q = []) :
    m.reopen s p q = m.openEntry s k x := by
  have hone : m.reopenLane s p k = m.openEntry s k x := by rw [Marker.reopenLane, hx, each_one]
  have hlanes : Eff.each (Marker.reopenLane s p) s.cfg.lanes m = m.openEntry s k x := by
    refine each_only hk (nodup_lanes _) hone (fun j hj hne => ⟨reopenLane_none (h j hj hne), reopenLane_none ?_⟩)
    have hsame := lane_setLane_ne (m := m) (lane_one_or_two hj) (lane_one_or_two hk) hne
      (fun l => l.upd x.inv x.ordinal (fun y => { y with answer := .none, waits := .nothing }))
    exact (congrArg (fun l : Lane => l.queue.filter _) hsame).trans (h j hj hne)
  have hloose : (m.openEntry s k x).st.loose.filter q = [] := by
    have hm : ∀ l : Marker, (l.looseReplaced x.inv x.ordinal).loose.filter q =
        (l.loose.filter q).filter (fun r => !r.inFlight x.inv x.ordinal) := fun l => List.filter_comm ..
    refine (hm _).trans ?_
    rw [setLane_loose, hl]
    rfl
  rw [reopen_eq, hlanes, Eff.andThen, hloose]
  simp [Eff.each, Eff.pure]

theorem reopen_loose {r : LooseReport} (h : ∀ j ∈ s.cfg.lanes, m.hits p j = []) (hl : m.loose.filter q = [r]) :
    m.reopen s p q = m.openLoose s r.inv r.ordinal r.source := by
  rw [reopen_eq, reopenLanes_none h, pure_andThen, hl, each_one]

/-- The mark report of an entry is opened. -/
theorem openEntry_eq {k : Nat} {x : LaneEntry} : m.openEntry s k x =
    Eff.mk' ((m.setLane k (fun l => l.upd x.inv x.ordinal (fun y => { y with answer := .none, waits := .nothing }))).looseReplaced
        x.inv x.ordinal)
      [.openEx (.markDone x.inv x.ordinal)
        (.markDone { inv := x.inv, ordinal := x.ordinal, how := x.how.getD .printed, marker := s.self })
        (s.markTo x.inv x.source) (s.markTo x.inv x.source) false] := rfl

/-- A report with no entry that has somewhere to go is opened. -/
theorem openLoose_eq {r : LooseReport} (h : r.source.isSome = true ∨ (s.inv.find r.inv).isSome = true) :
    m.openLoose s r.inv r.ordinal r.source =
      Eff.mk' { m with
          loose := m.loose.filter (fun y => !(y.inv == r.inv && y.ordinal == r.ordinal)) ++
            if m.printedOf s.cfg r.inv r.ordinal = [] then [{ r with waits := .nothing }] else [] }
        [.openEx (.markDone r.inv r.ordinal)
          (.markDone { inv := r.inv, ordinal := r.ordinal, how := .hand, marker := s.self })
          (s.markTo r.inv (r.source.getD 0)) (s.markTo r.inv (r.source.getD 0)) false] := by
  have hto : (r.source.isNone && (s.inv.find r.inv).isNone) = false := by
    rcases h with h | h
    · simp [Option.isNone_eq_false_iff.2 h]
    · simp [Option.isNone_eq_false_iff.2 h]
  unfold Marker.openLoose
  simp only [hto, Bool.false_eq_true, if_false, List.isEmpty_iff]
  rfl

end

/-! ### What waits for the event of the own entry and what for the notice -/

section
variable {s : State}

/-- A report that waits for the return of this station as its owner. -/
abbrev State.ownerWaits (s : State) (e : LaneEntry) : Bool := e.waits == .owner && s.markTo e.inv e.source == s.self

abbrev State.ownerWaitsLoose (s : State) (r : LooseReport) : Bool :=
  r.waits == .owner && s.markTo r.inv (r.source.getD 0) == s.self

/-- A report that waits for the end of the join period. -/
abbrev endWaits (e : LaneEntry) : Bool := e.waits == .endOfJoin

abbrev endWaitsLoose (r : LooseReport) : Bool := r.waits == .endOfJoin

theorem waits_ne : (Waits.nothing == Waits.owner) = false ∧ (Waits.nothing == Waits.endOfJoin) = false ∧
    (Waits.owner == Waits.endOfJoin) = false ∧ (Waits.endOfJoin == Waits.owner) = false := by decide

theorem filter_owner (s : State) (l : List LaneEntry) : l.filter (fun e => e.state == .printed && s.ownerWaits e) =
    (l.filter s.joinReopens).filter (fun e => e.waits == .owner) := by
  rw [List.filter_filter]
  congr 1
  funext e
  cases hw : e.waits <;> simp [waits_ne, State.joinReopens, State.ownerWaits, hw]

theorem filter_ended (s : State) (l : List LaneEntry) : l.filter (fun e => e.state == .printed && endWaits e) =
    (l.filter s.joinReopens).filter endWaits := by
  rw [List.filter_filter]
  congr 1
  funext e
  cases hw : e.waits <;> simp [waits_ne, State.joinReopens, endWaits, hw]

theorem filter_ownerLoose (s : State) (l : List LooseReport) : l.filter s.ownerWaitsLoose =
    (l.filter s.joinReopensLoose).filter (fun r => r.waits == .owner) := by
  rw [List.filter_filter]
  congr 1
  funext r
  cases hw : r.waits <;> simp [waits_ne, State.joinReopensLoose, State.ownerWaitsLoose, hw]

theorem filter_endedLoose (s : State) (l : List LooseReport) : l.filter endWaitsLoose =
    (l.filter s.joinReopensLoose).filter endWaitsLoose := by
  rw [List.filter_filter]
  congr 1
  funext r
  cases hw : r.waits <;> simp [waits_ne, State.joinReopensLoose, endWaitsLoose, hw]

theorem hits_owner_none {m : Marker} {j : Nat} (h : (m.lane j).queue.filter s.joinReopens = []) :
    m.hits s.ownerWaits j = [] := by
  rw [Marker.hits, filter_owner, h]
  rfl

theorem hits_ended_none {m : Marker} {j : Nat} (h : (m.lane j).queue.filter s.joinReopens = []) : m.hits endWaits j = [] := by
  rw [Marker.hits, filter_ended s, h]
  rfl

end

/-! ### One report opened, by the event or by the notice -/

section
variable {s v : State} {m g : Marker} {k : ExKey} {b : Msg} {d r : Nat} {patient : Bool}

theorem takeMark_own (h1 : v.mark.ComposeRests) (h2 : v.mark.StrokeRests)
    (h : v.mark.reopen v v.ownerWaits v.ownerWaitsLoose = Eff.pure v.mark) : takeMark v (ownPresent v) = Eff.pure v.mark := by
  have hev : v.mark.takeEv v (ownPresent v) = Eff.pure v.mark := h
  rw [takeMark, hev]
  exact andThen_rests h1 h2

theorem takeMark_ended (h1 : v.mark.ComposeRests) (h2 : v.mark.StrokeRests)
    (h : v.mark.reopen v endWaits endWaitsLoose = Eff.pure v.mark) : takeMark v .endOfJoin = Eff.pure v.mark := by
  have hev : v.mark.takeEv v .endOfJoin = Eff.pure v.mark := h
  rw [takeMark, hev]
  exact andThen_rests h1 h2

/-- A report is opened by the event of the own entry, and the notice opens none, or the other way round. -/
theorem mark_reopens (hr : s.cfg.roles = { blend := false, head := false, mark := true, paper := false })
    (h : JoinEnds s 2) (hn : NothingToResume s.inv) (ho : OwnCopiesRest s.self s.inv) (hex : ExRoom s k)
    (h1 : s.mark.ComposeRests) (h2 : s.mark.StrokeRests) (g1 : g.ComposeRests) (g2 : g.StrokeRests)
    (hre : (s.mark.reopen s.joined s.joined.ownerWaits s.joined.ownerWaitsLoose = Eff.mk' g [.openEx k b d r patient] ∧
        ∀ v : State, v.cfg = s.cfg → g.reopen v endWaits endWaitsLoose = Eff.pure g) ∨
      (s.mark.reopen s.joined s.joined.ownerWaits s.joined.ownerWaitsLoose = Eff.pure s.mark ∧
        s.mark.reopen s.joined endWaits endWaitsLoose = Eff.mk' g [.openEx k b d r patient])) :
    exec .joinPeriodEnd s = .next (State.tryTransmit { s.joined.opens k b d r patient with mark := g }) := by
  have hw := joined_working h
  have hrole : s.cfg.roles.mark = true := by rw [hr]
  have hroom : ExRoom s.joined k := by
    refine ⟨?_, hex.2⟩
    have := joined_room (k := 1) h
    show s.joined.line.txq.length < _
    omega
  have hperf : ({ s.joined with mark := g } : State).perform [.openEx k b d r patient] =
      ({ s.joined.opens k b d r patient with mark := g }, []) :=
    perform_open { s.joined with mark := g } k b d r patient (joined_canSend h) (by exact hroom)
  have hmoved : OneMoved s.joined { s.joined.opens k b d r patient with mark := g } := ⟨rfl, rfl, rfl, h.1.2⟩
  have hacts : (Eff.mk' g [.openEx k b d r patient]).andThen (fun m => m.advance s.joined) =
      Eff.mk' g [.openEx k b d r patient] := andThen_rests g1 g2
  rcases hre with ⟨hown, hended⟩ | ⟨hown, hended⟩
  · have htake : takeMark s.joined (ownPresent s) = Eff.mk' g [.openEx k b d r patient] := by
      have hev : s.mark.takeEv s.joined (ownPresent s) = Eff.mk' g [.openEx k b d r patient] := hown
      rw [takeMark, joined_mark, hev]
      exact hacts
    exact lone_joins h (mark_lone hr) hn ho (job_mark hw hrole htake hperf)
      (idle_mark (takeMark_ended (v := { s.joined.opens k b d r patient with mark := g }) g1 g2 (hended _ rfl))) hmoved hmoved
  · have htake : takeMark s.joined .endOfJoin = Eff.mk' g [.openEx k b d r patient] := by
      have hev : s.mark.takeEv s.joined .endOfJoin = Eff.mk' g [.openEx k b d r patient] := hended
      rw [takeMark, joined_mark, hev]
      exact hacts
    exact lone_joins h (mark_lone hr) hn ho (idle_mark (takeMark_own (v := s.joined) h1 h2 hown))
      (job_mark hw hrole htake hperf) ⟨rfl, rfl, rfl, h.1.2⟩ hmoved

/-- Opening an entry's report leaves none waiting for the notice where none waited (R154). -/
theorem opened_ended {i o l j : Nat} (hj : j = 1 ∨ j = 2) (hl : l = 1 ∨ l = 2) (h : m.hits endWaits j = []) :
    ((m.setLane l (fun y => y.upd i o (fun e => { e with answer := .none, waits := .nothing }))).looseReplaced i o).hits
      endWaits j = [] := by
  have hnone := List.filter_eq_nil_iff.1 h
  rw [Marker.hits, looseReplaced_lane]
  by_cases hjl : j = l
  · subst hjl
    rw [lane_setLane]
    refine List.filter_eq_nil_iff.2 (fun e he => ?_)
    obtain ⟨y, hy, rfl⟩ := List.mem_map.1 he
    by_cases his : y.is i o = true
    · simp [his, endWaits, waits_ne]
    · rw [if_neg his]
      exact hnone y hy
  · rw [lane_setLane_ne hj hl hjl]
    exact h

theorem opened_endedLoose {i o l : Nat} {f : Lane → Lane} (h : m.loose.filter endWaitsLoose = []) :
    ((m.setLane l f).looseReplaced i o).loose.filter endWaitsLoose = [] := by
  have hnone := List.filter_eq_nil_iff.1 h
  refine List.filter_eq_nil_iff.2 (fun r hr => hnone r ?_)
  have := (List.mem_filter.1 hr).1
  rwa [setLane_loose] at this

/-- A report that the end of the join period opens waits for the event of the own entry or for the notice. -/
theorem joinReopens_cases {x : LaneEntry} (h : s.joinReopens x = true) : x.waits = .owner ∨ x.waits = .endOfJoin := by
  cases hw : x.waits with
  | nothing => simp [State.joinReopens, hw, waits_ne] at h
  | owner => exact .inl rfl
  | endOfJoin => exact .inr rfl

theorem joinReopensLoose_cases {x : LooseReport} (h : s.joinReopensLoose x = true) :
    x.waits = .owner ∨ x.waits = .endOfJoin := by
  cases hw : x.waits with
  | nothing => simp [State.joinReopensLoose, hw, waits_ne] at h
  | owner => exact .inl rfl
  | endOfJoin => exact .inr rfl

/-- The mark report of an entry is opened again, once (R154, R185). -/
theorem mark_reopens_entry {l : Nat} {x : LaneEntry}
    (hr : s.cfg.roles = { blend := false, head := false, mark := true, paper := false }) (h : JoinEnds s 2)
    (hn : NothingToResume s.inv) (ho : OwnCopiesRest s.self s.inv) (harr : s.mark.arrivals = [])
    (hplate : (s.mark.plate s.mark.compose).cond = .empty) (hl : l ∈ s.cfg.lanes)
    (hx : (s.mark.lane l).queue.filter s.joinReopens = [x])
    (hothers : ∀ j ∈ s.cfg.lanes, j ≠ l → (s.mark.lane j).queue.filter s.joinReopens = [])
    (hloose : s.mark.loose.filter s.joinReopensLoose = []) (hex : ExRoom s (.markDone x.inv x.ordinal)) :
    exec .joinPeriodEnd s =
      .next (State.tryTransmit { s.joined.opens (.markDone x.inv x.ordinal)
          (.markDone { inv := x.inv, ordinal := x.ordinal, how := x.how.getD .printed, marker := s.self })
          (s.markTo x.inv x.source) (s.markTo x.inv x.source) false with
        mark := (s.mark.setLane l (fun y =>
          y.upd x.inv x.ordinal (fun e => { e with answer := .none, waits := .nothing }))).looseReplaced
            x.inv x.ordinal }) := by
  have hrests (g : Marker) (ha : g.arrivals = s.mark.arrivals) (hp : g.plate g.compose = s.mark.plate s.mark.compose) :
      g.ComposeRests ∧ g.StrokeRests :=
    ⟨.inl (ha.trans harr), strokeRests_of_empty (by rw [hp]; exact hplate)⟩
  have hown := filter_owner s (s.mark.lane l).queue
  have hend := filter_ended s (s.mark.lane l).queue
  have hlo := filter_ownerLoose s s.mark.loose
  have hle := filter_endedLoose s s.mark.loose
  rw [hx] at hown hend
  rw [hloose, List.filter_nil] at hlo hle
  have hmem : x ∈ (s.mark.lane l).queue.filter s.joinReopens := by rw [hx]; exact List.mem_singleton.2 rfl
  obtain ⟨h1, h2⟩ := hrests s.mark rfl rfl
  obtain ⟨g1, g2⟩ := hrests ((s.mark.setLane l (fun y =>
    y.upd x.inv x.ordinal (fun e => { e with answer := .none, waits := .nothing }))).looseReplaced x.inv x.ordinal)
    (by simp) (by simp)
  refine mark_reopens hr h hn ho hex h1 h2 g1 g2 ?_
  rcases joinReopens_cases (List.mem_filter.1 hmem).2 with hw | hw
  · have hone : s.mark.hits s.ownerWaits l = [x] := hown.trans (by simp [hw])
    have hnone : s.mark.hits endWaits l = [] := hend.trans (by simp [hw, endWaits, waits_ne])
    refine .inl ⟨reopen_entry (s := s.joined) hl hone (fun j hj hne => hits_owner_none (hothers j hj hne)) hlo,
      fun v hv => reopen_nothing (fun j hj => ?_) (opened_endedLoose hle)⟩
    rw [hv] at hj
    refine opened_ended (lane_one_or_two hj) (lane_one_or_two hl) ?_
    by_cases hjl : j = l
    · rw [hjl]
      exact hnone
    · exact hits_ended_none (hothers j hj hjl)
  · have hnone : s.mark.hits s.ownerWaits l = [] := hown.trans (by simp [hw, waits_ne])
    have hone : s.mark.hits endWaits l = [x] := hend.trans (by simp [hw, endWaits])
    refine .inr ⟨reopen_nothing (s := s.joined) (fun j hj => ?_) hlo,
      reopen_entry (s := s.joined) hl hone (fun j hj hne => hits_ended_none (hothers j hj hne)) hle⟩
    by_cases hjl : j = l
    · rw [hjl]
      exact hnone
    · exact hits_owner_none (hothers j hj hjl)

/-- The mark report with no entry is opened again, once (R152, R154, R185). -/
theorem mark_reopens_loose {x : LooseReport}
    (hr : s.cfg.roles = { blend := false, head := false, mark := true, paper := false }) (h : JoinEnds s 2)
    (hn : NothingToResume s.inv) (ho : OwnCopiesRest s.self s.inv) (harr : s.mark.arrivals = [])
    (hplate : (s.mark.plate s.mark.compose).cond = .empty)
    (hothers : ∀ j ∈ s.cfg.lanes, (s.mark.lane j).queue.filter s.joinReopens = [])
    (hx : s.mark.loose.filter s.joinReopensLoose = [x]) (hex : ExRoom s (.markDone x.inv x.ordinal))
    (hto : x.source.isSome = true ∨ (s.inv.find x.inv).isSome = true) :
    exec .joinPeriodEnd s =
      .next (State.tryTransmit { s.joined.opens (.markDone x.inv x.ordinal)
          (.markDone { inv := x.inv, ordinal := x.ordinal, how := .hand, marker := s.self })
          (s.markTo x.inv (x.source.getD 0)) (s.markTo x.inv (x.source.getD 0)) false with
        mark := { s.mark with
          loose := s.mark.loose.filter (fun y => !(y.inv == x.inv && y.ordinal == x.ordinal)) ++
            if s.mark.printedOf s.cfg x.inv x.ordinal = [] then [{ x with waits := .nothing }] else [] } }) := by
  have hlo := filter_ownerLoose s s.mark.loose
  have hle := filter_endedLoose s s.mark.loose
  rw [hx] at hlo hle
  have hmem : x ∈ s.mark.loose.filter s.joinReopensLoose := by rw [hx]; exact List.mem_singleton.2 rfl
  have h1 : s.mark.ComposeRests := .inl harr
  have h2 : s.mark.StrokeRests := strokeRests_of_empty hplate
  have hopen := openLoose_eq (s := s.joined) (m := s.mark) (r := x) hto
  refine mark_reopens hr h hn ho hex h1 h2 h1 h2 ?_
  rcases joinReopensLoose_cases (List.mem_filter.1 hmem).2 with hw | hw
  · have hone : s.mark.loose.filter s.ownerWaitsLoose = [x] := hlo.trans (by simp [hw])
    have hnone : s.mark.loose.filter endWaitsLoose = [] := hle.trans (by simp [hw, endWaitsLoose, waits_ne])
    refine .inl ⟨(reopen_loose (s := s.joined) (fun j hj => hits_owner_none (hothers j hj)) hone).trans hopen,
      fun v hv => reopen_nothing (fun j hj => hits_ended_none (s := s) (hothers j (by rw [← hv]; exact hj))) ?_⟩
    rw [List.filter_append, List.append_eq_nil_iff]
    constructor
    · rw [List.filter_comm, hnone, List.filter_nil]
    · split
      · rfl
      · rfl
  · have hnone : s.mark.loose.filter s.ownerWaitsLoose = [] := hlo.trans (by simp [hw, waits_ne])
    have hone : s.mark.loose.filter endWaitsLoose = [x] := hle.trans (by simp [hw, endWaitsLoose])
    exact .inr ⟨reopen_nothing (s := s.joined) (fun j hj => hits_owner_none (hothers j hj)) hnone,
      (reopen_loose (s := s.joined) (fun j hj => hits_ended_none (s := s) (hothers j hj)) hone).trans hopen⟩

end

end Sys2Proof.Machine

/-! ## The end of the join period at the paper unit (O52, R160, R170, R185) -/

namespace Sys2Proof.Machine

theorem paper_lone {s : State} (hr : s.cfg.roles = { blend := false, head := false, mark := false, paper := true }) :
    Lone s .paper := by
  refine ⟨by decide, by decide, fun c hs hi hc => ?_⟩
  cases c with
  | start => exact absurd rfl hs
  | inv => exact absurd rfl hi
  | paper => exact absurd rfl hc
  | blend => simp [State.blockActive, hr]
  | arb => simp [State.blockActive, hr]
  | head => simp [State.blockActive, hr]
  | mark => simp [State.blockActive, hr]

/-! ### A predicate that hits what another selects -/

section
variable {α : Type} {l : List α} {a b : α → Bool} {k : α} {f : α → α}

theorem hits_same (h : l.filter a = [k]) (hb : ∀ t ∈ l, b t = true → a t = true) (hk : b k = true) : ∀ t ∈ l, b t = a t := by
  intro t ht
  refine Bool.eq_iff_iff.2 ⟨hb t ht, fun hat => ?_⟩
  have hmem : t ∈ l.filter a := List.mem_filter.2 ⟨ht, hat⟩
  rw [h, List.mem_singleton] at hmem
  rw [hmem]
  exact hk

theorem hits_none (h : ∀ t ∈ l.filter a, b t = false) (hb : ∀ t ∈ l, b t = true → a t = true) : ∀ t ∈ l, b t = false := by
  intro t ht
  by_contra hbt
  rw [Bool.not_eq_false] at hbt
  rw [h t (List.mem_filter.2 ⟨ht, hb t ht hbt⟩)] at hbt
  cases hbt

theorem map_hits_none (h : ∀ t ∈ l, b t = false) : l.map (fun t => if b t then f t else t) = l := by
  conv_rhs => rw [← List.map_id l]
  refine List.map_congr_left (fun t ht => ?_)
  rw [h t ht]
  rfl

end

/-! ### Takings opened again (R170) -/

section
variable {s v : State} {p : Paper} {k : Taking} {x : Entry} {f : Taking → Bool}

/-- The takings that an event opens again: those that fit, of an invoice in the table. -/
abbrev State.takingHit (s : State) (f : Taking → Bool) (t : Taking) : Bool := f t && (s.inv.find t.inv).isSome

theorem reopen_no_taking (h : ∀ t ∈ p.taking, s.takingHit f t = false) : p.reopen s f = Eff.pure p := by
  have hfilter : p.taking.filter (s.takingHit f) = [] := List.filter_eq_nil_iff.2 (fun t ht => by rw [h t ht]; decide)
  have hmap := map_hits_none (f := fun t : Taking => { t with waits := .nothing }) h
  show Eff.mk' { p with taking := p.taking.map (fun t => if s.takingHit f t then { t with waits := .nothing } else t) }
    ((p.taking.filter (s.takingHit f)).map _) = _
  rw [hfilter, hmap]
  rfl

theorem reopen_taking {a : Taking → Bool} (hk : p.taking.filter a = [k]) (hsame : ∀ t ∈ p.taking, s.takingHit f t = a t)
    (hx : s.inv.find k.inv = some x) : p.reopen s f =
      Eff.mk' { p with taking := p.taking.map (fun t => if a t then { t with waits := .nothing } else t) }
        [openTaking k.inv x.data.hdr.owner] := by
  have hfilter : p.taking.filter (s.takingHit f) = [k] := (List.filter_congr hsame).trans hk
  have hmap : p.taking.map (fun t => if s.takingHit f t then { t with waits := .nothing } else t) =
      p.taking.map (fun t => if a t then { t with waits := .nothing } else t) :=
    List.map_congr_left (fun t ht => by rw [hsame t ht])
  show Eff.mk' { p with taking := p.taking.map (fun t => if s.takingHit f t then { t with waits := .nothing } else t) }
    ((p.taking.filter (s.takingHit f)).map _) = _
  rw [hfilter, hmap, List.map_singleton, hx]

/-- A taking that waits for the return of this station as the owner. -/
abbrev State.ownerWaitsTaking (s : State) (t : Taking) : Bool := t.waits == .owner && s.ownerIs t.inv s.self

/-- A taking that waits for the end of the join period. -/
abbrev endWaitsTaking (t : Taking) : Bool := t.waits == .endOfJoin

theorem joinReopensTaking_cases (h : s.joinReopensTaking k = true) :
    (k.waits = .owner ∧ s.ownerIs k.inv s.self = true) ∨ k.waits = .endOfJoin := by
  cases hw : k.waits with
  | nothing => simp [State.joinReopensTaking, hw, waits_ne] at h
  | owner => exact .inl ⟨rfl, by simpa [State.joinReopensTaking, hw, waits_ne] using h⟩
  | endOfJoin => exact .inr rfl

theorem ownerHit_reopens {t : Taking} (h : s.takingHit s.ownerWaitsTaking t = true) : s.joinReopensTaking t = true := by
  have := (Bool.and_eq_true _ _ ▸ h).1
  exact Bool.or_eq_true _ _ ▸ .inr this

theorem endHit_reopens {t : Taking} (h : s.takingHit endWaitsTaking t = true) : s.joinReopensTaking t = true := by
  have := (Bool.and_eq_true _ _ ▸ h).1
  exact Bool.or_eq_true _ _ ▸ .inl this

/-- The decision taken anew is the one in force (R160). -/
theorem elect_again (hf : p.found = v.actingStation) (ha : p.acting = (v.actingStation == some v.self)) :
    p.elect v = Eff.pure p := by
  refine (elect_stands ?_).trans ?_
  · rw [ha, beq_iff_eq]
  · rw [← hf]

end

/-! ### The event of the own entry and the notice -/

section
variable {s t : State} {p g : Paper} {k : Taking} {x : Entry} {l : List Act}

theorem takePaper_own {r : Eff Paper} (h : s.paper.elect s.joined = r) : takePaper s.joined (ownPresent s) =
    r.andThen (fun p => p.reopen s.joined s.ownerWaitsTaking) := by
  rw [← h]
  rfl

theorem takePaper_ended : takePaper t .endOfJoin = (t.paper.elect t).andThen (fun p => p.reopen t endWaitsTaking) := rfl

/-- With no taking to be opened again the decision alone acts, on the event of the own entry (R160). -/
theorem paper_elects (hr : s.cfg.roles = { blend := false, head := false, mark := false, paper := true })
    (h : JoinEnds s 2) (hn : NothingToResume s.inv) (ho : OwnCopiesRest s.self s.inv)
    (hnone : s.paper.taking.filter s.joinReopensTaking = []) (he : s.paper.elect s.joined = Eff.mk' p l)
    (hp : ({ s.joined with paper := p } : State).perform l = (t, [])) (hpaper : t.paper = p) (ht : OneMoved s.joined t)
    (hact : t.actingStation = s.joined.actingStation) (htk : p.taking = s.paper.taking)
    (hfound : p.found = s.joined.actingStation) (hacting : p.acting = (s.joined.actingStation == some s.self)) :
    exec .joinPeriodEnd s = .next t.tryTransmit := by
  have hw := joined_working h
  have hrole : s.cfg.roles.paper = true := by rw [hr]
  have none (f : Taking → Bool) (hf : ∀ y, f y = true → s.joinReopensTaking y = true) :
      ∀ y ∈ p.taking, f y = false := by
    rw [htk]
    exact hits_none (a := s.joinReopensTaking) (by rw [hnone]; simp) (fun y _ => hf y)
  have hown : takePaper s.joined (ownPresent s) = Eff.mk' p l := by
    rw [takePaper_own he]
    have := reopen_no_taking (s := s.joined) (f := s.ownerWaitsTaking) (none _ (fun y hy => ownerHit_reopens (s := s) hy))
    simp [Eff.andThen, Eff.mk', this, Eff.pure]
  have hended : takePaper t .endOfJoin = Eff.pure t.paper := by
    obtain ⟨hi, hc, _⟩ := id ht
    have hself : t.self = s.self := congrArg Cfg.number hc
    rw [takePaper_ended, hpaper, elect_again (by rw [hact, hfound]) (by rw [hact, hself, hacting]), pure_andThen]
    refine reopen_no_taking (none _ (fun y hy => endHit_reopens (s := s) ?_))
    rw [State.takingHit, hi] at hy
    exact hy
  exact lone_joins h (paper_lone hr) hn ho (job_paper hw hrole hown hp) (idle_paper hended) ht ht

/-- The decision of the event of the own entry has been taken, and no more (R160). -/
abbrev State.elected (s : State) : Paper := { s.paper with found := s.joined.actingStation }

/-- And the takings that the end of the join period opens again wait no longer (R170). -/
abbrev State.retaken (s : State) : Paper :=
  { s.elected with
    taking := s.paper.taking.map (fun y => if s.joinReopensTaking y then { y with waits := .nothing } else y) }

/-- A taking is opened again, once (R170, R185). -/
theorem paper_reopens (hr : s.cfg.roles = { blend := false, head := false, mark := false, paper := true })
    (h : JoinEnds s 2) (hn : NothingToResume s.inv) (ho : OwnCopiesRest s.self s.inv)
    (hk : s.paper.taking.filter s.joinReopensTaking = [k]) (hx : s.inv.find k.inv = some x)
    (hacting : s.paper.acting = (s.joined.actingStation == some s.self)) (hex : ExRoom s (.sheetTaken k.inv)) :
    exec .joinPeriodEnd s =
      .next (State.tryTransmit { s.joined.opens (.sheetTaken k.inv) (.sheetTaken k.inv) 0 x.data.hdr.owner false with
        paper := { s.paper with
          found := s.joined.actingStation,
          taking := s.paper.taking.map (fun y => if s.joinReopensTaking y then { y with waits := .nothing } else y) } }) := by
  have hw := joined_working h
  have hrole : s.cfg.roles.paper = true := by rw [hr]
  have hroom : ExRoom s.joined (.sheetTaken k.inv) := by
    refine ⟨?_, hex.2⟩
    have := joined_room (k := 1) h
    show s.joined.line.txq.length < _
    omega
  have hsome : (s.inv.find k.inv).isSome = true := by rw [hx]; rfl
  have hmem : k ∈ s.paper.taking.filter s.joinReopensTaking := by rw [hk]; exact List.mem_singleton.2 rfl
  have helect : s.paper.elect s.joined = Eff.pure s.elected := by
    refine elect_stands (s := s.joined) ?_
    rw [hacting, beq_iff_eq]
    rfl
  have hperf : ({ s.joined with paper := s.retaken } : State).perform [openTaking k.inv x.data.hdr.owner] =
      ({ s.joined.opens (.sheetTaken k.inv) (.sheetTaken k.inv) 0 x.data.hdr.owner false with paper := s.retaken }, []) :=
    perform_open { s.joined with paper := s.retaken } (.sheetTaken k.inv) (.sheetTaken k.inv) 0 x.data.hdr.owner false
      (joined_canSend h) (by exact hroom)
  have hmoved : OneMoved s.joined
      { s.joined.opens (.sheetTaken k.inv) (.sheetTaken k.inv) 0 x.data.hdr.owner false with paper := s.retaken } :=
    ⟨rfl, rfl, rfl, h.1.2⟩
  have hown := takePaper_own helect
  rw [pure_andThen] at hown
  rcases joinReopensTaking_cases (List.mem_filter.1 hmem).2 with ⟨hwaits, howner⟩ | hwaits
  · have hhit : s.takingHit s.ownerWaitsTaking k = true := by
      simp [State.takingHit, State.ownerWaitsTaking, hwaits, howner, hsome]
    rw [reopen_taking (s := s.joined) (p := s.elected) hk
      (hits_same hk (fun y _ hy => ownerHit_reopens (s := s) hy) hhit) hx] at hown
    refine lone_joins h (paper_lone hr) hn ho (job_paper hw hrole hown hperf) (idle_paper ?_) hmoved hmoved
    rw [takePaper_ended, elect_again (by rfl) (by exact hacting), pure_andThen]
    refine reopen_no_taking (fun y hy => ?_)
    obtain ⟨z, hz, rfl⟩ := List.mem_map.1 hy
    by_cases hzj : s.joinReopensTaking z = true
    · simp [hzj, endWaitsTaking, waits_ne]
    · rw [if_neg hzj]
      by_contra hzh
      exact hzj (endHit_reopens (s := s) (Bool.not_eq_false _ ▸ hzh))
  · have hnot : ∀ y ∈ s.elected.taking, s.joined.takingHit s.ownerWaitsTaking y = false := by
      refine hits_none (a := s.joinReopensTaking) ?_ (fun y _ hy => ownerHit_reopens (s := s) hy)
      intro y hy
      rw [show s.elected.taking = s.paper.taking from rfl, hk, List.mem_singleton] at hy
      simp [hy, hwaits, waits_ne]
    rw [reopen_no_taking hnot] at hown
    have hhit : s.takingHit endWaitsTaking k = true := by simp [State.takingHit, hwaits, hsome]
    have hended : takePaper { s.joined with paper := s.elected } .endOfJoin =
        Eff.mk' s.retaken [openTaking k.inv x.data.hdr.owner] := by
      rw [takePaper_ended, elect_again (by rfl) (by exact hacting), pure_andThen]
      exact reopen_taking (p := s.elected) hk (hits_same hk (fun y _ hy => endHit_reopens (s := s) hy) hhit) hx
    exact lone_joins h (paper_lone hr) hn ho (job_paper (t := { s.joined with paper := s.elected }) hw hrole hown rfl)
      (job_paper (by exact hw) (by exact hrole) hended hperf) ⟨rfl, rfl, rfl, h.1.2⟩ hmoved

/-- The decision in force stands. -/
theorem paper_stands (hr : s.cfg.roles = { blend := false, head := false, mark := false, paper := true })
    (h : JoinEnds s 2) (hn : NothingToResume s.inv) (ho : OwnCopiesRest s.self s.inv)
    (hnone : s.paper.taking.filter s.joinReopensTaking = [])
    (ha : s.paper.acting = (s.joined.actingStation == some s.self)) :
    exec .joinPeriodEnd s =
      .next (State.tryTransmit { s.joined with paper := { s.paper with found := s.joined.actingStation } }) := by
  have helect : s.paper.elect s.joined = Eff.mk' s.elected [] := by
    refine elect_stands (s := s.joined) ?_
    rw [ha, beq_iff_eq]
    rfl
  exact paper_elects (t := { s.joined with paper := s.elected }) hr h hn ho hnone helect rfl rfl ⟨rfl, rfl, rfl, h.1.2⟩ rfl
    rfl rfl ha

/-- The station stops acting. -/
theorem paper_stops (hr : s.cfg.roles = { blend := false, head := false, mark := false, paper := true })
    (h : JoinEnds s 2) (hn : NothingToResume s.inv) (ho : OwnCopiesRest s.self s.inv)
    (hnone : s.paper.taking.filter s.joinReopensTaking = []) (ha : s.paper.acting = true)
    (hnot : s.joined.actingStation ≠ some s.self) :
    exec .joinPeriodEnd s =
      .next (State.tryTransmit { s.joined with paper := { s.paper with
        acting := false, found := s.joined.actingStation, queue := [], waiting := [] } }) := by
  have helect := elect_stops (s := s.joined) (p := s.paper) hnot ha
  exact paper_elects (p := { s.paper with
      acting := false, found := s.joined.actingStation, queue := [], waiting := [] })
    (t := { s.joined with paper := { s.paper with
      acting := false, found := s.joined.actingStation, queue := [], waiting := [] } })
    hr h hn ho hnone helect rfl rfl ⟨rfl, rfl, rfl, h.1.2⟩ rfl rfl rfl (beq_eq_false_iff_ne.2 hnot).symm

theorem build_one {i : Inv} (hl : i.closedEntries = [x]) (hx : x.copy = .complete) :
    p.build i = Eff.mk' { p with
        waiting := [], nextSeq := p.nextSeq + 1, queue := [{ inv := x.num, seq := p.nextSeq }] } [sheetReady x.num] := by
  simp [Paper.build, hl, each_one, Paper.takeClosure, Config.tableEntries, hx, placeSheet, Eff.mk']

/-- The station becomes acting, and its queue is built anew. -/
theorem paper_starts (hr : s.cfg.roles = { blend := false, head := false, mark := false, paper := true })
    (h : JoinEnds s 2) (hn : NothingToResume s.inv) (ho : OwnCopiesRest s.self s.inv)
    (hnone : s.paper.taking.filter s.joinReopensTaking = []) (ha : s.paper.acting = false)
    (hact : s.joined.actingStation = some s.self) (hl : s.inv.closedEntries = [x]) (hx : x.copy = .complete) :
    exec .joinPeriodEnd s =
      .next (State.tryTransmit { s.joined.report (Report.of .sheetReady (some x.num) none none .absent) with
        paper := { s.paper with
          acting := true, found := some s.self, queue := [{ inv := x.num, seq := s.paper.nextSeq }], waiting := [],
          nextSeq := s.paper.nextSeq + 1 } }) := by
  have helect := (elect_starts (s := s.joined) (p := s.paper) hact ha).trans (build_one hl hx)
  refine paper_elects (p := { s.paper with
      acting := true, found := some s.self, queue := [{ inv := x.num, seq := s.paper.nextSeq }], waiting := [],
      nextSeq := s.paper.nextSeq + 1 })
    (t := { s.joined.report (Report.of .sheetReady (some x.num) none none .absent) with
      paper := { s.paper with
        acting := true, found := some s.self, queue := [{ inv := x.num, seq := s.paper.nextSeq }], waiting := [],
        nextSeq := s.paper.nextSeq + 1 } })
    hr h hn ho hnone helect rfl rfl ⟨rfl, rfl, rfl, h.1.2⟩ rfl rfl hact.symm ?_
  rw [hact]
  exact (beq_self_eq_true _).symm

end

end Sys2Proof.Machine

/-! ## The end of a load and of the join period (O52) -/

namespace Sys2Proof.Machine

/-! ### What a load leaves (R180 to R184) -/

section
variable {s : State} {c : Cfg}

theorem load_faults (hl : s.start.resetLow = false) (hs : s.start.state = .loading) {a : Bool} {f : CfgFault}
    (hm : loadMemory s.cfgMem a = .inl f) :
    exec (.configLoadEnd a) s =
      .next ({ s with start := { s.start with
        state := .offlineConfig, fault := some f, rejected := [] } }.report (faultReport f)) :=
  next_eq (loadEnd_fault hl hs hm)

theorem load_cold_leaves (hl : s.start.resetLow = false) (hs : s.start.state = .loading)
    (hm : loadMemory s.cfgMem true = .inr c) (hc : s.start.isCold = true) (hq : s.line.txq = [])
    (ho : s.head.owedDone = []) (hph : s.inv.phase = .idle) (ha : s.mark.arrivals = [])
    (hp : (s.mark.plate s.mark.compose).cond = .empty) :
    ∃ t : State, exec (.configLoadEnd true) s = .next t ∧
      t.cfg = c ∧ t.cfgMem = s.cfgMem ∧
      t.start = { s.start with state := .joining, fault := none, rejected := c.rejected, converted := false } ∧
      t.inv = { s.inv with mark := c.first - 1 } ∧ t.fe.zero = c.zero ∧ t.head.allowance = c.allowance ∧
      t.head.refGrade = c.defGrade ∧
      t.port = { s.port with
        reports := (loadReports s.start.kind c.rejected).foldl addReport s.port.reports } ∧
      t.line.txq = [joinOf c .cold] := by
  obtain ⟨p, hrun⟩ := load_cold hl hs hm hc hq ho hph ha hp
  have htook := tookLoad_cold (c := c) hc
  refine ⟨_, hrun, ?_⟩
  simp [State.usedChoice, State.loadJoins, htook]

theorem load_warm_leaves (hl : s.start.resetLow = false) (hs : s.start.state = .loading)
    (hm : loadMemory s.cfgMem true = .inr c) (hc : s.start.isCold = false) :
    ∃ t : State, exec (.configLoadEnd true) s = .next t ∧
      t.cfg = c ∧ t.cfgMem = s.cfgMem ∧ t.start.state = .joining ∧ t.start.fault = none ∧
      t.start.rejected = c.rejected ∧
      t.start.converted = (c.number != s.cfg.number || c.roles != s.cfg.roles) := by
  obtain ⟨hcfg, hmem, hstart⟩ := loadGood_outside s c
  have huntimed : (State.settle (s.loadGood c)).start.untimed = (s.tookLoad c).start.untimed := by
    rw [settle_untimed, hstart]
  have hfield {α : Type} (f : Start → α) (hf : ∀ x : Start, f x.untimed = f x) :
      f (State.settle (s.loadGood c)).start = f (s.tookLoad c).start := by
    rw [← hf, huntimed, hf]
  refine ⟨_, next_eq (loadEnd_good hl hs hm), (settle_cfg _).trans hcfg, (settle_cfgMem _).trans hmem, ?_, ?_, ?_, ?_⟩
  · exact (hfield Start.state (fun _ => rfl)).trans rfl
  · exact (hfield Start.fault (fun _ => rfl)).trans rfl
  · exact (hfield Start.rejected (fun _ => rfl)).trans rfl
  · refine (hfield Start.converted (fun _ => rfl)).trans ?_
    simp [State.tookLoad, State.converts, hc]

end

/-! ### What a warm load leaves at a head (R123) -/

section
variable {s : State} {c : Cfg} {g : Head}

/-- A head that the load changes without an action. -/
theorem warm_head_pure (h : LoadsWarm s c) (hr : s.cfg.roles = { blend := false, head := true, mark := false, paper := false })
    (hb : ∀ w : State, s.head.loaded w = Eff.pure g) (ho : g.owedDone = s.head.owedDone) :
    ∃ t : State, exec (.configLoadEnd true) s = .next t ∧ WarmLoaded s t c [] ∧ t.head = g := by
  have howed : s.head.owedDone = [] := h.2.2.2.2.2.2.2.1
  exact ⟨_, warm_head (t := { s.warmJoins c with head := g }) h hr (hb _) rfl (ho.trans howed)
    ⟨rfl, rfl, rfl, rfl, rfl, rfl⟩ rfl⟩

theorem warm_head_empty (h : LoadsWarm s c)
    (hr : s.cfg.roles = { blend := false, head := true, mark := false, paper := false }) (hs : s.head.state = .empty) :
    ∃ t : State, exec (.configLoadEnd true) s = .next t ∧ WarmLoaded s t c [] ∧ t.head = s.head ∧ t.fe.tracking = true := by
  have howed : s.head.owedDone = [] := h.2.2.2.2.2.2.2.1
  obtain ⟨hrun, hleft, hhead⟩ := warm_head (l := [])
    (t := { s.warmJoins c with head := s.head, fe := { (s.warmJoins c).fe with tracking := true } }) h hr
    (headLoaded_empty hs _) rfl howed ⟨rfl, rfl, rfl, rfl, rfl, rfl⟩ rfl
  exact ⟨_, hrun, hleft, hhead, by rw [tryTransmit_fe]⟩

theorem warm_head_faults (h : LoadsWarm s c)
    (hr : s.cfg.roles = { blend := false, head := true, mark := false, paper := false })
    (hs : s.head.state = .fast ∨ s.head.state = .dribble ∨ s.head.state = .settling ∨ s.head.state = .topupWait) :
    ∃ t : State, exec (.configLoadEnd true) s = .next t ∧
      WarmLoaded s t c [Report.of .headFault (s.head.chest.bind (fun x => x.inv)) none none (.code .restart)] ∧
      t.head = { s.head with
        state := .held, lease := .none, cause := some .restart, flight := .stopped, settle := .stopped,
        sendFrame := none, refusedVoid := false, waitOwner := false, waitBlender := false, waitJoin := false,
        chest := s.head.chest.map (fun x => { x with
          lease := none,
          flight := if s.head.flight.on = true ∨ s.head.state = .fast ∨ s.head.state = .dribble then none
            else x.flight }) } := by
  have howed : s.head.owedDone = [] := h.2.2.2.2.2.2.2.1
  exact ⟨_, warm_head h hr (headLoaded_faults hs _) rfl howed ⟨rfl, rfl, rfl, rfl, rfl, rfl⟩ rfl⟩

end

/-- Settles O52. -/
theorem loadAndJoinPeriod : Obligations.LoadAndJoinPeriod := by
  refine ⟨fun s hl hs => ⟨fun a f hm => load_faults hl hs hm, rfl, loadMemory_signature,
      fun c hm hc hq ho hph ha hp => load_cold_leaves hl hs hm hc hq ho hph ha hp,
      fun c hm hc => load_warm_leaves hl hs hm hc⟩,
    fun s c h => ⟨fun hr => ⟨fun o hs _ _ => ?_, fun hs => ?_, fun hs => ?_, fun hs => ?_, fun o w hs ho hc hw => ?_⟩,
      fun hr => ⟨fun hs => warm_head_faults h hr hs, fun hs => warm_head_pure h hr (headLoaded_waiting hs) rfl,
        fun hs => warm_head_pure h hr (headLoaded_reports hs) rfl, fun hs => warm_head_empty h hr hs,
        fun hs => warm_head_pure h hr (headLoaded_rests hs) rfl⟩,
      fun hr => warm_mark h hr, fun hr => warm_paper h hr⟩,
    fun s h hj hroom => ⟨fun ht => joinRetry_queues h hj hroom ht,
      fun ht => ⟨joinEnd_active ⟨h, hj, ht, hroom⟩, fun hr hn hb => ⟨fun ho => blender_rests ⟨h, hj, ht, hroom⟩ hr hn hb ho,
        fun x hx hown hc ha htwo => blender_asks ⟨h, hj, ht, htwo⟩ hr hn hb hx hown hc ha⟩⟩⟩,
    fun s hr => ⟨fun l hj hn ho hidle hl hb => blender_withdraws hj hr hn ho hidle hl hb,
      fun q n hj hn ho hl hb hp hq hf hlast hm => blender_claims hj hr hn ho hl hb hp hq hf hlast hm,
      fun n x o h hj hidle hl ht hn hx hc hset hd hs hv hb hst hstop _ hq hh =>
        blender_resumes hr hj hidle hl ht hn hx hc hset hd hs hv hb hst hstop hq hh⟩,
    fun s c n hr hj hn ho hjoin hc hi => ⟨fun g w k hst hg hw hk hex => head_reports hr hj hn ho hjoin hc hi hst hg hw hk hex,
      fun w hst hok hv hex => head_voids hr hj hn ho hjoin hc hi hst hok hv hex⟩,
    fun s hr hj hn ho ha hp => ⟨fun k x hk hx hothers hl hex => mark_reopens_entry hr hj hn ho ha hp hk hx hothers hl hex,
      fun r hothers hl hex hto => mark_reopens_loose hr hj hn ho ha hp hothers hl hex hto⟩,
    fun s hr hj hn ho => ⟨fun hnone => ⟨fun ha => paper_stands hr hj hn ho hnone ha,
        fun ha hnot => paper_stops hr hj hn ho hnone ha hnot,
        fun x ha hact hl hx => paper_starts hr hj hn ho hnone ha hact hl hx⟩,
      fun k x hk hx ha hex => paper_reopens hr hj hn ho hk hx ha hex⟩⟩
  · obtain ⟨t, hrun, hleft, hblend, _⟩ := warm_blend h hr (loaded_charging hs _)
    exact ⟨t, hrun, hleft, hblend⟩
  · obtain ⟨t, hrun, hleft, hblend, _⟩ := warm_blend h hr (loaded_mixing hs _)
    exact ⟨t, hrun, hleft, hblend⟩
  · obtain ⟨t, hrun, hleft, hblend, _⟩ := warm_blend h hr (loaded_discharging hs h.blocks.inv)
    exact ⟨t, hrun, hleft, hblend⟩
  · obtain ⟨t, hrun, hleft, hblend, _⟩ := warm_blend h hr (loaded_rests hs _)
    exact ⟨t, hrun, hleft, hblend⟩
  · have hask := askAgain_asked (b := s.blend) (by rcases hs with hs | hs | hs <;> simp [hs]) ho hc hw
    rcases hs with hs | hs
    · obtain ⟨t, hrun, _, _, hinv⟩ := warm_blend h hr (loaded_mixing hs _)
      exact ⟨t, hrun, hinv _ hask⟩
    · have hrest : s.blend.state = .idle ∨ s.blend.state = .waitClaim ∨ s.blend.state = .held ∨ s.blend.state = .blocked := by
        tauto
      obtain ⟨t, hrun, _, _, hinv⟩ := warm_blend h hr (loaded_rests hrest _)
      exact ⟨t, hrun, hinv _ hask⟩

end Sys2Proof.Machine
